-- ==== Sys2Proof/Word.lean ====
section
/-! DEFINITION. The words of the NK24's registers and headers, and their plainest arithmetic (R7: bit 0 is the least significant). -/

namespace Sys2Proof

/-- One byte of memory or of a message. -/
abbrev Byte := BitVec 8

/-- A 24-bit global queue-pair number (R138, Table 06-14). -/
abbrev Qpn := BitVec 24

/-- A 24-bit packet sequence number; its arithmetic is modulo 2^24 (R161). -/
abbrev Psn := BitVec 24

/-- A 20-bit module or pair address (R230). -/
abbrev ModAddr := BitVec 20

/-- A free-running 16-bit ring index (R109). -/
abbrev RingIndex := BitVec 16

/-- A 32-bit region key: [31:8] global region number, [7:0] generation (Table 06-11). -/
abbrev Key := BitVec 32

/-- A 32-bit reason code: subsystem, class, detail (R77). -/
abbrev Reason := BitVec 32

/-- How far `b` lies ahead of `a` on a free-running index. -/
def ahead {w : Nat} (a b : BitVec w) : Nat := (b - a).toNat

/-- R161: PSN `a` precedes `b` when (b - a) mod 2^24 lies in 1 to 2^23 - 1. -/
def psnPrecedes (a b : Psn) : Bool :=
  decide (1 ≤ ahead a b) && decide (ahead a b < 2 ^ 23)

/-- Ceiling division, with the ceiling of anything over zero taken as zero. -/
def ceilDiv (a b : Nat) : Nat := if b = 0 then 0 else (a + b - 1) / b

/-- `x` rounded up to a multiple of `m`. -/
def roundUp (x m : Nat) : Nat := ceilDiv x m * m

/-- Keep `x` between `lo` and `hi`. -/
def clampNat (x lo hi : Nat) : Nat := max lo (min x hi)

/-- The natural number whose little-endian bytes are `bs` (R8, R49). -/
def leNat : List Byte → Nat
  | [] => 0
  | b :: bs => b.toNat + 256 * leNat bs

/-- `n` bytes of `x`, least significant first (R8, R49). -/
def leBytes : Nat → Nat → List Byte
  | 0, _ => []
  | n + 1, x => BitVec.ofNat 8 x :: leBytes n (x / 256)

/-- `n` bytes of `x`, most significant first (the link and transport headers of R8). -/
def beBytes (n x : Nat) : List Byte := (leBytes n x).reverse

/-- The natural number whose big-endian bytes are `bs`. -/
def beNat (bs : List Byte) : Nat := leNat bs.reverse

/-- `n` bytes of `bs` from offset `off`, zero-filled past the end. -/
def slice (bs : List Byte) (off n : Nat) : List Byte :=
  ((bs.drop off).take n) ++ List.replicate (n - (bs.length - off)) 0

/-- The little-endian field of `n` bytes at offset `off`. -/
def leField (bs : List Byte) (off n : Nat) : Nat := leNat (slice bs off n)

/-- `bs` with `new` written over it from offset `off` (never longer than `bs`). -/
def overlay (bs : List Byte) (off : Nat) (new : List Byte) : List Byte :=
  bs.take off ++ new.take (bs.length - off) ++ bs.drop (off + new.length)

/-- Bit `k` of a natural number. -/
def bitOf (x k : Nat) : Bool := x.testBit k

/-- A natural number with bit `k` set to `b`. -/
def setBit (x k : Nat) (b : Bool) : Nat :=
  if b then x ||| (2 ^ k) else (if x.testBit k then x - 2 ^ k else x)

end Sys2Proof
end

