-- ==== Sys2Proof/Syntax.lean ====
section
/-! DEFINITION. The commands of the NK24 and their operands: one constructor of `Instr` per row of the
table of operations and events. What reaches the module from outside it (entries read from rings,
bytes returned by reads of host or accelerator memory, verdicts of signature and tag checks, sensor
samples) stands in the operands. -/

namespace Sys2Proof

/-! ## Half-ports, ports and lanes -/

/-- Half-port 0-7: C0a, C0b, ... C3b (Table 05-1). -/
abbrev HalfPort := Fin 8

/-- Network port N0-N3. -/
abbrev NetPort := Fin 4

/-- A native link: N0-N3 are 0-3, G0 and G1 are 4 and 5 (R223, R356). -/
abbrev Link := Fin 6

/-- A virtual channel VC0-VC7. -/
abbrev Vc := Fin 8

/-! ## The object dictionary protocol (Table 03-6) -/

/-- The transport and endpoint a dictionary or SPDM request arrived on (Table 03-3, R60, R402). -/
inductive Via where
  /-- MCTP over I3C: class M. -/
  | i3c (eid : Byte)
  /-- MCTP over PCIe VDM on the host port: class P. -/
  | vdm (requester : BitVec 16)
  /-- The PF's object-access mailbox: class P (Table 04-3). -/
  | pfMailbox
  /-- VF n's object-access mailbox: class V. -/
  | vfMailbox (vf : Nat)
  /-- Management QP 0: class F. -/
  | qp0 (srcModule : ModAddr) (srcQpn : Qpn)
  deriving DecidableEq, Repr

/-- The part of a dictionary request that every command carries. -/
structure ReqHdr where
  via : Via
  /-- The SPDM secured session the request arrived in, if any (R404). -/
  session : Option Nat
  /-- Bytes 1-4 as a number: 0x0003_2E41 on a good request (R78). -/
  vendor : BitVec 32
  version : Byte
  /-- STATUS byte of the request, zero on a good one. -/
  status : Byte
  tag : BitVec 16
  func : BitVec 16
  reserved : Byte
  /-- False when IC = 1 and the CRC-32C does not fit the message. -/
  integrityOk : Bool
  /-- The COMMAND byte, when it is none that a requester may send (Table 03-7): the message is then no command of its row. -/
  badCommand : Option Byte
  deriving DecidableEq, Repr

/-- The command codes of Table 03-7 that a requester may send. -/
inductive DictCmd where
  | read | write | describe | next | store | defaults
  deriving DecidableEq, Repr

/-- A whole dictionary request. -/
structure Req where
  hdr : ReqHdr
  cmd : DictCmd
  index : BitVec 16
  sub : Byte
  offset : BitVec 32
  length : BitVec 16
  data : List Byte
  deriving DecidableEq, Repr

/-- One command block of a CTRL_CMD write (R140): the header of the request that carries it, and the
common bytes of Table 06-2. `index` 0 opens a new CTRL_CMD write; a higher index is a later block of
the same write, `last` marks its last block. `reservedZero` is false when a reserved byte of the block is not zero. -/
structure CtrlHdr where
  hdr : ReqHdr
  index : Fin 16
  last : Bool
  func : BitVec 16
  number : BitVec 32
  reservedZero : Bool
  /-- The partner's objects admit the command in the order and with the fields that Table 16-6a asks. -/
  twinAgrees : Bool
  deriving DecidableEq, Repr

/-! ## Packets and frames -/

/-- A native packet: the transport header of Table 06-14, the payload, and the tag of a packet with ENC = 1, whose payload is then
ciphertext on the wire (R411). -/
structure Packet where
  version : BitVec 4
  dstModule : ModAddr
  srcModule : ModAddr
  dstQpn : Qpn
  srcQpn : Qpn
  opcode : Byte
  flags : Byte
  psn : Psn
  msgId : BitVec 16
  remoteAddr : BitVec 64
  key : Key
  payloadLen : BitVec 13
  pktOffset : BitVec 31
  aux : BitVec 32
  payload : List Byte
  tag : BitVec 128 := 0
  deriving DecidableEq, Repr

/-- A packet at a module's ingress bridge. `data` are the bytes that a read of the responder's memory returns for a READ_REQ, none
when that read fails (R105). -/
structure Arrival where
  port : NetPort
  pkt : Packet
  data : Option (List Byte)
  deriving DecidableEq, Repr

/-- What an RAU did wrong on the issue a packet or group gave it: the physical unit and the number of
lanes whose check failed (R336, R339). -/
structure RauFault where
  unit : Fin 68
  lanes : Nat
  deriving DecidableEq, Repr

/-- A native link frame as received: its bytes, in the order they came (Tables 10-3 to 10-5, R8). -/
structure RxFrame where
  bytes : List Byte
  /-- The frame overlaps an uncorrectable FEC codeword (R226). -/
  fecBad : Bool
  /-- As in an arrival: what the read returns that a READ_REQ in the frame asks for. -/
  data : Option (List Byte)
  deriving DecidableEq, Repr

/-- An Ethernet frame as received (R239). -/
structure EthFrame where
  length : Nat
  dstMac : List Byte
  /-- The low 20 bits of the IP destination, when it lies under the configured prefix. -/
  ipDst : Option ModAddr
  udpPort : BitVec 16
  fragment : Bool
  checksumOk : Bool
  fcsOk : Bool
  /-- ICRC verdict on UDP port 4791. -/
  icrcOk : Bool
  ecnCe : Bool
  /-- The IEEE 802.1Q tags: VID and PCP of each, outermost first. -/
  tags : List (BitVec 12 × Vc)
  /-- The DSCP of the IP header. -/
  dscp : BitVec 6
  /-- Bytes that the port's receive buffer holds of the frame's priority once the frame has entered (R241). -/
  buffered : Nat
  /-- The source GID, 16 B: the IPv6 source address, or the IPv4 one mapped into IPv6. -/
  srcGid : List Byte
  arr : Arrival
  deriving DecidableEq, Repr

/-- A graft HEARTBEAT payload (Table 16-2). -/
structure Heartbeat where
  moduleState : Byte
  pairState : Byte
  position : Byte
  holdsObjects : Bool
  hello : Bool
  rseqAck : BitVec 32
  pairAddress : ModAddr
  moduleAddress : ModAddr
  serial : List Byte
  fwVersion : BitVec 32
  shares : BitVec 16
  deriving DecidableEq, Repr

/-- A completion entry as written by the module (Table 05-8), without OWN. -/
structure Cqe where
  timestamp : BitVec 32
  count : BitVec 16
  index : RingIndex
  imm : BitVec 32
  byteCount : BitVec 32
  wrId : BitVec 64
  qpn : Qpn
  solicited : Bool
  responder : Bool
  immValid : Bool
  opcode : Byte
  status : Byte
  flushed : Bool
  deriving DecidableEq, Repr

/-- A CQE carried by a mirror record (Table 16-5). -/
structure MirrorCqe where
  cqn : Nat
  position : RingIndex
  cqe : Cqe
  deriving DecidableEq, Repr

/-- A mirror record (Table 16-5). -/
structure MirrorRecord where
  kind : Byte
  rseq : BitVec 32
  qpn : Qpn
  sqRetire : RingIndex
  rqRetire : RingIndex
  psnA : Psn
  psnB : BitVec 32
  index : RingIndex
  status : Byte
  token : BitVec 32
  /-- RESPONDER: HELD_MAP; ATOMIC_RESULT: the original value. -/
  data : BitVec 256
  cqes : List MirrorCqe
  deriving DecidableEq, Repr

/-- A copied QP context of a synchronisation, with its token history and its response-cache block (R378). -/
structure SyncQp where
  /-- Index of the next entry to consume, up to which the token history reaches. -/
  head : RingIndex
  sqRetire : RingIndex
  rqRetire : RingIndex
  una : Psn
  nxt : Psn
  e : Psn
  heldMap : BitVec 256
  sendCount : BitVec 32
  tokens : List (Option (BitVec 32))
  results : List (Psn × BitVec 64)
  deriving DecidableEq, Repr

/-- What ends the transfer of a cast to the twin: fields of its directory entry, and the CRC verdict. -/
structure CastTail where
  gen : BitVec 32
  step : BitVec 64
  extent : BitVec 16
  crc : BitVec 32
  time : BitVec 64
  crcOk : Bool
  deriving DecidableEq, Repr

/-- What a BULK frame carries (R356, R376, R378). -/
inductive BulkData where
  /-- Cast data for a twin-held slot: the byte offset within the slot, the bytes, and, in the last
  frame, the directory entry's GEN, STEP, EXTENT, CRC and TIME and whether the CRC over the copy matches. -/
  | cast (offset : Nat) (bytes : List Byte) (last : Option CastTail)
  /-- A copied object of a synchronisation: kind 1 QP, 2 CQ, 3 SRQ, 4 region; its local number, its
  function, whether it equals the joining twin's own, and what it says of a QP's transport state. -/
  | sync (kind : Byte) (number : Nat) (func : Nat) (equal : Bool) (qp : Option SyncQp)
  deriving DecidableEq, Repr

/-! ## Work queues -/

/-- A ring of a QP or SRQ, by global number. -/
inductive RingId where
  | send (qpn : Nat)
  | recv (qpn : Nat)
  | srq (n : Nat)
  deriving DecidableEq, Repr

/-- The 512 bits of a submission entry as a ring read returns them (Table 05-4). -/
abbrev SqeBits := BitVec 512

/-- The fields of a submission entry (Table 05-4). `reservedZero` is false when a reserved bit is set. -/
structure Sqe where
  opcode : Byte
  c : Bool
  x : Bool
  t : Bool
  f : Bool
  s : Bool
  token : BitVec 32
  wrId : BitVec 64
  localAddr : BitVec 64
  localKey : Key
  length : BitVec 32
  remoteAddr : BitVec 64
  remoteKey : Key
  imm : BitVec 32
  operandA : BitVec 64
  operandB : BitVec 64
  reservedZero : Bool
  deriving DecidableEq, Repr

/-- The fields of a COLLECTIVE entry (Tables 05-4, 12-5 and 14-6). -/
structure CollSqe where
  c : Bool
  s : Bool
  f : Bool
  x : Bool
  t : Bool
  token : BitVec 32
  wrId : BitVec 64
  outAddr : BitVec 64
  outKey : Key
  inKey : Key
  inAddr : BitVec 64
  count : BitVec 64
  schedId : BitVec 16
  root : BitVec 16
  redop : BitVec 4
  kind : BitVec 4
  dtype : Byte
  ncontrib : BitVec 4
  ext : BitVec 64
  reservedZero : Bool
  deriving DecidableEq, Repr

/-- A named buffer: address and key. -/
structure BufRef where
  addr : BitVec 64
  key : Key
  deriving DecidableEq, Repr

/-- One entry of an ALLTOALLV vector table (R271), in elements. -/
structure VecEntry where
  sendCount : Nat
  sendOffset : Nat
  recvCount : Nat
  recvOffset : Nat
  deriving DecidableEq, Repr

/-- What the reads at a COLLECTIVE's consumption return: the contribution table (R271), the vector
table (R277) and the apply descriptor (R322); `ok` is false when one of those reads fails (R276). -/
structure CollReads where
  ok : Bool
  contribs : List BufRef
  vec : List VecEntry
  scalars : List (BitVec 32)
  outputs : List BufRef
  deriving DecidableEq, Repr

/-- The 128 bits of a fragment entry as a read of its table returns them (Table 05-7). -/
abbrev FragBits := BitVec 128

/-- The fields of a fragment entry (Table 05-7). -/
structure Frag where
  addr : BitVec 64
  key : Key
  len : BitVec 32
  deriving DecidableEq, Repr

/-- A write into a function's doorbell aperture (R117, R119): the offset, the bytes written, and
whether every byte enable of those bytes is set. -/
structure ApertureWrite where
  func : Nat
  offset : Nat
  bytes : List Byte
  enables : Bool
  deriving DecidableEq, Repr

/-! ## Control command fields (Tables 06-3 to 06-5, 12-2, 13-9, 14-1, 14-3, 17-4) -/

structure RingFields where
  base : BitVec 64
  log2 : Byte
  path : Byte
  poll : BitVec 16
  cqn : BitVec 32
  deriving DecidableEq, Repr

structure EqFields where
  base : BitVec 64
  log2 : Byte
  path : Byte
  vector : BitVec 16
  deriving DecidableEq, Repr

structure CqFields where
  base : BitVec 64
  log2 : Byte
  path : Byte
  vector : BitVec 16
  noFlush : Byte
  deriving DecidableEq, Repr

structure SrqFields where
  base : BitVec 64
  log2 : Byte
  path : Byte
  poll : BitVec 16
  deriving DecidableEq, Repr

structure QpFields where
  type : Byte
  flags : Byte
  srqn : BitVec 32
  sq : RingFields
  rq : RingFields
  deriving DecidableEq, Repr

structure ModifyFields where
  newState : Byte
  mask : BitVec 16
  remoteModule : BitVec 32
  remoteQpn : BitVec 32
  sqPsn : BitVec 32
  rqPsn : BitVec 32
  rnrRetry : Byte
  rnrDelay : Byte
  vcClass : Byte
  cipherOn : Byte
  keySlot : BitVec 16
  qKey : BitVec 32
  pmtu : Byte
  deriving DecidableEq, Repr

/-- REG_REGION; `pages` are the entries the copy from PAGE_LIST reads, none when that read fails. -/
structure RegionFields where
  va : BitVec 64
  length : BitVec 64
  path : Byte
  pageSize : Byte
  access : Byte
  bindQpn : BitVec 32
  pageList : BitVec 64
  pageCount : BitVec 32
  pages : Option (List (BitVec 64))
  deriving DecidableEq, Repr

/-- CREATE_COMM; `table` are the member table entries read from MT_SRC, none when that read fails. -/
structure CommFields where
  n : BitVec 32
  myRank : BitVec 16
  epoch : BitVec 32
  connBase : BitVec 32
  mtSrc : BitVec 64
  mtDest : BitVec 64
  levelArith : List (BitVec 16)
  ovfBase : BitVec 32
  ovfSize : BitVec 32
  table : Option (List (BitVec 64))
  deriving DecidableEq, Repr

/-- LOAD_SCHEDULE and LOAD_KERNEL; `image` are the bytes read from SRC, none when that read fails.
`stepsOk` says whether the body of a schedule image, in glikin's own encoding, carries the steps of R471. -/
structure ImageFields where
  src : BitVec 64
  length : BitVec 32
  dest : BitVec 64
  image : Option (List Byte)
  stepsOk : Bool
  deriving DecidableEq, Repr

structure BindFields where
  count : BitVec 64
  record : BitVec 64
  efBase : List (BitVec 64)
  seed : BitVec 64
  flags : Byte
  /-- The record that ADOPT reads is no uncorrectable one. -/
  recordOk : Bool
  deriving DecidableEq, Repr

structure ShardFields where
  count : BitVec 64
  first : BitVec 64
  length : BitVec 64
  record : BitVec 64
  base : BitVec 64
  pFmt : Byte
  m1Fmt : Byte
  m2Fmt : Byte
  qFmt : Byte
  flags : Byte
  /-- The record that ADOPT reads is no uncorrectable one. -/
  recordOk : Bool
  deriving DecidableEq, Repr

structure XferFields where
  dir : Byte
  stream : Byte
  path : Byte
  start : BitVec 64
  elements : BitVec 64
  addr : BitVec 64
  deriving DecidableEq, Repr

structure ImageXfer where
  addr : BitVec 64
  length : BitVec 64
  wrapSlot : BitVec 16
  deriving DecidableEq, Repr

/-- A QP of a VF image (sections 1, 7 and 8 of Table 17-6) in the model's own form: the creation fields with the saved
attributes, connection and sequence state, the first PSN of each entry that has sent, by ring index, the token history and the
response cache. The state is that before the freeze. -/
structure ImageQp where
  number : Nat
  create : QpFields
  st : Byte
  remoteModule : ModAddr
  remoteQpn : Qpn
  rnrRetry : Byte
  rnrDelay : Byte
  qKey : BitVec 32
  pmtu : Byte
  vcClass : Bool
  cipherOn : Bool
  keySlot : Nat
  una : Psn
  expect : Psn
  heldMap : BitVec 256
  /-- Index of the oldest entry not completed, on the send ring and on the receive ring. -/
  sqRetire : RingIndex
  rqRetire : RingIndex
  sendCount : BitVec 32
  started : List (RingIndex × Psn)
  tokens : List (Option (BitVec 32))
  results : List (Psn × BitVec 64)
  deriving DecidableEq, Repr

/-- A region of a VF image, section 6 of Table 17-6. -/
structure ImageRegion where
  number : Nat
  gen : Byte
  fields : RegionFields
  deriving DecidableEq, Repr

/-- A tenant key of a VF image, as it is under the migration key (section 9): local slot, USAGE, KEY_GEN and the key. -/
structure ImageKey where
  slot : Nat
  usage : Byte
  gen : Byte
  key : BitVec 256
  deriving DecidableEq, Repr

/-- A VF image as RESTORE_FUNC reads it (Tables 17-5 and 17-6). -/
structure VfImage where
  /-- The 64 B header (Table 17-5), and the verdict on its CRC, which covers the firmware's own section bodies too. -/
  header : List Byte
  crcOk : Bool
  /-- Every half-port that a ring or region names has the role it had at the source. -/
  rolesOk : Bool
  qps : List ImageQp
  /-- The bytes of section 2: consumed SQEs, 68 B each (Table 17-6). -/
  sqeBytes : List Byte
  /-- CQs: number, creation fields, HEAD and next position. -/
  cqs : List (Nat × CqFields × RingIndex × RingIndex)
  /-- SRQs: number, creation fields, position of the oldest entry not used, and the consumed entries from there on. -/
  srqs : List (Nat × SrqFields × RingIndex × List Sqe)
  /-- The EQ: creation fields, HEAD and next position. -/
  eq : Option (EqFields × RingIndex × RingIndex)
  regions : List ImageRegion
  keys : List ImageKey
  /-- Table 09-10 values, section 10: subindexes 01 to 10 in order. -/
  limits : List (BitVec 32)
  deriving DecidableEq, Repr

/-- Fields of CAST_CMD (Table 11-6). -/
structure CastFields where
  slot : Byte
  dest : BitVec 32
  step : BitVec 64
  reservedZero : Bool
  deriving DecidableEq, Repr

/-- Fields of KEY_CMD (Table 18-3), and what the unwrap under the session's KEK gives: the key, or none
when its integrity check fails. -/
structure KeyFields where
  slot : BitVec 16
  usage : Byte
  keyGen : Byte
  reservedZero : Bool
  /-- WRAPPED, byte 8 first. -/
  wrapped : List Byte
  deriving DecidableEq, Repr

/-! ## Links, enumeration and the host -/

/-- What a link negotiated (Table 04-2). -/
inductive LinkProto where
  | pcie | cxl11 | cxl20
  deriving DecidableEq, Repr

/-- One BAR an accelerator asks for: its number, its sizes (several for a Resizable BAR), 64-bit or not (R95). -/
structure BarReq where
  index : Fin 6
  sizes : List Nat
  is64 : Bool
  deriving DecidableEq, Repr

/-- A function found at device 0 below a half-port (R94). -/
structure EnumFunc where
  number : Fin 8
  vendorId : BitVec 16
  deviceId : BitVec 16
  bars : List BarReq
  deriving DecidableEq, Repr

/-- What enumeration below a half-port finds (R94, R95, R97). -/
structure EnumResult where
  /-- Request Retry Status answered. -/
  retryStatus : Bool
  switchUpstream : Bool
  /-- Functions 0 to 7 that answered. -/
  funcs : List EnumFunc
  /-- Size of the device's HDM range on an ACC_CXLMEM link. -/
  hdmSize : Nat
  /-- Largest payload the device takes, in bytes (Table 04-4). -/
  maxPayload : Nat
  /-- The partner's Device Control permits Relaxed Ordering (R98). -/
  relaxed : Bool
  /-- The partner's Device Capabilities 2 advertises completion of 64-bit FetchAdd and CAS AtomicOps (R149). -/
  atomics : Bool
  deriving DecidableEq, Repr

/-- Where a request of the host to the module's functions goes (Table 04-3, R87, R90): the configuration space of a function,
its BARs, or the Memory Device Status register. -/
inductive HostSpace where
  | config (func : Nat)
  | bar0 (func : Nat)
  | bar2 (func : Nat)
  | deviceStatus
  deriving DecidableEq, Repr

/-- A dword request of the host: what it goes to, and whether it writes. -/
structure HostAccess where
  write : Bool
  space : HostSpace
  deriving DecidableEq, Repr

/-- The SUBINDEX of a DESCRIBE or NEXT, and the LENGTH its message carries, zero on a good one (R57). -/
structure NameTail where
  sub : Byte
  length : BitVec 16
  deriving DecidableEq, Repr

/-- Why the host port was lost (Table 04-6). -/
inductive HostLossCause where
  | perst | linkDown | d3hot
  deriving DecidableEq, Repr

/-- The three kinds of read that R105 and Table 05-13 fail: of the payload of the entry with an index, of the ring, of a fragment
table. -/
inductive ReadKind where
  | payload (index : RingIndex)
  | ring | fragment
  deriving DecidableEq, Repr

/-- How a flushing read fails (R103). -/
inductive FlushFailCause where
  | timeout | refused | poisoned | linkDown
  deriving DecidableEq, Repr

/-! ## Boot, self-test, power -/

/-- A check of Table 19-9. -/
inductive AnalogueCheck where
  | serdesNear (lane : Fin 24)
  | serdesFar (lane : Fin 24)
  | cxlLoopback (lane : Fin 64)
  | hostMargin
  | lpddr (channel : Fin 96)
  deriving DecidableEq, Repr

/-- A scan slice header read from the seed bank (Table 19-7a). -/
structure SliceHdr where
  region : Byte
  power : Byte
  signature : BitVec 128
  quickSignature : BitVec 128
  crcOk : Bool
  deriving DecidableEq, Repr

/-- What the boot ROM finds on the firmware image (R398). -/
structure ImageVerdict where
  headerOk : Bool
  signerOk : Bool
  signatureOk : Bool
  svn : Nat
  version : BitVec 32
  deriving DecidableEq, Repr

/-- Why power-good falls (R454). -/
inductive PowerFallCause where
  | undervoltage | overvoltage | thermalTrip
  deriving DecidableEq, Repr

/-- A port-down event (Table 10-6, R229). -/
inductive PortDownCause where
  | lossOfSignal | noValidFrame | noUsableLane | replays | pcsLoss
  deriving DecidableEq, Repr

/-- Who consumes poisoned data (Table 11-3). -/
inductive UeConsumer where
  | qpContext (qpn : Nat)
  | region (number : Nat)
  | collective (comm : Nat) (k : Nat)
  | castCopy
  | castRestoreOrMirror (slot : Fin 4)
  | host
  | atomicCache (qpn : Nat) (psn : Psn)
  | castDirectory (bothCopies : Bool)
  | scrub
  deriving DecidableEq, Repr

/-- What a scrub read finds on a channel (R248, R254). -/
inductive ScrubResult where
  | clean
  | corrected (pin : Fin 16)
  | uncorrectable
  deriving DecidableEq, Repr

/-- One lane of an arbitration (R339): the unit's result, the residue the unit's checker predicted, and
the replay's result with its residue. -/
structure ArbLane where
  lane : Fin 128
  result : Nat
  predicted : Fin 31
  replay : Nat
  deriving DecidableEq, Repr

/-- What the fields of a patina record and of a field-learnt pattern say of an issue (Tables 15-6, 15-7). -/
structure IssueInfo where
  op : BitVec 16
  format : Byte
  round : Byte
  kernelWord : Byte
  imm : Byte
  a : BitVec 64
  b : BitVec 64
  c : BitVec 64
  deriving DecidableEq, Repr

/-- A field-learnt pattern entry as imported (Table 15-7), with its CRC verdict and whether two distinct
non-retired units agree with each other and with EXPECTED (R351). -/
structure PatternIn where
  imm : Byte
  op : BitVec 16
  format : Byte
  round : Byte
  a : BitVec 64
  b : BitVec 64
  c : BitVec 64
  expected : BitVec 64
  sourceRecord : BitVec 32
  sourceSerial : List Byte
  crcOk : Bool
  agree : Bool
  deriving DecidableEq, Repr

/-! ## SPDM -/

/-- An IDE_KM message of a VENDOR_DEFINED_REQUEST (R420). -/
inductive IdeKm where
  | query
  | keyProg (slot : Fin 16) (key : BitVec 256)
  | kSetGo (slot : Fin 16)
  | kSetStop (slot : Fin 16)
  | getKey (slot : Fin 16)
  deriving DecidableEq, Repr

/-! ## The commands -/

/-- One command per row of the table of operations and events. -/
inductive Instr where
  -- boot, reset and self-test (chapters 19 and 20)
  | powerGood (mrstHigh : Bool) (pairId : BitVec 2)
  | powerGoodFall (cause : PowerFallCause)
  | thermalTrip (sensor : Fin 20) (reading : Int)
  | mrstNAssert (ns : Nat)
  | mrstNDeassert
  | moduleReset (h : ReqHdr) (value : Byte)
  | resetRelease (pairId : BitVec 2)
  | flashDirectoryRead (readable : Bool)
  | bootTimeLimit
  | referencesPhaseDone (monitors : List (List Nat)) (fused : List Nat) (temps : List Int)
  | analogueCheckDone (check : AnalogueCheck) (passed : Bool)
  | mbistDone (repairs : List Nat) (bufferOk : Bool)
  | sliceStart (slice : Fin 1024) (hdr : SliceHdr)
  | sliceDone (slice : Fin 1024) (response : BitVec 128) (patternsOk : Bool)
  | sliceTimeout (slice : Fin 1024)
  | fwLoadDone (v : ImageVerdict)
  -- pace and watchdogs (chapter 2)
  | paceWindow (laps : List Nat)
  | controlStep
  | watchdogSample (samples : List (Bool × Nat))
  | stallDetected (region : Fin 118)
  | reasonRead (h : ReqHdr)
  | mcWatchdogExpiry (digestOk : Bool)
  | mcRestartDone
  -- the object dictionary (chapter 3)
  | read (h : ReqHdr) (index : BitVec 16) (sub : Byte) (offset : BitVec 32) (length : BitVec 16)
  | write (h : ReqHdr) (index : BitVec 16) (sub : Byte) (offset : BitVec 32) (data : List Byte)
  | describe (h : ReqHdr) (index : BitVec 16) (name : NameTail)
  | next (h : ReqHdr) (index : BitVec 16) (name : NameTail)
  | store (h : ReqHdr) (index : BitVec 16) (sub : Byte) (offset : BitVec 32) (length : BitVec 16)
  | storeDone (ok : Bool)
  | defaults (h : ReqHdr) (index : BitVec 16) (sub : Byte) (offset : BitVec 32) (length : BitVec 16)
  | operateWrite1 (h : ReqHdr)
  | operateWrite0 (h : ReqHdr)
  | drainEnd
  | drainTimeout
  | holdToConfig (h : ReqHdr)
  | operateWriteSafe (h : ReqHdr) (value : Byte)
  | enableWrite1 (h : ReqHdr) (subsystem : Fin 14)
  | enableWrite0 (h : ReqHdr) (subsystem : Fin 14)
  | softReset (h : ReqHdr) (subsystem : Fin 14)
  -- ports (chapter 4)
  | linkUp (hp : HalfPort) (gts : Nat) (width : Nat) (proto : LinkProto) (protocols : BitVec 4)
  | linkRetry (hp : HalfPort)
  | accEnumStart (hp : HalfPort) (found : EnumResult)
  | enumRetryTimeout (hp : HalfPort)
  | accLinkDown (hp : HalfPort)
  | payloadReadFail (ring : RingId) (kind : ReadKind)
  | accPerstPulseEnd
  | hostLoss (cause : HostLossCause)
  | holdEntryDone
  | hostPerstDeassert
  | hostConfigRequest (access : HostAccess) (offset : BitVec 20) (data : BitVec 32)
  | vfEnable (enable : Bool) (numVfs : Nat)
  | hdmDecoderCommit (base : BitVec 64)
  | hdmRead (addr : BitVec 64) (uncorrectable : Bool)
  | hdmWrite (addr : BitVec 64) (bytes : List (Option Byte))
  | hostSnoop (line : BitVec 64)
  | accUpstreamRequest (hp : HalfPort) (isWrite : Bool) (addr : BitVec 64) (bytes : List Byte) (enables : Bool)
  | ideFail
  | flushReadDone (hp : HalfPort)
  | flushReadFail (hp : HalfPort) (cause : FlushFailCause)
  -- work queues (chapter 5)
  | doorbell (w : ApertureWrite)
  | cqDoorbell (w : ApertureWrite)
  | pollRead (ring : RingId) (own : Bool)
  | ringEntryEmpty (ring : RingId)
  | rereadIssue (ring : RingId) (j : Nat)
  | rereadReturn (ring : RingId) (j : Nat) (own : Bool)
  | nop (qpn : Nat) (e : SqeBits)
  | send (qpn : Nat) (e : SqeBits)
  | recv (ring : RingId) (e : SqeBits)
  | writeOperation (qpn : Nat) (e : SqeBits)
  | writeImm (qpn : Nat) (e : SqeBits)
  | readOperation (qpn : Nat) (e : SqeBits)
  | fetchAdd64 (qpn : Nat) (e : SqeBits)
  | cmpSwap64 (qpn : Nat) (e : SqeBits)
  | collective (qpn : Nat) (e : SqeBits) (reads : CollReads)
  | abort (qpn : Nat) (e : SqeBits)
  | fragmentReadDone (ring : RingId) (index : RingIndex) (frags : List FragBits)
  -- traffic (chapter 9)
  | egressSchedule (port : NetPort) (payload : List Byte)
  | demandReportTimer (qpn : Nat)
  | eqHeadWrite (func : Nat) (head : RingIndex) (arm : Bool)
  -- control commands (chapters 6, 12 to 14, 17)
  | createEq (c : CtrlHdr) (f : EqFields)
  | createCq (c : CtrlHdr) (f : CqFields)
  | createSrq (c : CtrlHdr) (f : SrqFields)
  | createQp (c : CtrlHdr) (f : QpFields)
  | modifyQp (c : CtrlHdr) (f : ModifyFields)
  | regRegion (c : CtrlHdr) (f : RegionFields)
  | createComm (c : CtrlHdr) (f : CommFields)
  | queryQp (c : CtrlHdr)
  | loadSchedule (c : CtrlHdr) (f : ImageFields)
  | arithBind (c : CtrlHdr) (f : BindFields)
  | loadKernel (c : CtrlHdr) (f : ImageFields)
  | defineShard (c : CtrlHdr) (f : ShardFields)
  | shardXfer (c : CtrlHdr) (f : XferFields)
  | shardXferDone (func : Nat) (shard : Nat) (outcome : Fin 3) (moved : Nat) (bytes : List Byte)
  | freezeFunc (c : CtrlHdr)
  | funcFrozen (func : Nat)
  | saveFunc (c : CtrlHdr) (f : ImageXfer) (imageLength : Nat)
  | saveDone (func : Nat) (ok : Bool)
  | restoreFunc (c : CtrlHdr) (f : ImageXfer) (alias_ : BitVec 32) (img : Option VfImage)
  | restoreDone (func : Nat)
  | destroyEq (c : CtrlHdr)
  | destroyCq (c : CtrlHdr)
  | destroySrq (c : CtrlHdr)
  | destroyQp (c : CtrlHdr)
  | qpFree (qpn : Nat)
  | resetCq (c : CtrlHdr)
  | deregRegion (c : CtrlHdr)
  | destroyComm (c : CtrlHdr)
  | commFree (func : Nat) (comm : Nat)
  | unloadSchedule (c : CtrlHdr)
  | arithUnbind (c : CtrlHdr)
  | unloadKernel (c : CtrlHdr)
  | removeShard (c : CtrlHdr)
  | forwardFunc (c : CtrlHdr) (target : BitVec 32)
  | thawFunc (c : CtrlHdr)
  -- arrivals (chapters 6, 7, 10, 12)
  | linkFrameRx (link : Link) (f : RxFrame)
  | ethFrameRx (port : NetPort) (f : EthFrame)
  | pktSend (a : Arrival)
  | pktWrite (a : Arrival)
  | pktWriteImm (a : Arrival)
  | pktReadReq (a : Arrival)
  | pktFetchAddReq (a : Arrival)
  | pktCmpSwapReq (a : Arrival)
  | pktReadResp (a : Arrival)
  | pktAtomicResp (a : Arrival)
  | pktAck (a : Arrival)
  | pktNak (a : Arrival)
  | pktGrant (a : Arrival)
  | pktCollData (a : Arrival) (rau : Option RauFault)
  | pktCollPreamble (a : Arrival)
  | atomicopDone (qpn : Nat) (psn : Psn) (original : Option (BitVec 64))
  | cnpRx (qpn : Nat)
  | roceRateIncrease (qpn : Nat)
  | ackDelayExpiry (qpn : Nat)
  | retransmitTimeout (qpn : Nat)
  | sackLoss (qpn : Nat) (psn : Psn)
  | rnrDelayExpiry (qpn : Nat)
  | parkPauseExpiry (qpn : Nat)
  -- context store (chapter 8)
  | contextFetchDone (qpn : Nat) (image : List Byte)
  | contextFetchFail (qpn : Nat)
  | fetchEntryFree (port : NetPort)
  | hotSlotAvailable
  | evictionSweep
  | suppressionLapse (port : NetPort) (srcModule : ModAddr) (qpn : Qpn)
  -- traffic timers (chapter 9)
  | bucketRefill
  | grantTick
  | creditExpiry (qpn : Nat)
  | tmSample
  | histClear (h : ReqHdr) (value : Byte)
  -- fabric (chapter 10)
  | pfcFrameRx (port : NetPort) (priority : Vc) (quanta : Nat)
  | pfcPauseExpiry (port : NetPort) (vc : Vc)
  | pauseFrameRx (port : NetPort)
  | controlFrameTimer (link : Link)
  | credit (link : Link) (frame : List Byte)
  | replayReq (link : Link) (frame : List Byte)
  | retrain (link : Link) (frame : List Byte) (lanes : BitVec 4)
  | splitNotice (link : Link) (frame : List Byte)
  | pairNotice (link : Link) (frame : List Byte)
  | replayTimer (link : Link)
  | laneFault (lane : Fin 24) (lanes : BitVec 4)
  | laneSerWindow (lane : Fin 24) (errors : Nat) (lanes : BitVec 4)
  | laneRetryTimer (link : Link) (lanes : BitVec 4)
  | portDown (link : Link) (cause : PortDownCause)
  | portRetrainTimer (link : Link)
  | portUp (link : Link) (lanes : BitVec 4)
  | stuckTimeout (port : NetPort) (vc : Vc)
  | routingModeWrite (h : ReqHdr) (value : Byte)
  -- module memory (chapter 11)
  | partitionWrite (h : ReqHdr) (sub : Byte) (value : BitVec 16)
  | initDone
  | memUe (addr : Nat) (consumer : UeConsumer)
  | scrubRead (channel : Fin 96) (result : ScrubResult)
  | channelIdle (channel : Fin 96)
  | memHot (package : Fin 24) (mr4 : Byte) (above85 : Bool)
  | take (h : ReqHdr) (f : CastFields)
  | restore (h : ReqHdr) (f : CastFields)
  | discard (h : ReqHdr) (f : CastFields)
  | castCopyStart
  | castCopyDone (crc : BitVec 32)
  | restoreCopyDone (crc : BitVec 32)
  | castMirrorDone
  -- collectives (chapters 12 to 14)
  | collLeaveQueued (comm : Nat) (k : Nat) (inputs : List (List Byte))
  | collSlow (comm : Nat) (k : Nat)
  | collTimeout (comm : Nat) (k : Nat)
  | applyBegin (comm : Nat) (k : Nat)
  | applyGroup (comm : Nat) (k : Nat) (group : Nat) (rau : Option RauFault)
  | applyPhaseEnd (comm : Nat) (k : Nat)
  -- integrity (chapter 15)
  | arbitrationVerdict (unit : Fin 68) (lanes : List ArbLane) (replayPassed : Bool) (info : IssueInfo)
  | patinaWritten
  | rotateTurn
  | rotationScanDone (unit : Fin 68) (slicesOk : Bool) (failedPattern : Option Nat)
  | patternImport (h : ReqHdr) (entries : List PatternIn)
  | recordSelect (h : ReqHdr) (id : BitVec 32)
  -- twins (chapter 16)
  | heartbeatTimer
  | heartbeat (sublink : Fin 2) (hb : Heartbeat)
  | partnerLossTimeout
  | records (sublink : Fin 2) (rs : List MirrorRecord)
  | recordAck (rseq : BitVec 32)
  | bulk (b : BulkData)
  | graftForwardRx (a : Arrival)
  | yieldWriteDiscard
  | pairSyncDone
  -- virtual functions (chapter 17)
  | msgToPfWrite (h : ReqHdr) (offset : BitVec 32) (data : List Byte)
  | msgToPfRead (h : ReqHdr) (offset : BitVec 32) (length : BitVec 16)
  | msgFromPfWrite (h : ReqHdr) (offset : BitVec 32) (data : List Byte)
  | functionLevelReset (func : Nat)
  | vfFlrDone (func : Nat)
  -- security (chapter 18)
  | keyLoad (h : ReqHdr) (f : KeyFields)
  | keyClear (h : ReqHdr) (f : KeyFields)
  | svnCommit (h : ReqHdr) (value : Byte)
  | ownerRootWrite (h : ReqHdr) (value : List Byte) (chainsToLyandez : Bool) (flashOk : Bool)
  | getVersion (via : Via)
  | getCapabilities (via : Via)
  | negotiateAlgorithms (via : Via) (offered : Bool)
  | getDigests (via : Via)
  | getCertificate (via : Via) (slot : Byte) (offset : BitVec 16) (length : BitVec 16)
  | challenge (via : Via) (nonce : BitVec 256)
  | getMeasurements (via : Via) (index : Byte)
  | keyExchange (via : Via)
  | finish (session : Nat) (rootDigest : Option (List Byte)) (kek : Option (BitVec 256))
  | spdmHeartbeat (session : Nat)
  | keyUpdate (session : Nat)
  | endSession (session : Nat)
  | vendorDefinedRequest (session : Nat) (m : IdeKm)
  | rollLeadExpiry (qpn : Nat)
  | rollGraceExpiry (qpn : Nat)
  -- firmware provisioning (chapter 19)
  | fwCommit (h : ReqHdr) (value : Byte) (v : ImageVerdict)
  | fwCommitDone (ok : Bool)
  -- power and thermal (chapter 20)
  | thermalSample (temps : List Int)
  | thermalCapRelease
  | vinSample (mv : Nat) (ma : Nat) (mw : Nat)
  | i3cEntdaa (addr : BitVec 7)
  | i3cSetdaa (addr : BitVec 7)
  | bypass
  | idcode
  | samplePreload (boundary : List Bool)
  | extest (boundary : List Bool)
  | extestPulse (boundary : List Bool)
  | extestTrain (boundary : List Bool)
  -- late rows of the table
  | placementTlpAcknowledged (qpn : Nat) (psn : Psn)
  | cxlMemCmp (hp : HalfPort)
  | ideStart
  | sessionHeartbeatExpiry (session : Nat)
  deriving DecidableEq, Repr

end Sys2Proof
end

