-- ==== Sys2Proof/Config.lean ====
section
/-! DEFINITION. What one NK24 module fixes at manufacture or in its firmware, and the values the manual
leaves open. Each is opaque: nothing can be proved about its value (notes/assumptions/5 and 6). -/

namespace Sys2Proof.Config

/-- SERIAL (R78): unique to the module, fixed at manufacture; its length and its characters. -/
opaque serialLength : Nat
opaque serialChar : Nat → Nat

/-- 12 to 32 printable ASCII characters (Table 03-14). -/
def serial : List Byte := (List.range (12 + serialLength % 21)).map fun k => BitVec.ofNat 8 (0x20 + serialChar k % 95)

/-- HW_STEPPING (R78). -/
opaque hwStepping : Nat

/-- ROM_VERSION (R78). -/
opaque romVersion : Nat

/-- SIGNER_HASH, fused at manufacture (R398). -/
opaque signerHash : Nat

/-- CERT_CHAIN, the identity chain (R401). -/
opaque certChain : List Byte

/-- ETH_MAC of network port `p` (Table 10-8). -/
opaque ethMac : Nat → Nat

/-- JTAG_IDCODE (R458). -/
opaque jtagIdcode : Nat

/-- Whether the module was provisioned as one of a NK24-A1P pair, and its partner's serial (R3, Table 16-9). -/
opaque pairedSerial : List Byte

/-- A value the manual calls undefined, or does not state, at its `n`-th use; `n` counts the uses. -/
opaque freeValue : Nat → Nat

/-- The choice of a free port by the port hash of R240 (the function itself is not given), over the flow's
module addresses and QPNs. -/
opaque portHash : Nat → Nat → Nat → Nat → Nat

/-- The UDP source port of R238 (the hash itself is not given). -/
opaque udpHash : Nat → Nat → Nat → Nat → Nat

/-- What a configuration register of the host port reads, by its function * 4096 + offset and the dword the host last wrote to it plus
one, 0 for none: the manual gives no layout of the configuration space (R87). -/
opaque configRead : Nat → Nat → Nat

/-- Where the capabilities stand in the configuration space whose fields the model reads: PCI Express and SR-IOV of the PF, and
MSI-X of a function (R86, R87; notes/assumptions/65). -/
opaque pcieCap : Nat
opaque sriovCap : Nat
opaque msixCap : Nat → Nat

/-- Bits of the objects of the factory range 0xF000-0xFFFF, which the manual does not list (Table 03-4). -/
opaque factory : Nat → Nat

/-- The first object of the factory range at or after one, as index * 256 + subindex; 0 for none. -/
opaque factoryNext : Nat → Nat

/-- Bytes that a command reads from host or accelerator memory when it does not carry them itself: by use of a free
value and by address. -/
opaque outsideByte : Nat → Nat → Byte

/-- SHA3-512 digest of a measurement, by its index and its content; how the bytes measured are laid out is not stated (Table 18-2). -/
opaque measureDigest : Nat → List Byte → BitVec 512

end Sys2Proof.Config
end

