-- ==== Sys2Proof/Machine/State.lean ====
section
/-! DEFINITION. The state of one NK24 module as plain data, the reasons a step can stop, and the state right
after power-on reset. -/

namespace Sys2Proof.Machine

/-- A table by number in one canonical form: keys strictly rising. -/
abbrev Tab (α : Type) := List (Nat × α)

/-- The module states of Table 03-10, and the two in which no state is served: without power, and in reset. -/
inductive MState where
  | off | reset | bootRom | selfTest | fwLoad | config | operational | hold | safe
  deriving DecidableEq, Repr

/-! ## What the module presents at its boundaries -/

/-- A response of the object dictionary (Table 03-6). -/
structure Response where
  via : Via
  command : Byte
  status : Byte
  tag : BitVec 16
  /-- FUNC, INDEX, SUB and OFFSET of the request, repeated (notes/assumptions/63). -/
  func : BitVec 16
  index : BitVec 16
  sub : Byte
  offset : BitVec 32
  data : List Byte
  deriving DecidableEq, Repr

/-- A packet frame held in a replay buffer or sent (R226). -/
structure LinkFrame where
  lseq : Nat
  lack : Nat
  vc : Nat
  cls : Nat
  mode : Bool
  down : Bool
  stomp : Bool
  pkt : Packet
  deriving DecidableEq, Repr

/-- The Ethernet, IP and UDP fields the module chooses (R238). -/
structure EthHdr where
  srcMac : List Byte
  dstMac : List Byte
  /-- VLAN identifier and priority, when tagged. -/
  tag : Option (Nat × Nat)
  ipVersion : Nat
  dscp : Nat
  srcIp : Nat
  dstIp : Nat
  srcPort : Nat
  dstPort : Nat
  deriving DecidableEq, Repr

/-- An SPDM response by what it says; digests and signatures are the cipher hardware's (R402, Tables 18-1, 18-2). -/
inductive SpdmResp where
  | version
  | capabilities
  | algorithms
  | digests (slots : Nat)
  | certificate (portion : List Byte) (remainder : Nat)
  | challengeAuth (nonce : BitVec 256)
  /-- The number of measurement blocks, and those asked for: index and digest. -/
  | measurements (count : Nat) (blocks : List (Nat × BitVec 512))
  | keyExchange (session : Nat)
  | finish (session : Nat)
  | heartbeatAck
  | keyUpdateAck
  | endSessionAck
  | ideQuery (slots : List Nat)
  | ideAck (slot : Nat)
  | error
  deriving DecidableEq, Repr

/-- Everything the module presents at a boundary, in order. -/
inductive Output where
  | response (r : Response)
  /-- EVENT to an MCTP endpoint over I3C (R63). -/
  | eventI3c (eid : Nat) (reason : Nat) (timer : Nat) (index sub : Nat) (data : List Byte)
  /-- A posted write of part of a CQE or event record, without Relaxed Ordering (R98, R113, R143). -/
  | posted (hp : Nat) (addr : Nat) (bytes : List Byte)
  /-- An MSI-X message: the address and data of the vector's table entry. -/
  | msix (func : Nat) (vector : Nat) (addr data : Nat)
  /-- A read of a ring entry or fragment table leaving a half-port. -/
  | ringRead (hp : Nat) (addr : Nat) (len : Nat)
  /-- RdShared of a host line into the device cache, and CleanEvictNoData of one (R88). -/
  | rdShared (line : Nat)
  | cleanEvict (line : Nat)
  /-- The snoop response I (R88). -/
  | snoopInvalid (line : Nat)
  /-- Byte 0 of a ring entry written 0x00 (R111). -/
  | ownClear (hp : Nat) (addr : Nat)
  /-- A placement write, with its Relaxed Ordering attribute (R98). -/
  | place (hp : Nat) (addr : Nat) (bytes : List Byte) (relaxed : Bool)
  /-- A placement write to the HDM of an ACC_CXLMEM half-port: MemWr with SnpType and MetaField both No-Op (R97). -/
  | memWr (hp : Nat) (addr : Nat) (bytes : List Byte)
  /-- Enumeration below a half-port (R94, R95, R97): a BAR's base and the size programmed; a function's Memory Space Enable
  and Bus Master Enable set, with its largest payload and with MSI and MSI-X left disabled; the device's first HDM decoder
  programmed for 1-way interleave and committed. -/
  | accBar (hp func index base size : Nat)
  | accEnable (hp func payload : Nat)
  | hdmDecoder (hp base size : Nat)
  /-- A zero-length flushing read (R101). -/
  | flushRead (hp : Nat) (addr : Nat)
  /-- A PCIe AtomicOp: compare-and-swap or fetch-and-add (R149). -/
  | atomicOp (hp : Nat) (addr : Nat) (swap : Bool) (a b : BitVec 64)
  /-- A frame on a native link, packet or control, byte by byte (Tables 10-3 to 10-5, R8). -/
  | frame (link : Nat) (bytes : List Byte)
  /-- A PFC frame of a port: the priority, and whether it is paused or released (R241). -/
  | pfc (port vc : Nat) (pause : Bool)
  /-- A packet addressed to this module itself; it arrives as the command of its opcode. -/
  | loopback (pkt : Packet)
  /-- A packet in an Ethernet frame (R238, Table 06-18). -/
  | ethernet (port : Nat) (h : EthHdr) (pkt : Packet)
  /-- An SPDM response (R402). -/
  | spdm (via : Via) (r : SpdmResp)
  /-- A configuration or CXL.mem read of the host answered: data, or poisoned all ones (R87, R90). -/
  | hostData (bytes : List Byte) (poisoned : Bool)
  /-- An upstream request answered Unsupported Request (R96). -/
  | unsupported (hp : Nat)
  /-- A VF image written to host memory: function, address, header, and its whole length; the section bodies follow the firmware
  (R393, Table 17-6). -/
  | vfImage (func addr : Nat) (header : List Byte) (length : Nat)
  /-- A reply counted in a VF's status page (R386). -/
  | statusPage (func offset value : Nat)
  /-- TDO data of a JTAG scan (R458). -/
  | tdo (bits : List Bool)
  /-- I3C target address in force after an assignment (R456). -/
  | i3cAddress (addr : Nat)
  /-- The I3C Hot-Join request after a module reset (R456). -/
  | hotJoin
  /-- A read or write-back of a host-backed context (R186). -/
  | contextRead (addr : Nat)
  | contextWrite (addr : Nat) (image : List Byte)
  deriving DecidableEq, Repr

/-! ## Half-ports -/

/-- Enumeration below an accelerator half-port (R94). -/
inductive EnumSt where
  | idle | waiting | retrying | done | failed
  deriving DecidableEq, Repr

structure HalfPortSt where
  /-- Role, width and rate cap in force (R81); 0 is OFF. -/
  role : Nat
  x16 : Bool
  cap : Nat
  up : Bool
  /-- LINK_STATUS fields SPEED, WIDTH, PROTOCOL and DEGRADED (Table 04-8). -/
  speed : Nat
  width : Nat
  proto : Nat
  degraded : Bool
  /-- PERST# asserted at the contact. -/
  perst : Bool
  enum : EnumSt
  /-- Posted writes presented at the bridge so far, and the last placement address. -/
  presented : Nat
  lastAddr : Nat
  /-- MemWr answered with Cmp on an ACC_CXLMEM half-port. -/
  cmps : Nat
  /-- Writes presented before the flushing read outstanding, if one is (R101). -/
  flushing : Option Nat
  /-- Writes proved landed by the last completed flushing read. -/
  flushed : Nat
  /-- Bytes placed since the last grant tick windows began, newest microsecond first (R216). -/
  placedBytes : List Nat
  /-- The drain measurement d[h] of R216. -/
  drain : Nat
  /-- Flushing reads issued so far, each known by its place. -/
  flushes : Nat
  /-- The partner's Device Control permits Relaxed Ordering (R98). -/
  relaxed : Bool
  /-- 64-bit AtomicOps are served on this path: the partner's completer bits, or on the host half-port AtomicOp Requester
  Enable of the PF (R149). -/
  atomics : Bool
  /-- Placement writes presented so far. -/
  placements : Nat
  deriving DecidableEq, Repr

/-! ## Rings, work queues and queue pairs -/

/-- The re-read procedure of R123 on the entry at H. -/
structure Reread where
  /-- When the first read returned. -/
  since : Nat
  issued : Nat
  returned : Nat
  /-- Fallback polling after eight re-reads. -/
  fallback : Bool
  deriving DecidableEq, Repr

/-- A send, receive or SRQ ring (Table 05-1, R120). `poll` is the interval in units of 0.25 µs. -/
structure Ring where
  base : Nat
  log2 : Nat
  path : Nat
  poll : Nat
  cqn : Nat
  armed : Bool
  h : RingIndex
  k : RingIndex
  /-- Reading on after a poll found an entry (R122). -/
  pollRun : Bool
  reread : Option Reread
  /-- DOORBELL_AHEAD already raised since the last consumed entry (R124). -/
  aheadRaised : Bool
  /-- Index of the first entry consumed whose OWN is not cleared (R111, R365). -/
  own : RingIndex
  /-- When the next polling read is due (R121, R123). -/
  due : Nat
  deriving DecidableEq, Repr

/-- A piece of a local buffer: key, address, length. -/
structure Seg where
  key : Key
  addr : Nat
  len : Nat
  deriving DecidableEq, Repr

/-- Where a consumed send-ring entry stands. -/
inductive WqeSt where
  /-- Waiting for its fragment table (R127). -/
  | frags
  /-- Consumed, before its commit point. -/
  | queued
  /-- Past its commit point. -/
  | started
  /-- Ended with a completion status, not yet reported. -/
  | ended (status : Nat)
  deriving DecidableEq, Repr

/-- A consumed send-ring entry. -/
structure Wqe where
  index : RingIndex
  sqe : Sqe
  st : WqeSt
  segs : List Seg
  length : Nat
  /-- Bytes of the message given PSNs so far. -/
  sent : Nat
  msgId : BitVec 16
  sendCount : BitVec 32
  firstPsn : Psn
  lastPsn : Psn
  /-- Every packet has been given its PSN. -/
  allSent : Bool
  /-- Coverage of a READ in 4 KiB units of PKT_OFFSET, as a bit map (R173). -/
  coverage : Nat
  /-- Data writes it placed: half-port and write number. -/
  placed : List (Nat × Nat)
  /-- Credit drawn for the whole of a short message (R213). -/
  credited : Bool
  /-- The collective it is, by communicator and k. -/
  coll : Option (Nat × Nat)
  /-- Its mirror record is acknowledged, or none is needed; and whether the record has been sent. -/
  mirrored : Bool
  mirrorSent : Bool
  /-- NEED counts it (R215). -/
  counted : Bool
  /-- A segment or preamble of the collective sequencer on a connection QP: its bytes, and the largest payload. -/
  internal : Bool
  body : List Byte
  mtu : Nat
  deriving DecidableEq, Repr

/-- A posted receive entry. -/
structure RecvE where
  index : RingIndex
  sqe : Sqe
  segs : List Seg
  length : Nat
  ready : Bool
  aborted : Bool
  matched : Bool
  /-- Status of a failed check of an SRQ entry, which its message completes with. -/
  fault : Option Nat
  deriving DecidableEq, Repr

/-- A packet of this QP with a PSN in [UNA, NXT). -/
structure Flight where
  psn : Psn
  pkt : Packet
  wqe : RingIndex
  lastSend : Nat
  ackReq : Bool
  retx : Bool
  acked : Bool
  /-- The packet is not resent before this instant: rto_cur after its last resending (R171). -/
  notBefore : Nat
  /-- When the last new response bytes of a READ or atomic came (R170). -/
  progress : Nat
  deriving DecidableEq, Repr

/-- Requester state (R163, R170, R171, R213-R215). -/
structure Requester where
  una : Psn
  nxt : Psn
  flight : List Flight
  /-- PSNs waiting to be resent, oldest first. -/
  resend : List Psn
  msgId : BitVec 16
  sendCount : BitVec 32
  newPackets : Nat
  haveSample : Bool
  srtt : Nat
  rttvar : Nat
  rto : Nat
  rtoCur : Nat
  retries : Nat
  rnrRetries : Nat
  /-- Waiting RNR_DELAY, to resend from this PSN. -/
  rnrFrom : Option Psn
  rnrUntil : Nat
  /-- Waiting RETRY_HINT, to resend from this PSN. -/
  parkFrom : Option Psn
  parkUntil : Nat
  parkCount : Nat
  balance : Int
  /-- Credit entries: bytes left and expiry, oldest first (R214). -/
  credits : List (Nat × Nat)
  need : Nat
  reported : Nat
  lastReport : Option Nat
  /-- A demand report waits for its µs (R215). -/
  reportDue : Bool
  waitSince : Option Nat
  /-- The SEND that rnrRetries counts for (R153). -/
  rnrOf : Option RingIndex
  deriving DecidableEq, Repr

/-- State of a PSN at the responder; an unlisted one is ABSENT (Table 07-1). -/
inductive PsnSt where
  | held | done | reported
  deriving DecidableEq, Repr

structure PsnRec where
  st : PsnSt
  opcode : Byte
  msgId : BitVec 16
  deriving DecidableEq, Repr

/-- A message under way at the responder. -/
structure Msg where
  msgId : BitVec 16
  opcode : Byte
  lastPsn : Option Psn
  length : Nat
  imm : BitVec 32
  immValid : Bool
  solicited : Bool
  /-- The receive entry it took. -/
  recv : Option RecvE
  /-- Half-port writes it placed. -/
  placed : List (Nat × Nat)
  /-- Its refused packets, each with its syndrome, in order (R177, R179). -/
  failed : List (Psn × Nat)
  violation : Bool
  bytes : Nat
  deriving DecidableEq, Repr

/-- A READ or atomic request that passed its checks and waits for lower PSNs, or an AtomicOp outstanding (R154). Its check
stands: the region, and the half-port and bus address of its first byte, are those it passed against (R150). -/
structure HeldReq where
  arrival : Arrival
  issued : Bool
  region : Nat
  path : Nat
  addr : Nat
  deriving DecidableEq, Repr

structure Responder where
  e : Psn
  re : Psn
  window : Tab PsnRec
  highest : Option Psn
  msgs : List Msg
  /-- PSN of the first packet refused: no message from there on completes (R177). -/
  failed : Option Psn
  heldReqs : List HeldReq
  cacheBlock : Bool
  cache : List (Psn × BitVec 64)
  lastReAck : Option Nat
  doneSince : Option Nat
  needMax : Nat
  granted : Nat
  arrived : Nat
  /-- Grants formed: instant and bytes. -/
  recent : List (Nat × Nat)
  /-- Grant waiting for an ACK to carry it, in 4 KiB units. -/
  grantOut : Nat
  lastHp : Option Nat
  /-- Receive entries retired since RESET, aborted ones not counted. -/
  recvBase : BitVec 32
  recvs : List RecvE
  deriving DecidableEq, Repr

inductive QpType where
  | rc | ud | coll | roceRc
  deriving DecidableEq, Repr

inductive QpSt where
  | reset | init | rtr | rts | error | frozen
  deriving DecidableEq, Repr

/-- Cipher state of a QP (R410, R414, R416-R418). -/
structure Cipher where
  /-- The previous slot, and whether the QP sends under the current one yet. -/
  prev : Option Nat
  useNew : Bool
  /-- Instants at which ROLL_LEAD and ROLL_GRACE end. -/
  leadAt : Option Nat
  graceAt : Option Nat
  /-- Extended PSNs: next to send, UNA and E, 40 bits each. -/
  extNxt : Nat
  extUna : Nat
  extE : Nat
  /-- Last execution of the 16 most recent READ PSNs, newest first. -/
  reads : List (Psn × Nat)
  /-- KEY_EXHAUSTING was raised, and the last security log entry of a tag failure. -/
  warned : Bool
  tagLogAt : Option Nat
  deriving DecidableEq, Repr

/-- Context tiers (chapter 8). -/
inductive Tier where
  | hot | warm | hostBacked
  deriving DecidableEq, Repr

/-- Connection attributes of a QP (Table 06-5). -/
structure QpAttr where
  remoteModule : ModAddr
  remoteQpn : Qpn
  rnrRetry : Nat
  rnrDelay : Nat
  bulk : Bool
  cipherOn : Bool
  keySlot : Nat
  qKey : BitVec 32
  pmtu : Nat
  deriving DecidableEq, Repr

structure Qp where
  func : Nat
  type : QpType
  st : QpSt
  /-- The state it was frozen from. -/
  frozenFrom : QpSt
  attr : QpAttr
  sq : Ring
  rq : Option Ring
  srqn : Option Nat
  /-- CQ of the receive side, also with an SRQ. -/
  rcqn : Nat
  comm : Option Nat
  tokens : Bool
  /-- Tokens of the last 4,096 entries consumed, newest first (R131). -/
  history : List (Option (BitVec 32))
  wqes : List Wqe
  /-- Data writes of ended unsignalled entries, and their number, since the last CQE (R128). -/
  uncovered : List (Nat × Nat)
  uncoveredCount : Nat
  req : Requester
  resp : Responder
  tier : Tier
  referenced : Bool
  dirty : Bool
  lost : Bool
  /-- QP_FREE is due (R141). -/
  freeing : Bool
  /-- RoCE rate in units of 2^-32 of port rate, and the last CNP (R158). -/
  roceRate : Nat
  lastCnp : Option Nat
  cipher : Cipher
  /-- Entries that a takeover, restore or thaw has still to find again: ring index and first PSN (R370). -/
  regain : List (RingIndex × Psn)
  /-- Atomic PSNs whose outcome is uncertain (R367). -/
  uncertain : List Psn
  /-- The instant from which a ROCE_RC QP's rate lets its next packet leave (R158). -/
  roceNext : Nat
  deriving DecidableEq, Repr

structure Cq where
  func : Nat
  base : Nat
  log2 : Nat
  path : Nat
  flush : Bool
  vector : Nat
  head : RingIndex
  w : RingIndex
  armEvent : Bool
  error : Bool
  /-- After a takeover, until the first CQ doorbell (R371). -/
  resync : Bool
  /-- CQEs written that HEAD has not passed (R114). -/
  used : Nat
  deriving DecidableEq, Repr

structure Srq where
  func : Nat
  ring : Ring
  entries : List RecvE
  error : Bool
  deriving DecidableEq, Repr

/-- A memory region by global number (R148-R151). -/
structure Region where
  func : Nat
  va : Nat
  length : Nat
  path : Nat
  pageSize : Nat
  access : Nat
  bindQpn : Nat
  pages : List Nat
  gen : Byte
  valid : Bool
  /-- REGION_FREE waits for this flushing read of PATH; 0 while requests that passed a check against the region are still to
  execute and the read is not issued (R151). -/
  freeing : Option Nat
  /-- Its descriptor or a page entry read uncorrectable: every key check fails until it is deregistered (Table 11-3). -/
  poisoned : Bool
  deriving DecidableEq, Repr

/-- A CQE formed and not yet written. -/
structure CqeWait where
  qpn : Nat
  cqn : Nat
  cqe : Cqe
  /-- Half-ports and the flushing read of each that it waits for. -/
  needs : List (Nat × Nat)
  /-- Half-ports and write numbers whose Cmp it waits for. -/
  cmpNeeds : List (Nat × Nat)
  /-- The mirror record it waits for (R363). -/
  record : Option Nat
  deriving DecidableEq, Repr

/-! ## Module memory -/

/-- Five amounts in GiB: CONTEXT, CAST, STATE, STAGE, HDM (R244, R250). -/
structure Layout where
  context : Nat
  cast : Nat
  state : Nat
  stage : Nat
  hdm : Nat
  deriving DecidableEq, Repr

/-- A cast directory entry (Table 11-5). -/
structure CastEntry where
  slotState : Nat
  latest : Bool
  gen : Nat
  step : Nat
  extent : Nat
  crc : Nat
  time : Nat
  deriving DecidableEq, Repr

/-- Where a cast command stands (R258, R260). -/
inductive CastPhase where
  /-- Waiting for running apply phases to end. -/
  | waiting
  | copying
  | mirroring
  deriving DecidableEq, Repr

structure CastRun where
  op : Nat
  slot : Nat
  dest : Nat
  extent : Nat
  phase : CastPhase
  /-- Bytes of the slot given to the graft link (R258 step 5, R376). -/
  sent : Nat
  deriving DecidableEq, Repr

/-- A range [lo, hi) of memory the spec calls undefined (R260): byte `a` is the free byte `off + (a - lo)` of use `stamp`
of the counter. -/
structure Undef where
  lo : Nat
  hi : Nat
  off : Nat
  stamp : Nat
  deriving DecidableEq, Repr

/-- What a memory channel does as it gives a request its access. -/
inductive MemAct where
  /-- Nothing besides the access: its data moves with the command that asked for it (notes/assumptions/79). -/
  | access
  /-- A 64 B read of the HDM window, answered to the host; `poisoned` when it is uncorrectable (R90). -/
  | hdmRead (poisoned : Bool)
  /-- A 64 B write of the HDM window, with its enabled bytes. -/
  | hdmWrite (bytes : List (Option Byte))
  /-- The scrubber's read of a granule (R254). -/
  | scrub (result : ScrubResult)
  deriving DecidableEq, Repr

/-- A request waiting at a memory channel: its class of Table 01-3, and its data address. -/
structure MemReq where
  cls : Nat
  addr : Nat
  act : MemAct
  deriving DecidableEq, Repr

structure Mem where
  /-- Bytes that are not zero, by data address (R244). An unlisted byte reads 0, as initialisation leaves it (R251), unless
  an undefined range holds it. -/
  cells : List Host.Cell
  /-- The undefined ranges, disjoint from each other and from the listed bytes. -/
  loose : List Undef
  /-- The layout and PRESERVE flags in force (R250). -/
  layout : Layout
  preserve : Nat
  /-- GiB units still to initialise, whether initialisation runs, and the units it was started over (R251). -/
  initLeft : Nat
  initActive : Bool
  initTotal : Nat
  /-- The cast directory, and whether it was laid out for a paired module (R255, R256). -/
  dir : List CastEntry
  paired : Bool
  cast : Option CastRun
  /-- Instants of corrections in the last 24 h, newest first, and of the last MEM_CE_RATE, by channel (R254). -/
  ces : Tab (List Nat)
  ceRaised : Tab Nat
  /-- Full scrub passes, by channel. -/
  passes : Tab Nat
  /-- Channels in self-refresh (R262). -/
  asleep : List Nat
  /-- Requests waiting, by channel, in order of arrival (R13). -/
  queues : Tab (List MemReq)
  /-- By channel, for each of classes 1 to 6: accesses of the channel in a row for which the class has waited (R13). -/
  waited : Tab (List Nat)
  /-- By channel: the classes of the accesses it gave when it last served requests, in order. -/
  accesses : Tab (List Nat)
  /-- GiB units being initialised, bit by bit: a host access to one waits (R251). -/
  initMap : Nat
  /-- By channel: the check lines it caches, used last first (R247). -/
  checks : Tab (List Nat)
  deriving DecidableEq, Repr

/-! ## Collectives -/

/-- A resolved level word (Table 13-7). -/
structure LevelWord where
  fmt : Nat
  round : Nat
  ef : Bool
  deriving DecidableEq, Repr

/-- Table 12-7. -/
inductive CollState where
  | queued | counts | preamble | data | apply
  deriving DecidableEq, Repr

/-- A preamble or notice as decoded (Table 12-8). -/
structure PreMsg where
  op : Nat
  dtype : Nat
  schedId : Nat
  count : Nat
  root : Nat
  seq : Nat
  epoch : Nat
  rank : Nat
  step : Nat
  type : Nat
  flags : Nat
  cause : Nat
  crcOk : Bool
  deriving DecidableEq, Repr

/-- A COLL_DATA payload that waits: partner rank, step number, offset in the segment, and where it lies. -/
structure Waiting where
  rank : Nat
  step : Nat
  off : Nat
  bytes : List Byte
  overflow : Bool
  deriving DecidableEq, Repr

/-- An apply phase under way (R324-R326). -/
structure ApplyRun where
  /-- Scalar slots S0-S15 after the SCALAR words (R329). -/
  scalars : List (BitVec 32)
  /-- STEP + 1. -/
  t : Nat
  /-- The groups in the order their G became final (R325), and those done. -/
  order : List Nat
  done : List Nat
  /-- The member's block of Q so far, in record layout. -/
  q : List Byte
  deriving DecidableEq, Repr

/-- A collective in flight on this member. -/
structure Coll where
  k : Nat
  /-- Its place in the order of consumption across the module (R274). -/
  order : Nat
  /-- The local timer at its consumption (R287). -/
  since : Nat
  sqe : CollSqe
  index : RingIndex
  st : CollState
  staged : Bool
  chunks : Nat
  /-- FLAGS of Table 12-8, and the status of the cause that set FLAGS[8] (R276). -/
  flags : Nat
  local_ : Nat
  /-- Moves of the preamble round done (R275), and counts received, by rank (R277). -/
  round : Nat
  counts : Tab Nat
  contribs : List BufRef
  vec : List VecEntry
  scalars : List (BitVec 32)
  outputs : List BufRef
  /-- Inputs as read, in record layout, and the full vector in its current format, in record layout (R299). -/
  inputs : List (List Byte)
  data : List Byte
  fmt : Nat
  /-- Steps of the plan done, whether the current step has begun, and bytes of its segment received. -/
  pos : Nat
  begun : Bool
  got : Nat
  /-- Element ranges in the order the latest combining step made them final (R325). -/
  finals : List (Nat × Nat)
  early : List Waiting
  /-- Payloads and groups whose RAU issue is under arbitration (R339). -/
  disputed : List (Waiting × Nat)
  /-- Levels whose residuals it wrote (R310). -/
  wrote : List Nat
  committed : Bool
  lastMove : Nat
  slow : Nat
  placed : List (Nat × Nat)
  apply : Option ApplyRun
  deriving DecidableEq, Repr

structure Comm where
  func : Nat
  number : Nat
  n : Nat
  rank : Nat
  epoch : Nat
  connBase : Nat
  dest : Nat
  levels : List LevelWord
  ovfBase : Nat
  ovfSize : Nat
  ovfUsed : Nat
  broken : Bool
  /-- The submitting QP, once created. -/
  submit : Option Nat
  nextK : Nat
  colls : List Coll
  /-- Preambles and notices for collectives not yet begun (R278). -/
  early : List PreMsg
  /-- COLL_DATA payloads in the overflow area for collectives not yet consumed, by SEQ (R285). -/
  ahead : List (Nat × Waiting)
  freeing : Bool
  deriving DecidableEq, Repr

structure Sched where
  dest : Nat
  length : Nat
  n : Nat
  rank : Nat
  groups : Nat × Nat × Nat
  ops : Nat
  deriving DecidableEq, Repr

/-- An arithmetic binding (Table 13-9); GEN, BANK, VALID and SEED stand in its record in STATE. -/
structure Binding where
  count : Nat
  record : Nat
  /-- Residual areas of levels 1-3. -/
  areas : List (Option Nat)
  deriving DecidableEq, Repr

structure Kernel where
  dest : Nat
  length : Nat
  round : Nat
  reads : Nat
  writes : Nat
  words : List (BitVec 32)
  deriving DecidableEq, Repr

structure Shard where
  count : Nat
  first : Nat
  length : Nat
  record : Nat
  base : Nat
  pFmt : Nat
  m1Fmt : Nat
  m2Fmt : Nat
  qFmt : Nat
  /-- A transfer under way: DIR, STREAM, PATH, START, ELEMENTS, ADDR. -/
  xfer : Option (Nat × Nat × Nat × Nat × Nat × Nat)
  deriving DecidableEq, Repr

structure Collectives where
  /-- Communicators by global number. -/
  comms : Tab Comm
  /-- By function * 65536 + id. -/
  scheds : Tab Sched
  bindings : Tab Binding
  kernels : Tab Kernel
  shards : Tab Shard
  /-- Staging chunks free (R274). -/
  chunks : Nat
  /-- The next place in the order of consumption, and the logical RAU position served next. -/
  nextOrder : Nat
  rau : Nat
  /-- The 16 MiB schedule and kernel cache, used last first: whether a kernel, function * 65536 + id, and bytes (R12, R269). -/
  images : List (Bool × Nat × Nat)
  deriving DecidableEq, Repr

/-! ## Egress queues -/

/-- A formed packet in a port's egress queue for one VC. -/
structure QPkt where
  pkt : Packet
  transit : Bool
  func : Nat
  qpn : Nat
  since : Nat
  /-- CLASS, MODE and DOWN of the link header (Table 10-4); class 0 is a packet not yet injected. -/
  cls : Nat
  mode : Bool
  down : Bool
  /-- Ended with the complement of its trailer (R227). -/
  stomp : Bool
  /-- The link and VC it came in on, for transit. -/
  came : Option (Nat × Nat)
  /-- As it goes on the wire: enciphered, when it is to be (R411). -/
  wired : Bool
  deriving DecidableEq, Repr

/-- An action held until a mirror record is acknowledged (Table 16-5a). -/
inductive HeldAction where
  /-- The first packet of entry `index` of QP `q`. -/
  | start (q : Nat) (index : RingIndex)
  /-- An ACK, NAK or ATOMIC_RESP. -/
  | post (p : QPkt)
  /-- The AtomicOp of a request. -/
  | atomic (q : Nat) (psn : Psn)
  deriving DecidableEq, Repr

/-- An ABORT whose target entry the module has not consumed (R135): the target ring, index and WR_ID, and the QP,
index and WR_ID of the ABORT itself. -/
structure AbortWait where
  ring : RingId
  index : RingIndex
  wrId : BitVec 64
  qpn : Nat
  own : RingIndex
  ownWrId : BitVec 64
  deriving DecidableEq, Repr

structure WorkQueues where
  /-- Queue pairs by global number. -/
  qps : Tab Qp
  cqs : Tab Cq
  srqs : Tab Srq
  regions : Tab Region
  cqWait : List CqeWait
  /-- Formed packets whose route is still to be decided. -/
  outbox : List QPkt
  /-- Response-cache blocks in use, by share. -/
  cacheUsed : Tab Nat
  /-- QPs that entered ERROR in this step and whose collectives are still to end, with the cause. -/
  erring : List (Nat × Nat)
  /-- ABORTs waiting for their target to be consumed. -/
  aborts : List AbortWait
  /-- Packets dropped for the state of their QP (R146); no object shows the count. -/
  stateDrops : Nat
  deriving DecidableEq, Repr

/-- One VC of one port's egress (R204-R208). -/
structure EgressVc where
  queue : List QPkt
  /-- Packets stopped behind a PFC pause or a shaper keep their deficit (R206). -/
  deficit : Nat
  /-- Bytes by which transit leads local traffic. -/
  transitLead : Int
  lastFunc : Nat
  /-- Last QP served, by function. -/
  lastQp : Tab Nat
  deriving DecidableEq, Repr

/-- One native link or network port (R223-R229). -/
structure LinkSt where
  /-- 0 idle, 1 training, 2 up, 3 down (Table 10-9). -/
  st : Nat
  /-- Lanes in use, bit k for lane k of the port. -/
  lanes : Nat
  nextLseq : Nat
  held : List LinkFrame
  /-- Cumulative 64 B units sent, and freed by the partner, by VC. -/
  sent : List Nat
  granted : List Nat
  /-- Next LSEQ expected, and when the last REPLAY_REQ was sent for it. -/
  expect : Nat
  reqAt : Option Nat
  /-- Cumulative units freed here, and reported, by VC. -/
  freed : List Nat
  reported : List Nat
  /-- Packets waiting at the head of each ingress VC buffer for a route, in order. -/
  ingress : Tab (List QPkt)
  /-- VCs paused by PFC, and those whose senders this module has paused (R241). -/
  paused : Nat
  pausing : Nat
  /-- When LACK last advanced, or frames were first held or replayed since (R226). -/
  lackAt : Nat
  deriving DecidableEq, Repr

structure Fabric where
  /-- N0-N3, G0, G1. -/
  links : List LinkSt
  /-- Consecutive windows above LANE_SER_LIMIT, by lane (R228). -/
  laneRuns : Tab Nat
  /-- Split rules in force, and ESCAPE_BROKEN (R236). -/
  split : Bool
  broken : Bool
  /-- Cleared bits of PAIR_LIVE, rising (R231). -/
  pairDead : List Nat
  deriving DecidableEq, Repr

/-! ## The cold frame -/

/-- A parked packet (R196). -/
structure Parked where
  arrival : Arrival
  cells : Nat
  since : Nat
  deriving DecidableEq, Repr

structure Contexts where
  /-- Parked packets of all four ports, in order of arrival. -/
  parked : List Parked
  /-- Park times of the last 1,024 released packets, newest first, by port (R199). -/
  residency : Tab (List Nat)
  /-- PARK_FULL suppression entries: port, source module, destination QPN, lapse (R198). -/
  suppress : List (Nat × ModAddr × Qpn × Nat)
  /-- Fetches in flight: QPN, and the port whose packet missed. -/
  fetching : List (Nat × Option Nat)
  /-- Misses waiting for a tracking entry, by port (R190). -/
  fetchWait : List (Nat × Nat)
  /-- Fetched contexts waiting for a hot slot (R195). -/
  slotWait : List Nat
  /-- Where the clock sweep stopped (R193). -/
  hand : Nat
  lastExhausted : Option Nat
  /-- The write-back buffer: contexts whose write-back is not yet presented, and since when (R193, R194). -/
  writeback : List (Nat × Nat)
  /-- The region and key translation cache, used last first: a region's descriptor, or one of its page entries (R12, R185). -/
  regions : List (Nat × Option Nat)
  deriving DecidableEq, Repr

structure Traffic where
  /-- By port * 8 + VC. -/
  egress : Tab EgressVc
  /-- VC served last at each level, by port * 4 + level. -/
  turn : Tab Nat
  /-- Tokens in bits of the buckets that are on: VC shapers by port * 8 + VC, function shapers and ingress policers by
  function * 4 + port (R208). -/
  vcTokens : Tab Int
  txTokens : Tab Int
  policers : Tab Int
  /-- Where the grant round robin stopped, by level. -/
  grantTurn : Tab Nat
  /-- Requester packets offered to the egress queues: QPN, PSN, port, VC, bytes, and since when (R219). -/
  offers : List (Nat × Psn × Nat × Nat × Nat × Nat)
  deriving DecidableEq, Repr

/-! ## Event queues -/

/-- One function's event queue (R143). -/
structure Eq where
  base : BitVec 64
  log2 : Nat
  path : Nat
  vector : Nat
  head : RingIndex
  tail : RingIndex
  arm : Bool
  /-- Events lost since the last record written. -/
  lost : Nat
  /-- Records written that HEAD has not passed. -/
  used : Nat
  deriving DecidableEq, Repr

/-! ## Management -/

/-- What keeps the management controller from executing the next request (R61): the drain of R469 for the module or
for a subsystem, STORE's programming, its own restart, the FLUSH_ERR completions of a MODIFY_QP to RESET (R147), or the fetch of the context that a control command
acts on (R191). -/
inductive Busy where
  | drainOperate | drainEnable (n : Nat) | store | mcRestart | flush (qpn : Nat) | fetch (qpn : Nat)
  deriving DecidableEq, Repr

/-- The management controller's request service (R61, R62). A request is the list of its commands: one, or the
blocks of a CTRL_CMD write in order (R140). -/
structure Mgmt where
  /-- What keeps the controller busy, and the request whose answer waits for it, if one does. -/
  busy : Option (Busy × List Instr)
  /-- Requests waiting, in order of arrival. -/
  waiting : List (List Instr)
  /-- For each endpoint, the last request executed and its response. -/
  answered : List (Via × List Instr × Response)
  /-- Blocks of a CTRL_CMD write received so far. -/
  blocks : List Instr
  /-- Results of the blocks executed so far of the CTRL_CMD write under way. -/
  results : List (List Byte)
  /-- Requests that packets of QP 0 have brought and that the controller has not seen yet (R60). -/
  inbox : List Instr
  deriving DecidableEq, Repr

/-! ## Pace and watchdogs -/

/-- One watchdog: the counter it last saw and the consecutive samples with the flag set and that counter (R39). -/
structure Watchdog where
  count : Nat
  run : Nat
  deriving DecidableEq, Repr

structure Pace where
  /-- Consecutive windows each of the 32 monitors has deviated in (R33). -/
  deviations : List Nat
  /-- The 118 watchdogs, by region; an unlisted one has seen nothing. -/
  watchdogs : Tab Watchdog
  deriving DecidableEq, Repr

/-! ## The graft unit -/

/-- What the shadow holds of a QP homed on the partner (Table 16-5). -/
structure ShadowQp where
  /-- Index after the last entry whose token, or want of one, the history holds (R132). -/
  seen : RingIndex
  sqRetire : RingIndex
  rqRetire : RingIndex
  una : Psn
  /-- Mirrored entries from the retire index on: index and first PSN. -/
  wqes : List (RingIndex × Psn)
  e : Psn
  heldMap : Nat
  sendCount : BitVec 32
  intents : List Psn
  results : List (Psn × BitVec 64)
  error : Option Nat
  deriving DecidableEq, Repr

/-- A frame that waits for a graft sub-link: its class in the order of R15, its VC, the sub-link of a heartbeat, its packet. -/
structure GraftFrame where
  cls : Nat
  vc : Nat
  link : Option Nat
  pkt : Packet
  deriving DecidableEq, Repr

structure Twin where
  /-- 0 none, 1 member A, 2 member B (R354). -/
  position : Nat
  /-- Next RSEQ to send, records not yet sent, records sent and not acknowledged, and the actions they hold. -/
  nextRseq : Nat
  toSend : List MirrorRecord
  unacked : List MirrorRecord
  held : List (Nat × HeldAction)
  /-- Last HELLO accepted, last heartbeat received and its instant. -/
  hello : Option Heartbeat
  partner : Option Heartbeat
  heardAt : Nat
  /-- Highest RSEQ received in order, records beyond a gap, and records received and not acknowledged. -/
  rseqIn : Nat
  beyond : List MirrorRecord
  ackDue : Nat
  shadows : Tab ShadowQp
  /-- Mirrored CQEs by CQ, oldest first. -/
  cqes : Tab (List MirrorCqe)
  /-- This module is the source of the synchronisation; it has met a difference. -/
  source : Bool
  mismatch : Bool
  /-- Heartbeats and packets of mirrored QPs have stopped (R369). -/
  stopped : Bool
  /-- Handshake causes for which PAIR_REFUSED was raised (R357). -/
  refused : List Nat
  /-- Handshakes that failed (R357). -/
  failures : Nat
  /-- Cast mirroring: bytes of the twin-held slot's transfer received so far, by slot (R258). -/
  receiving : Option Nat
  /-- Frames waiting for the graft link, in order of arrival; the sub-link that records go on; the one that sent last. -/
  queue : List GraftFrame
  via : Option Nat
  lastLink : Nat
  deriving DecidableEq, Repr

/-! ## Reliability and test (chapter 15) -/

/-- An arbitration under way: the unit, the replay unit, and the first replay unit when its own check failed (R339). -/
structure Arb where
  unit : Nat
  replay : Option Nat
  failed : Option Nat
  deriving DecidableEq, Repr

/-- A field-learnt pattern (Table 15-7). -/
structure Pattern where
  imported : Bool
  imm : Nat
  op : Nat
  format : Nat
  round : Nat
  a : Nat
  b : Nat
  c : Nat
  expected : Nat
  sourceRecord : Nat
  sourceSerial : List Byte
  deriving DecidableEq, Repr

/-- A record on its way to flash, but for its ID; and the pattern derived with it (R347, R350). -/
structure RecordJob where
  cause : Nat
  body : List Byte
  pattern : Option Pattern
  deriving DecidableEq, Repr

structure Reliab where
  arbs : List Arb
  jobs : List RecordJob
  /-- The unit under scan, whether in the rotation order, and units that wait for a scan outside it (R345). -/
  scan : Option (Nat × Bool)
  waiting : List Nat
  nextUnit : Nat
  deriving DecidableEq, Repr

/-! ## Flash (Table 19-6) -/

/-- A copy of the configuration page (R64). -/
structure CfgCopy where
  seq : Nat
  od : Tab Nat
  blobs : Tab (List Byte)
  deriving DecidableEq, Repr

/-- What flash holds apart from what manufacture fixed; an invalid copy is none. -/
structure Flash where
  copies : List (Option CfgCopy)
  /-- The copy that a cut or failed STORE left invalid: a newer one than the other (R64, R65). -/
  torn : Option Nat
  owner : Option Nat
  /-- A valid firmware image may stand in the image area. -/
  image : Bool
  /-- Fused bits of SVN_MIN (R400). -/
  svnMin : Nat
  records : Tab (List Byte)
  nextRecord : Nat
  patterns : List Pattern
  deriving DecidableEq, Repr

/-! ## Functions (chapter 17) -/

structure FuncSt where
  /-- FUNC_STATE (Table 17-2). -/
  st : Nat
  /-- A message to the PF that it has not taken. -/
  untaken : Bool
  /-- An image being written, and its length; one being installed. -/
  saving : Option Nat
  restoring : Option (Nat × VfImage)
  /-- SRC_MODULE of a restored share's packets, and the target of a forwarding one; 0 for none (R395). -/
  alias_ : Nat
  target : Nat
  deriving DecidableEq, Repr

structure Tenant where
  numVfs : Nat
  vfEnable : Bool
  /-- By function; an unlisted VF is DISABLED. -/
  funcs : Tab FuncSt
  /-- Functions and half-ports not assigned to them (R108, R148). No object and no command of the manual assigns half-ports:
  after reset every one is assigned to every function (notes/assumptions/64). -/
  denied : List (Nat × Nat)
  deriving DecidableEq, Repr

/-! ## Security (chapter 18) -/

structure KeySlot where
  /-- 0 empty, 1 PACKET, 2 MIGRATION. -/
  usage : Nat
  gen : Nat
  loads : Nat
  key : BitVec 256
  deriving DecidableEq, Repr

structure Session where
  via : Via
  /-- FINISH was accepted. -/
  open_ : Bool
  /-- SHA3-512 digest of the root the requester's certificate chains to. -/
  root : Option (List Byte)
  last : Nat
  /-- The key-encryption key, which HKDF gives from the session's secret (R406). -/
  kek : BitVec 256
  deriving DecidableEq, Repr

structure Security where
  /-- Tenant slots by global number; an unlisted one is empty with LOADS 0. -/
  slots : Tab KeySlot
  /-- Slot and LOADS under which a QPN last ran protected (R415). -/
  lastRun : Tab (Nat × Nat)
  sessions : Tab Session
  nextSession : Nat
  /-- Link slots (R420), those a K_SET_GO has named for the next IDE.Start, and those in use. -/
  linkSlots : Tab (BitVec 256)
  linkPending : List Nat
  linkActive : List Nat
  /-- The contents of measurements 1 to 4 as last measured (R403). -/
  measured : List (List Byte)
  deriving DecidableEq, Repr

/-! ## Boot, host port and power (chapters 4, 19 and 20) -/

/-- A slice under way (R435). -/
structure SliceRun where
  slice : Nat
  hdr : SliceHdr
  deriving DecidableEq, Repr

structure Boot where
  /-- MRST_N asserted, and the internal reset pulse of MODULE_RESET. -/
  mrst : Bool
  pulse : Bool
  /-- The next self-test is full; the running or last one is quick. -/
  fullNext : Bool
  quick : Bool
  /-- Cause of the next entry into BOOT_ROM. -/
  nextCause : Nat
  /-- Phase of self-test: 0 references, 1 analogue, 2 MBIST, 3 scan. -/
  phase : Nat
  since : Nat
  analogDone : List AnalogueCheck
  running : List SliceRun
  nextSlice : Nat
  lastStart : Option Nat
  /-- The firmware serves the dictionary: it has started and is not before CONFIG. -/
  firmware : Bool
  /-- End of the last restart of the management controller (R442). -/
  restartedAt : Option Nat
  /-- PAIR_ID contacts as sampled at leaving reset. -/
  pairId : Nat
  deriving DecidableEq, Repr

structure HostPort where
  /-- Host PERST# asserted. -/
  perst : Bool
  /-- Configuration space dwords the host has written, by function * 4096 + offset. -/
  config : Tab Nat
  /-- MSI-X (Table 04-3): functions with it enabled and functions masked; table dwords written, by (function * 2048 + vector) * 4
  + dword; vectors pending, by function * 2048 + vector. -/
  msixOn : List Nat
  msixMask : List Nat
  msixTable : Tab Nat
  msixPending : List Nat
  /-- The HDM decoder is committed. -/
  committed : Bool
  /-- Entering HOLD, and why: 0 PERST#, 1 link down, 2 D3hot (R261). -/
  entering : Option Nat
  /-- The accelerator PERST# pulse of a subsystem 1 soft reset runs (R104). -/
  accPulse : Bool
  deriving DecidableEq, Repr

structure Power where
  good : Bool
  /-- Since when TJ_MAX has stayed at or below THERMAL_CAP_OFF. -/
  coolSince : Option Nat
  /-- Since when the thermal limit has been in force and counted. -/
  capCounted : Nat
  /-- Dynamic I3C address, and the JTAG instruction (0 reset/IDCODE, 1 BYPASS, 2 SAMPLE/PRELOAD, 3-5 EXTEST kinds). -/
  i3c : Option Nat
  jtag : Nat
  boundary : List Bool
  /-- Temperature sensors excluded, bit by bit (R436). -/
  excluded : Nat
  /-- Packages whose last MR4 reading was above 85 °C (R465). -/
  hot : List Nat
  deriving DecidableEq, Repr

structure State where
  /-- Commands waiting, first in first out. -/
  pending : List Instr
  /-- What was presented at the boundaries, oldest first. -/
  out : List Output
  /-- The local timer, ns (R45). -/
  timer : Nat
  /-- Last occurrence of each periodic action. -/
  ticks : Tab Nat
  /-- The model's own counter of free values used. -/
  freeCount : Nat
  mode : MState
  /-- Live values of fixed-size objects, by index*256+sub; an unlisted one is at its default. -/
  od : Tab Nat
  /-- Live values of STRING and DOMAIN objects. -/
  blobs : Tab (List Byte)
  mgmt : Mgmt
  /-- ALERT_N asserted (R63). -/
  alert : Bool
  /-- Event queues by function, and events lost since the last record while a function had none (R143). -/
  eqs : Tab Eq
  eqLost : Tab Nat
  /-- The eight half-ports C0a to C3b. -/
  halfPorts : List HalfPortSt
  /-- Lines in the device cache, least recently used first (R88). -/
  cache : List Nat
  wq : WorkQueues
  traffic : Traffic
  fabric : Fabric
  ctx : Contexts
  mem : Mem
  colls : Collectives
  twin : Twin
  pace : Pace
  reliab : Reliab
  flash : Flash
  tenant : Tenant
  security : Security
  boot : Boot
  host : HostPort
  power : Power
  deriving DecidableEq, Repr

/-- The reasons a step stops without a next state. -/
inductive Fault where
  /-- Raised by a command whose operand lists are outside the lengths the manual gives them (WellFormed):
  such a command cannot reach the module. Safe: no claim can be proved about what follows. -/
  | illFormed
  deriving DecidableEq, Repr

/-- The reasons a command has no meaning. -/
inductive Refusal where
  /-- Raised by the dispatcher for a command that is not modelled. Safe: the run stops. -/
  | notModelled (mnemonic : String)
  deriving DecidableEq, Repr

/-- A link that does not run. -/
def LinkSt.idle : LinkSt :=
  ⟨0, 0, 0, [], List.replicate 8 0, List.replicate 8 0, 0, none, List.replicate 8 0, List.replicate 8 0, [], 0, 0, 0⟩

/-- The module right after power-on reset. -/
def State.reset : State where
  pending := []
  out := []
  timer := 0
  ticks := []
  freeCount := 0
  mode := .bootRom
  -- RESET_CAUSE: power-on (Table 19-7)
  od := [(0x250005, 1)]
  blobs := []
  mgmt := ⟨none, [], [], [], [], []⟩
  alert := false
  eqs := []
  eqLost := []
  halfPorts := List.replicate 8 ⟨0, false, 32, false, 0, 0, 0, false, true, .idle, 0, 0, 0, none, 0, [], 0, 0, true, false, 0⟩
  cache := []
  wq := ⟨[], [], [], [], [], [], [], [], [], 0⟩
  traffic := ⟨[], [], [], [], [], [], []⟩
  fabric := ⟨List.replicate 6 LinkSt.idle, [], false, false, []⟩
  ctx := ⟨[], [], [], [], [], [], 0, none, [], []⟩
  mem := ⟨[], [], ⟨8, 948, 474, 0, 0⟩, 0, 0, false, 0, List.replicate 4 ⟨0, false, 0, 0, 0, 0, 0⟩, false, none, [], [], [], [],
    [], [], [], 0, []⟩
  colls := ⟨[], [], [], [], [], 6144, 0, 0, []⟩
  twin := ⟨0, 0, [], [], [], none, none, 0, 2 ^ 32 - 1, [], 0, [], [], false, false, false, [], 0, none, [], none, 5⟩
  pace := ⟨List.replicate 32 0, []⟩
  reliab := ⟨[], [], none, [], 0⟩
  flash := ⟨[none, none], none, none, true, 0, [], 0, []⟩
  tenant := ⟨0, false, [], []⟩
  security := ⟨[], [], [], 0, [], [], [], []⟩
  boot := ⟨false, false, true, false, 1, 0, 0, [], [], 0, none, false, none, 0⟩
  host := ⟨true, [], [], [], [], [], false, none, false⟩
  power := ⟨true, none, 0, none, 0, [], 0, []⟩

end Sys2Proof.Machine
end

