-- ==== Sys2Proof/Machine/Layout.lean ====
section
/-! DEFINITION. Entries of rings as the module reads and writes them, bit by bit: SQE, COLLECTIVE SQE, fragment entry, CQE and
event record (R8, R9, Tables 05-4, 05-7, 05-8, 06-7, 12-5). Bit 8b + k of an entry is bit k of byte b. -/

namespace Sys2Proof

/-- The fields of an SQE (Table 05-4). OWN, bit 0, is 1 in an entry that the module takes. -/
def sqeOf (b : SqeBits) : Sqe where
  opcode := b.extractLsb' 8 8
  c := b.getLsbD 16
  x := b.getLsbD 17
  t := b.getLsbD 18
  f := b.getLsbD 19
  s := b.getLsbD 20
  token := b.extractLsb' 32 32
  wrId := b.extractLsb' 64 64
  localAddr := b.extractLsb' 128 64
  localKey := b.extractLsb' 192 32
  length := b.extractLsb' 224 32
  remoteAddr := b.extractLsb' 256 64
  remoteKey := b.extractLsb' 320 32
  imm := b.extractLsb' 352 32
  operandA := b.extractLsb' 384 64
  operandB := b.extractLsb' 448 64
  reservedZero := b.extractLsb' 1 7 == 0 && b.extractLsb' 21 11 == 0

/-- The bits of an entry with these fields and OWN = 1. -/
def Sqe.bits (e : Sqe) : SqeBits := BitVec.ofNat 512
  (1 + (if e.reservedZero then 0 else 2) + e.opcode.toNat * 2 ^ 8 + e.c.toNat * 2 ^ 16 + e.x.toNat * 2 ^ 17 +
    e.t.toNat * 2 ^ 18 + e.f.toNat * 2 ^ 19 + e.s.toNat * 2 ^ 20 + e.token.toNat * 2 ^ 32 + e.wrId.toNat * 2 ^ 64 +
    e.localAddr.toNat * 2 ^ 128 + e.localKey.toNat * 2 ^ 192 + e.length.toNat * 2 ^ 224 + e.remoteAddr.toNat * 2 ^ 256 +
    e.remoteKey.toNat * 2 ^ 320 + e.imm.toNat * 2 ^ 352 + e.operandA.toNat * 2 ^ 384 + e.operandB.toNat * 2 ^ 448)

/-- The fields of a COLLECTIVE SQE (Tables 05-4 and 12-5). -/
def collSqeOf (b : SqeBits) : CollSqe where
  c := b.getLsbD 16
  s := b.getLsbD 20
  f := b.getLsbD 19
  x := b.getLsbD 17
  t := b.getLsbD 18
  token := b.extractLsb' 32 32
  wrId := b.extractLsb' 64 64
  ext := b.extractLsb' 128 64
  ncontrib := b.extractLsb' 204 4
  dtype := b.extractLsb' 208 8
  kind := b.extractLsb' 216 4
  redop := b.extractLsb' 220 4
  root := b.extractLsb' 224 16
  schedId := b.extractLsb' 240 16
  count := b.extractLsb' 256 64
  inAddr := b.extractLsb' 320 64
  inKey := b.extractLsb' 384 32
  outKey := b.extractLsb' 416 32
  outAddr := b.extractLsb' 448 64
  reservedZero := b.extractLsb' 1 7 == 0 && b.extractLsb' 21 11 == 0 && b.extractLsb' 192 12 == 0

/-- The fields of a fragment entry (Table 05-7). -/
def fragOf (b : FragBits) : Frag := ⟨b.extractLsb' 0 64, b.extractLsb' 64 32, b.extractLsb' 96 32⟩

/-- A CQE's 32 B with OWN = 1; its reserved bits are zero (Table 05-8, R9). -/
def cqeNat (c : Cqe) : Nat :=
  1 + c.flushed.toNat * 2 + c.status.toNat * 2 ^ 8 + c.opcode.toNat * 2 ^ 16 + c.immValid.toNat * 2 ^ 24 +
    c.responder.toNat * 2 ^ 25 + c.solicited.toNat * 2 ^ 26 + c.qpn.toNat * 2 ^ 32 + c.wrId.toNat * 2 ^ 64 +
    c.byteCount.toNat * 2 ^ 128 + c.imm.toNat * 2 ^ 160 + c.index.toNat * 2 ^ 192 + c.count.toNat * 2 ^ 208 +
    c.timestamp.toNat * 2 ^ 224

/-- A CQE from its 32 B; reserved bits are not looked at (R9). -/
def cqeOf (n : Nat) : Cqe where
  timestamp := BitVec.ofNat 32 (n / 2 ^ 224)
  count := BitVec.ofNat 16 (n / 2 ^ 208)
  index := BitVec.ofNat 16 (n / 2 ^ 192)
  imm := BitVec.ofNat 32 (n / 2 ^ 160)
  byteCount := BitVec.ofNat 32 (n / 2 ^ 128)
  wrId := BitVec.ofNat 64 (n / 2 ^ 64)
  qpn := BitVec.ofNat 24 (n / 2 ^ 32)
  solicited := n.testBit 26
  responder := n.testBit 25
  immValid := n.testBit 24
  opcode := BitVec.ofNat 8 (n / 2 ^ 16)
  status := BitVec.ofNat 8 (n / 2 ^ 8)
  flushed := n.testBit 1

/-- An event record's 32 B with OWN = 1 (Table 06-7). -/
def eventNat (code object infoA infoB timestamp : Nat) : Nat :=
  1 + code % 2 ^ 16 * 2 ^ 16 + object % 2 ^ 24 * 2 ^ 64 + timestamp % 2 ^ 32 * 2 ^ 96 + infoA % 2 ^ 64 * 2 ^ 128 +
    infoB % 2 ^ 64 * 2 ^ 192

end Sys2Proof

namespace Sys2Proof.Machine

/-- CRC-32C over bytes, bit by bit, least significant bit first (notes/assumptions/26). -/
def crcStep (c : Nat) (b : Byte) : Nat :=
  (List.range 8).foldl (fun c _ => if c.testBit 0 then (c / 2) ^^^ 0x82F63B78 else c / 2) (c ^^^ b.toNat)

def crc32c (bs : List Byte) : Nat := (bs.foldl crcStep 0xFFFFFFFF) ^^^ 0xFFFFFFFF

/-- CRC-16-CCITT over bytes, most significant bit first (notes/assumptions/26). -/
def crc16Step (c : Nat) (b : Byte) : Nat :=
  (List.range 8).foldl (fun c _ => if c.testBit 15 then (2 * c ^^^ 0x1021) % 2 ^ 16 else 2 * c) (c ^^^ b.toNat * 2 ^ 8)

def crc16 (bs : List Byte) : Nat := bs.foldl crc16Step 0xFFFF

/-! ## Link frames (Tables 06-14, 10-3 to 10-5): most significant byte first (R8), reserved fields zero (R9) -/

/-- The transport header, 40 B. -/
def headerBytes (p : Packet) : List Byte := beBytes 40
  (p.version.toNat * 2 ^ 316 + p.dstModule.toNat * 2 ^ 296 + p.srcModule.toNat * 2 ^ 276 + p.dstQpn.toNat * 2 ^ 252 +
    p.srcQpn.toNat * 2 ^ 228 + p.opcode.toNat * 2 ^ 220 + p.flags.toNat / 4 * 2 ^ 214 + p.psn.toNat * 2 ^ 188 +
    p.msgId.toNat * 2 ^ 172 + p.remoteAddr.toNat * 2 ^ 108 + p.key.toNat * 2 ^ 76 + p.payloadLen.toNat * 2 ^ 63 +
    p.pktOffset.toNat * 2 ^ 32 + p.aux.toNat)

/-- A packet from its transport header, with its payload and tag; reserved bits are not looked at. -/
def packetOf (header payload : List Byte) (tag : Nat) : Packet :=
  let h := BitVec.ofNat 320 (beNat header)
  { version := h.extractLsb' 316 4, dstModule := h.extractLsb' 296 20, srcModule := h.extractLsb' 276 20
    dstQpn := h.extractLsb' 252 24, srcQpn := h.extractLsb' 228 24, opcode := h.extractLsb' 220 8
    flags := h.extractLsb' 212 8, psn := h.extractLsb' 188 24, msgId := h.extractLsb' 172 16
    remoteAddr := h.extractLsb' 108 64, key := h.extractLsb' 76 32, payloadLen := h.extractLsb' 63 13
    pktOffset := h.extractLsb' 32 31, aux := h.extractLsb' 0 32, payload := payload, tag := BitVec.ofNat 128 tag }

/-- A link header: its upper 48 bits, and HCRC over them and over what else it covers. -/
def linkHeader (word : Nat) (covered : List Byte) : List Byte :=
  let upper := beBytes 6 (word / 2 ^ 16)
  upper ++ beBytes 2 (crc16 (upper ++ covered))

/-- A frame ended by its trailer; that of a stomped copy is the complement (R227). -/
def withTrailer (stomp : Bool) (b : List Byte) : List Byte :=
  b ++ beBytes 4 (if stomp then 0xFFFFFFFF - crc32c b else crc32c b) ++ beBytes 4 0

/-- A packet frame. -/
def LinkFrame.bytes (f : LinkFrame) : List Byte :=
  let n := f.pkt.payloadLen.toNat
  let h := headerBytes f.pkt
  withTrailer f.stomp
    (linkHeader (f.vc * 2 ^ 59 + f.cls * 2 ^ 56 + f.lseq % 4096 * 2 ^ 44 + f.lack % 4096 * 2 ^ 32 + f.mode.toNat * 2 ^ 31 +
        f.down.toNat * 2 ^ 30) h ++ h ++ slice f.pkt.payload 0 (roundUp n 8) ++
      (if f.pkt.flags.getLsbD 3 then beBytes 16 f.pkt.tag.toNat else []))

/-- A control frame. -/
def controlBytes (ctype : Nat) (credits : List Nat) (lack replayFrom pair live : Nat) : List Byte :=
  withTrailer false
    (linkHeader (2 ^ 62 + lack % 4096 * 2 ^ 32) [] ++ credits.flatMap (beBytes 2) ++
      beBytes 8 (ctype * 2 ^ 60 + replayFrom % 4096 * 2 ^ 48 + pair % 2 ^ 20 * 2 ^ 28 + live % 4 * 2 ^ 26))

/-- How the trailer CRC of a received frame stands (R227). -/
inductive Trailer where
  | good | bad | stomped
  deriving DecidableEq, Repr

def trailerOf (b : List Byte) : Trailer :=
  let c := crc32c (b.take (b.length - 8))
  let t := beNat (slice b (b.length - 8) 4)
  if b.length < 16 then .bad else if t = c then .good else if t = 0xFFFFFFFF - c then .stomped else .bad

/-- A packet frame as received (Tables 10-3 and 10-4). -/
structure Frame where
  kind : Nat
  vc : Nat
  cls : Nat
  lseq : Nat
  lack : Nat
  /-- MODE: false torus rules, true split rules. -/
  mode : Bool
  down : Bool
  hcrcOk : Bool
  trailer : Trailer
  pkt : Packet
  deriving DecidableEq, Repr

/-- Bytes of a packet frame, by its header. -/
def frameLength (p : Packet) : Nat := 56 + roundUp p.payloadLen.toNat 8 + (if p.flags.getLsbD 3 then 16 else 0)

def frameOf (b : List Byte) : Frame :=
  let w := beNat (slice b 0 8)
  let h := slice b 8 40
  let p := packetOf h [] 0
  let n := p.payloadLen.toNat
  { kind := w / 2 ^ 62, vc := w / 2 ^ 59 % 8, cls := w / 2 ^ 56 % 8, lseq := w / 2 ^ 44 % 4096, lack := w / 2 ^ 32 % 4096
    mode := w.testBit 31, down := w.testBit 30
    hcrcOk := decide (48 ≤ b.length) && w % 2 ^ 16 == crc16 (slice b 0 6 ++ h)
    trailer := if b.length = frameLength p then trailerOf b else .bad
    pkt := packetOf h (slice b 48 n) (if p.flags.getLsbD 3 then beNat (slice b (48 + roundUp n 8) 16) else 0) }

/-- A control frame as received (Table 10-5). -/
structure ControlFrame where
  credits : List Nat
  lack : Nat
  replayFrom : Nat
  pairAddr : Nat
  liveA : Bool
  liveB : Bool
  crcOk : Bool
  deriving DecidableEq, Repr

def controlOf (b : List Byte) : ControlFrame :=
  let w := beNat (slice b 0 8)
  let c := beNat (slice b 24 8)
  { credits := (List.range 8).map fun v => beNat (slice b (8 + 2 * v) 2)
    lack := w / 2 ^ 32 % 4096, replayFrom := c / 2 ^ 48 % 4096, pairAddr := c / 2 ^ 28 % 2 ^ 20
    liveA := c.testBit 26, liveB := c.testBit 27
    crcOk := w / 2 ^ 62 == 1 && w % 2 ^ 16 == crc16 (slice b 0 6) && trailerOf b == .good }

/-! ## Messages of the object dictionary (Table 03-6) -/

/-- A message of the module, without an integrity check (notes/assumptions/72). -/
def messageBytes (command status : Nat) (tag func index sub offset : Nat) (data : List Byte) : List Byte :=
  leBytes 1 0x7F ++ beBytes 4 0x32E41 ++ leBytes 1 1 ++ leBytes 1 command ++ leBytes 1 status ++ leBytes 2 tag ++
    leBytes 2 func ++ leBytes 2 index ++ leBytes 1 sub ++ leBytes 1 0 ++ leBytes 4 offset ++ leBytes 2 data.length ++ data

def Response.bytes (r : Response) : List Byte :=
  messageBytes r.command.toNat r.status.toNat r.tag.toNat r.func.toNat r.index.toNat r.sub.toNat r.offset.toNat r.data

/-- The header fields of a request that came as bytes. -/
def headerOfBody (via : Via) (b : List Byte) : ReqHdr :=
  let ic := (leField b 0 1).testBit 7
  let c := leField b 6 1
  { via := via, session := none
    vendor := BitVec.ofNat 32 (beNat (slice b 1 4)), version := BitVec.ofNat 8 (leField b 5 1)
    status := BitVec.ofNat 8 (leField b 7 1), tag := BitVec.ofNat 16 (leField b 8 2), func := BitVec.ofNat 16 (leField b 10 2)
    reserved := BitVec.ofNat 8 (leField b 15 1)
    integrityOk := !ic || leNat (b.drop (b.length - 4)) == crc32c (b.take (b.length - 4))
    badCommand := if decide (1 ≤ c) && decide (c ≤ 6) then none else some (BitVec.ofNat 8 c) }

/-- The request that a message body carries; none when it is no vendor-defined message, or ends before its fields or its data. -/
def requestOfBody (via : Via) (b : List Byte) : Option Instr :=
  let h := headerOfBody via b
  let tail := if (leField b 0 1).testBit 7 then 4 else 0
  let index := BitVec.ofNat 16 (leField b 12 2)
  let sub := BitVec.ofNat 8 (leField b 14 1)
  let off := BitVec.ofNat 32 (leField b 16 4)
  let n := leField b 20 2
  if b.length < 22 + tail || leField b 0 1 % 128 != 0x7F then none
  else match leField b 6 1 with
    | 2 => if b.length < 22 + n + tail then none else some (.write h index sub off (slice b 22 n))
    | 3 => some (.describe h index ⟨sub, BitVec.ofNat 16 n⟩)
    | 4 => some (.next h index ⟨sub, BitVec.ofNat 16 n⟩)
    | 5 => some (.store h index sub off (BitVec.ofNat 16 n))
    | 6 => some (.defaults h index sub off (BitVec.ofNat 16 n))
    | _ => some (.read h index sub off (BitVec.ofNat 16 n))

end Sys2Proof.Machine
end

