-- ==== Sys2Proof/Machine/ObjTable.lean ====
section
/-! DEFINITION. The rows of the object dictionary: address, type, access right, privilege classes, default,
persistence class and owner of every object, as each chapter's object table lists them (R47, R48, R53). -/

namespace Sys2Proof.Machine

/-- The types of Table 03-1. -/
inductive ObjType where
  | bool | u8 | u16 | u32 | u64 | i32 | f32
  | bytes (n : Nat)
  | string
  /-- With the maximum length DESCRIBE reports. -/
  | domain (max : Nat)
  deriving DecidableEq, Repr

/-- Access rights of Table 03-2. -/
inductive Access where
  | ro | rw | wo | rwd
  deriving DecidableEq, Repr

/-- Persistence classes of R52. -/
inductive Persist where
  | v | s | f
  deriving DecidableEq, Repr

/-- The enable that owns an RWD object (R50). -/
inductive Owner where
  | none | operate | sub (n : Nat)
  deriving DecidableEq, Repr

/-- A row of an object table: `count` indices from `index`, and at each of them `subs` subindexes from `sub`.
`priv` has bit 0 M, bit 1 P, bit 2 V, bit 3 F (R51). `dflts` lists the defaults instance by instance; the last
one holds for the rest, and an empty list is zero. -/
structure ObjRow where
  index : Nat
  count : Nat
  sub : Nat
  subs : Nat
  ty : ObjType
  access : Access
  priv : Nat
  persist : Persist
  owner : Owner
  dflts : List Nat
  deriving DecidableEq, Repr

/-! ## Objects of chapter 2 -/

/-- PACE_PROFILE, 0x2100.01 (Table of chapter 2). -/
def Row.paceProfile : ObjRow :=
  ⟨0x2100, 1, 0x01, 1, .u8, .rw, 3, .s, .none, []⟩

/-- PACE_MARGIN, 0x2100.02 (Table of chapter 2). -/
def Row.paceMargin : ObjRow :=
  ⟨0x2100, 1, 0x02, 1, .u8, .rw, 3, .s, .none, [4]⟩

/-- PACE_LIVE, 0x2100.03 (Table of chapter 2). -/
def Row.paceLive : ObjRow :=
  ⟨0x2100, 1, 0x03, 1, .u16, .ro, 15, .v, .none, []⟩

/-- VCORE_SET, 0x2100.04 (Table of chapter 2). -/
def Row.vcoreSet : ObjRow :=
  ⟨0x2100, 1, 0x04, 1, .u16, .ro, 3, .v, .none, [750]⟩

/-- PACE_STATUS, 0x2100.05 (Table of chapter 2). -/
def Row.paceStatus : ObjRow :=
  ⟨0x2100, 1, 0x05, 1, .u32, .ro, 11, .v, .none, []⟩

/-- PACE_MON, 0x2101.01 (Table of chapter 2). -/
def Row.paceMon : ObjRow :=
  ⟨0x2101, 1, 0x01, 32, .u16, .ro, 3, .v, .none, []⟩

/-- PACE_MON_EXCLUDED, 0x2101.21 (Table of chapter 2). -/
def Row.paceMonExcluded : ObjRow :=
  ⟨0x2101, 1, 0x21, 1, .u32, .ro, 3, .v, .none, []⟩

/-- STALL_MAP, 0x2102.01 (Table of chapter 2). -/
def Row.stallMap : ObjRow :=
  ⟨0x2102, 1, 0x01, 1, .bytes 16, .ro, 3, .v, .none, []⟩

/-- STALL_FIRST, 0x2102.02 (Table of chapter 2). -/
def Row.stallFirst : ObjRow :=
  ⟨0x2102, 1, 0x02, 1, .u8, .ro, 3, .v, .none, [0xff]⟩

/-- STALL_TIME, 0x2102.03 (Table of chapter 2). -/
def Row.stallTime : ObjRow :=
  ⟨0x2102, 1, 0x03, 1, .u64, .ro, 3, .v, .none, []⟩

/-- TIMER_NS, 0x2103.01 (Table of chapter 2). -/
def Row.timerNs : ObjRow :=
  ⟨0x2103, 1, 0x01, 1, .u64, .ro, 15, .v, .none, []⟩

def rowsOf2 : List ObjRow :=
  [Row.paceProfile, Row.paceMargin, Row.paceLive, Row.vcoreSet, Row.paceStatus, Row.paceMon, Row.paceMonExcluded, Row.stallMap, Row.stallFirst, Row.stallTime, Row.timerNs]

/-! ## Objects of chapter 3 -/

/-- VENDOR, 0x1000.01 (Table of chapter 3). -/
def Row.vendor : ObjRow :=
  ⟨0x1000, 1, 0x01, 1, .string, .ro, 15, .f, .none, []⟩

/-- PART, 0x1000.02 (Table of chapter 3). -/
def Row.part : ObjRow :=
  ⟨0x1000, 1, 0x02, 1, .string, .ro, 15, .f, .none, []⟩

/-- VENDOR_PEN, 0x1000.03 (Table of chapter 3). -/
def Row.vendorPen : ObjRow :=
  ⟨0x1000, 1, 0x03, 1, .u32, .ro, 15, .f, .none, [208449]⟩

/-- SERIAL, 0x1000.04 (Table of chapter 3). -/
def Row.serial : ObjRow :=
  ⟨0x1000, 1, 0x04, 1, .string, .ro, 11, .f, .none, []⟩

/-- HW_STEPPING, 0x1000.05 (Table of chapter 3). -/
def Row.hwStepping : ObjRow :=
  ⟨0x1000, 1, 0x05, 1, .u16, .ro, 11, .f, .none, []⟩

/-- FW_VERSION, 0x1000.06 (Table of chapter 3). -/
def Row.fwVersion : ObjRow :=
  ⟨0x1000, 1, 0x06, 1, .u32, .ro, 15, .v, .none, []⟩

/-- ROM_VERSION, 0x1000.07 (Table of chapter 3). -/
def Row.romVersion : ObjRow :=
  ⟨0x1000, 1, 0x07, 1, .u32, .ro, 3, .f, .none, []⟩

/-- EVENT_SINK, 0x1001.01 (Table of chapter 3). -/
def Row.eventSink : ObjRow :=
  ⟨0x1001, 1, 0x01, 1, .u8, .rw, 1, .s, .none, []⟩

/-- MAX_DATA, 0x1001.02 (Table of chapter 3). -/
def Row.maxData : ObjRow :=
  ⟨0x1001, 1, 0x02, 1, .u16, .ro, 15, .f, .none, [1024]⟩

/-- FM_ALLOW, 0x1002.01 (Table of chapter 3). -/
def Row.fmAllow : ObjRow :=
  ⟨0x1002, 1, 0x01, 4, .u32, .rw, 3, .s, .none, []⟩

/-- FM_EVENT_QPN, 0x1002.05 (Table of chapter 3). -/
def Row.fmEventQpn : ObjRow :=
  ⟨0x1002, 1, 0x05, 4, .u32, .rw, 3, .s, .none, []⟩

/-- OPERATE, 0x2000.01 (Table of chapter 3). -/
def Row.operate : ObjRow :=
  ⟨0x2000, 1, 0x01, 1, .bool, .rw, 3, .v, .none, []⟩

/-- REASON, 0x2000.02 (Table of chapter 3). -/
def Row.reason : ObjRow :=
  ⟨0x2000, 1, 0x02, 1, .u32, .ro, 11, .v, .none, []⟩

/-- MODULE_STATE, 0x2000.03 (Table of chapter 3). -/
def Row.moduleState : ObjRow :=
  ⟨0x2000, 1, 0x03, 1, .u8, .ro, 15, .v, .none, []⟩

/-- OFFENDING, 0x2000.04 (Table of chapter 3). -/
def Row.offending : ObjRow :=
  ⟨0x2000, 1, 0x04, 1, .u32, .ro, 3, .v, .none, []⟩

/-- FAULT_LOG, 0x2000.05 (Table of chapter 3). -/
def Row.faultLog : ObjRow :=
  ⟨0x2000, 1, 0x05, 1, .bytes 256, .ro, 11, .v, .none, []⟩

/-- FAULT_COUNT, 0x2000.06 (Table of chapter 3). -/
def Row.faultCount : ObjRow :=
  ⟨0x2000, 1, 0x06, 1, .u32, .ro, 11, .v, .none, []⟩

/-- ENABLE, 0x2011.01 (R69). -/
def Row.enable : ObjRow :=
  ⟨0x2011, 11, 0x01, 1, .bool, .rw, 3, .s, .none, [1]⟩

/-- ENABLE_FIXED, 0x201c.01 (R69). -/
def Row.enableFixed : ObjRow :=
  ⟨0x201C, 3, 0x01, 1, .bool, .ro, 3, .s, .none, [1]⟩

/-- SUBSYS_REASON, 0x2011.02 (Table of chapter 3). -/
def Row.subsysReason : ObjRow :=
  ⟨0x2011, 14, 0x02, 1, .u32, .ro, 3, .v, .none, []⟩

/-- SOFT_RESET, 0x2011.03 (Table of chapter 3). -/
def Row.softReset : ObjRow :=
  ⟨0x2011, 14, 0x03, 1, .bool, .wo, 3, .v, .none, []⟩

/-- CFG_SEQUENCE, 0x2020.01 (Table of chapter 3). -/
def Row.cfgSequence : ObjRow :=
  ⟨0x2020, 1, 0x01, 1, .u32, .ro, 3, .v, .none, []⟩

/-- CFG_STATUS, 0x2020.02 (Table of chapter 3). -/
def Row.cfgStatus : ObjRow :=
  ⟨0x2020, 1, 0x02, 1, .u8, .ro, 3, .v, .none, []⟩

def rowsOf3 : List ObjRow :=
  [Row.vendor, Row.part, Row.vendorPen, Row.serial, Row.hwStepping, Row.fwVersion, Row.romVersion, Row.eventSink, Row.maxData, Row.fmAllow, Row.fmEventQpn, Row.operate] ++
  [Row.reason, Row.moduleState, Row.offending, Row.faultLog, Row.faultCount, Row.enable, Row.enableFixed, Row.subsysReason, Row.softReset, Row.cfgSequence, Row.cfgStatus]

/-! ## Objects of chapter 4 -/

/-- ROLE, 0x3200.01 (Table of chapter 4). -/
def Row.role : ObjRow :=
  ⟨0x3200, 8, 0x01, 1, .u8, .rwd, 3, .s, .operate, [1, 0, 2]⟩

/-- X16, 0x3200.02 (Table of chapter 4). -/
def Row.x16 : ObjRow :=
  ⟨0x3200, 8, 0x02, 1, .bool, .rwd, 3, .s, .operate, []⟩

/-- SPEED_CAP, 0x3200.03 (Table of chapter 4). -/
def Row.speedCap : ObjRow :=
  ⟨0x3200, 8, 0x03, 1, .u8, .rwd, 3, .s, .operate, [32]⟩

/-- IDE_ENABLE, 0x3200.04 (Table of chapter 4). -/
def Row.ideEnable : ObjRow :=
  ⟨0x3200, 8, 0x04, 1, .bool, .rwd, 3, .s, .operate, []⟩

/-- CPL_TIMEOUT, 0x3200.05 (Table of chapter 4). -/
def Row.cplTimeout : ObjRow :=
  ⟨0x3200, 8, 0x05, 1, .u16, .rw, 3, .s, .none, [50]⟩

/-- RO_ENABLE, 0x3200.06 (Table of chapter 4). -/
def Row.roEnable : ObjRow :=
  ⟨0x3200, 8, 0x06, 1, .bool, .rw, 3, .s, .none, []⟩

/-- CXL_DEV_PROTOCOLS, 0x3200.07 (Table of chapter 4). -/
def Row.cxlDevProtocols : ObjRow :=
  ⟨0x3200, 8, 0x07, 1, .u8, .rwd, 3, .s, .operate, [3, 0]⟩

/-- LINK_STATUS, 0x3200.10 (Table of chapter 4). -/
def Row.linkStatus : ObjRow :=
  ⟨0x3200, 8, 0x10, 1, .u32, .ro, 3, .v, .none, []⟩

/-- LINK_DOWN_COUNT, 0x3200.11 (Table of chapter 4). -/
def Row.linkDownCount : ObjRow :=
  ⟨0x3200, 8, 0x11, 1, .u32, .ro, 3, .v, .none, []⟩

/-- UR_COUNT, 0x3200.12 (Table of chapter 4). -/
def Row.urCount : ObjRow :=
  ⟨0x3200, 8, 0x12, 1, .u32, .ro, 3, .v, .none, []⟩

/-- FLUSH_COUNT, 0x3200.13 (Table of chapter 4). -/
def Row.flushCount : ObjRow :=
  ⟨0x3200, 8, 0x13, 1, .u64, .ro, 3, .v, .none, []⟩

/-- FLUSH_FAIL_COUNT, 0x3200.14 (Table of chapter 4). -/
def Row.flushFailCount : ObjRow :=
  ⟨0x3200, 8, 0x14, 1, .u32, .ro, 3, .v, .none, []⟩

/-- DOWN_ID, 0x3200.15 (Table of chapter 4). -/
def Row.downId : ObjRow :=
  ⟨0x3200, 8, 0x15, 1, .u32, .ro, 3, .v, .none, []⟩

/-- DOWN_BAR, 0x3200.20 (Table of chapter 4). -/
def Row.downBar : ObjRow :=
  ⟨0x3200, 8, 0x20, 6, .bytes 16, .ro, 3, .v, .none, []⟩

/-- HDM_WINDOW, 0x2200.01 (Table of chapter 4). -/
def Row.hdmWindow : ObjRow :=
  ⟨0x2200, 1, 0x01, 1, .u16, .rwd, 3, .s, .operate, []⟩

/-- CACHE_ENABLE, 0x2200.02 (Table of chapter 4). -/
def Row.cacheEnable : ObjRow :=
  ⟨0x2200, 1, 0x02, 1, .bool, .rwd, 3, .s, .operate, [1]⟩

/-- HOST_PROTOCOL, 0x2200.03 (Table of chapter 4). -/
def Row.hostProtocol : ObjRow :=
  ⟨0x2200, 1, 0x03, 1, .u8, .ro, 3, .v, .none, []⟩

/-- HOST_HDM_BASE, 0x2200.04 (Table of chapter 4). -/
def Row.hostHdmBase : ObjRow :=
  ⟨0x2200, 1, 0x04, 1, .u64, .ro, 3, .v, .none, []⟩

def rowsOf4 : List ObjRow :=
  [Row.role, Row.x16, Row.speedCap, Row.ideEnable, Row.cplTimeout, Row.roEnable, Row.cxlDevProtocols, Row.linkStatus, Row.linkDownCount, Row.urCount, Row.flushCount, Row.flushFailCount] ++
  [Row.downId, Row.downBar, Row.hdmWindow, Row.cacheEnable, Row.hostProtocol, Row.hostHdmBase]

/-! ## Objects of chapter 5 -/

/-- DEFAULT_RING_ENTRIES, 0x2300.01 (Table of chapter 5). -/
def Row.defaultRingEntries : ObjRow :=
  ⟨0x2300, 1, 0x01, 1, .u32, .rwd, 3, .s, .sub 2, [1024]⟩

/-- DEFAULT_POLL, 0x2300.02 (Table of chapter 5). -/
def Row.defaultPoll : ObjRow :=
  ⟨0x2300, 1, 0x02, 1, .u16, .rwd, 3, .s, .sub 2, [40]⟩

/-- TOKEN_QPS, 0x2300.03 (Table of chapter 5). -/
def Row.tokenQps : ObjRow :=
  ⟨0x2300, 1, 0x03, 1, .u32, .ro, 3, .f, .none, [65536]⟩

/-- DOORBELL_COUNT, 0xa200.01 (Table of chapter 5). -/
def Row.doorbellCount : ObjRow :=
  ⟨0xA200, 1, 0x01, 1, .u64, .ro, 3, .v, .none, []⟩

/-- DOORBELL_INVALID_COUNT, 0xa200.02 (Table of chapter 5). -/
def Row.doorbellInvalidCount : ObjRow :=
  ⟨0xA200, 1, 0x02, 1, .u32, .ro, 3, .v, .none, []⟩

/-- DOORBELL_AHEAD_COUNT, 0xa200.03 (Table of chapter 5). -/
def Row.doorbellAheadCount : ObjRow :=
  ⟨0xA200, 1, 0x03, 1, .u32, .ro, 3, .v, .none, []⟩

/-- REREAD_COUNT, 0xa200.04 (Table of chapter 5). -/
def Row.rereadCount : ObjRow :=
  ⟨0xA200, 1, 0x04, 1, .u64, .ro, 3, .v, .none, []⟩

/-- POLL_READ_COUNT, 0xa200.05 (Table of chapter 5). -/
def Row.pollReadCount : ObjRow :=
  ⟨0xA200, 1, 0x05, 1, .u64, .ro, 3, .v, .none, []⟩

/-- TOKEN_REFUSED_COUNT, 0xa200.06 (Table of chapter 5). -/
def Row.tokenRefusedCount : ObjRow :=
  ⟨0xA200, 1, 0x06, 1, .u32, .ro, 3, .v, .none, []⟩

/-- ABORT_COUNT, 0xa200.07 (Table of chapter 5). -/
def Row.abortCount : ObjRow :=
  ⟨0xA200, 1, 0x07, 1, .bytes 12, .ro, 3, .v, .none, []⟩

/-- CQ_OVERFLOW_COUNT, 0xa200.08 (Table of chapter 5). -/
def Row.cqOverflowCount : ObjRow :=
  ⟨0xA200, 1, 0x08, 1, .u32, .ro, 3, .v, .none, []⟩

def rowsOf5 : List ObjRow :=
  [Row.defaultRingEntries, Row.defaultPoll, Row.tokenQps, Row.doorbellCount, Row.doorbellInvalidCount, Row.doorbellAheadCount, Row.rereadCount, Row.pollReadCount, Row.tokenRefusedCount, Row.abortCount, Row.cqOverflowCount]

/-! ## Objects of chapter 6 -/

/-- CTRL_CMD, 0x4000.01 (Table of chapter 6). -/
def Row.ctrlCmd : ObjRow :=
  ⟨0x4000, 1, 0x01, 1, .bytes 1024, .wo, 3, .v, .none, []⟩

/-- CTRL_RESULT, 0x4000.02 (Table of chapter 6). -/
def Row.ctrlResult : ObjRow :=
  ⟨0x4000, 1, 0x02, 1, .bytes 264, .ro, 3, .v, .none, []⟩

/-- ROCE_PORTS, 0x4001.01 (Table of chapter 6). -/
def Row.rocePorts : ObjRow :=
  ⟨0x4001, 1, 0x01, 1, .u8, .rwd, 3, .s, .sub 3, []⟩

/-- ROCE_QPS, 0x4001.02 (Table of chapter 6). -/
def Row.roceQps : ObjRow :=
  ⟨0x4001, 1, 0x02, 1, .u32, .rwd, 3, .s, .sub 3, []⟩

/-- NATIVE_UDP_PORT, 0x4001.03 (Table of chapter 6). -/
def Row.nativeUdpPort : ObjRow :=
  ⟨0x4001, 1, 0x03, 1, .u16, .rwd, 3, .s, .sub 3, [18515]⟩

/-- ROCE_PEERS, 0x4001.04 (Table of chapter 6). -/
def Row.rocePeers : ObjRow :=
  ⟨0x4001, 1, 0x04, 1, .domain (65536 * 32), .rw, 3, .v, .none, []⟩

/-- UNKNOWN_QP_DROP, 0xa300.01 (Table of chapter 6). -/
def Row.unknownQpDrop : ObjRow :=
  ⟨0xA300, 1, 0x01, 1, .u64, .ro, 3, .v, .none, []⟩

/-- QP_MISMATCH_DROP, 0xa300.02 (Table of chapter 6). -/
def Row.qpMismatchDrop : ObjRow :=
  ⟨0xA300, 1, 0x02, 1, .u64, .ro, 3, .v, .none, []⟩

/-- ACCESS_VIOLATION_COUNT, 0xa300.03 (Table of chapter 6). -/
def Row.accessViolationCount : ObjRow :=
  ⟨0xA300, 1, 0x03, 1, .u32, .ro, 3, .v, .none, []⟩

/-- EQ_LOST_COUNT, 0xa300.04 (Table of chapter 6). -/
def Row.eqLostCount : ObjRow :=
  ⟨0xA300, 1, 0x04, 1, .u32, .ro, 3, .v, .none, []⟩

/-- RNR_NAK_COUNT, 0xa300.05 (Table of chapter 6). -/
def Row.rnrNakCount : ObjRow :=
  ⟨0xA300, 1, 0x05, 1, .u64, .ro, 3, .v, .none, []⟩

/-- BAD_HEADER_DROP, 0xa300.06 (Table of chapter 6). -/
def Row.badHeaderDrop : ObjRow :=
  ⟨0xA300, 1, 0x06, 1, .u64, .ro, 3, .v, .none, []⟩

def rowsOf6 : List ObjRow :=
  [Row.ctrlCmd, Row.ctrlResult, Row.rocePorts, Row.roceQps, Row.nativeUdpPort, Row.rocePeers, Row.unknownQpDrop, Row.qpMismatchDrop, Row.accessViolationCount, Row.eqLostCount, Row.rnrNakCount, Row.badHeaderDrop]

/-! ## Objects of chapter 7 -/

/-- RTO_MIN, 0x4002.01 (Table of chapter 7). -/
def Row.rtoMin : ObjRow :=
  ⟨0x4002, 1, 0x01, 1, .u16, .rwd, 3, .s, .sub 3, [20]⟩

/-- RTO_MAX, 0x4002.02 (Table of chapter 7). -/
def Row.rtoMax : ObjRow :=
  ⟨0x4002, 1, 0x02, 1, .u16, .rwd, 3, .s, .sub 3, [50]⟩

/-- RTO_INIT, 0x4002.03 (Table of chapter 7). -/
def Row.rtoInit : ObjRow :=
  ⟨0x4002, 1, 0x03, 1, .u16, .rwd, 3, .s, .sub 3, [200]⟩

/-- REORDER_WINDOW, 0x4002.04 (Table of chapter 7). -/
def Row.reorderWindow : ObjRow :=
  ⟨0x4002, 1, 0x04, 1, .u16, .rwd, 3, .s, .sub 3, [16]⟩

/-- ACK_DELAY, 0x4002.05 (Table of chapter 7). -/
def Row.ackDelay : ObjRow :=
  ⟨0x4002, 1, 0x05, 1, .u8, .rwd, 3, .s, .sub 3, [4]⟩

/-- ACK_COALESCE, 0x4002.06 (Table of chapter 7). -/
def Row.ackCoalesce : ObjRow :=
  ⟨0x4002, 1, 0x06, 1, .u8, .rwd, 3, .s, .sub 3, [8]⟩

/-- ACK_REQ_INTERVAL, 0x4002.07 (Table of chapter 7). -/
def Row.ackReqInterval : ObjRow :=
  ⟨0x4002, 1, 0x07, 1, .u8, .rwd, 3, .s, .sub 3, [32]⟩

/-- RETRY_LIMIT, 0x4002.08 (Table of chapter 7). -/
def Row.retryLimit : ObjRow :=
  ⟨0x4002, 1, 0x08, 1, .u8, .ro, 3, .f, .none, [7]⟩

/-- ATOMIC_CACHE_BLOCKS, 0x4002.09 (Table of chapter 7). -/
def Row.atomicCacheBlocks : ObjRow :=
  ⟨0x4002, 1, 0x09, 1, .u32, .ro, 3, .f, .none, [2097152]⟩

/-- RETX_TIMEOUT, 0xa301.01 (Table of chapter 7). -/
def Row.retxTimeout : ObjRow :=
  ⟨0xA301, 1, 0x01, 1, .u64, .ro, 3, .v, .none, []⟩

/-- RETX_SACK, 0xa301.02 (Table of chapter 7). -/
def Row.retxSack : ObjRow :=
  ⟨0xA301, 1, 0x02, 1, .u64, .ro, 3, .v, .none, []⟩

/-- RETRY_EXCEEDED_COUNT, 0xa301.03 (Table of chapter 7). -/
def Row.retryExceededCount : ObjRow :=
  ⟨0xA301, 1, 0x03, 1, .u32, .ro, 3, .v, .none, []⟩

/-- DUP_DROP, 0xa301.04 (Table of chapter 7). -/
def Row.dupDrop : ObjRow :=
  ⟨0xA301, 1, 0x04, 1, .u64, .ro, 3, .v, .none, []⟩

/-- DUP_REACK, 0xa301.05 (Table of chapter 7). -/
def Row.dupReack : ObjRow :=
  ⟨0xA301, 1, 0x05, 1, .u64, .ro, 3, .v, .none, []⟩

/-- READ_REEXEC, 0xa301.06 (Table of chapter 7). -/
def Row.readReexec : ObjRow :=
  ⟨0xA301, 1, 0x06, 1, .u64, .ro, 3, .v, .none, []⟩

/-- ATOMIC_CACHE_HIT, 0xa301.07 (Table of chapter 7). -/
def Row.atomicCacheHit : ObjRow :=
  ⟨0xA301, 1, 0x07, 1, .u64, .ro, 3, .v, .none, []⟩

/-- ATOMIC_CACHE_MISS, 0xa301.08 (Table of chapter 7). -/
def Row.atomicCacheMiss : ObjRow :=
  ⟨0xA301, 1, 0x08, 1, .u32, .ro, 3, .v, .none, []⟩

/-- NO_ATOMIC_CACHE_COUNT, 0xa301.09 (Table of chapter 7). -/
def Row.noAtomicCacheCount : ObjRow :=
  ⟨0xA301, 1, 0x09, 1, .u32, .ro, 3, .v, .none, []⟩

/-- OUT_OF_WINDOW_DROP, 0xa301.0A (Table of chapter 7). -/
def Row.outOfWindowDrop : ObjRow :=
  ⟨0xA301, 1, 0x0A, 1, .u64, .ro, 3, .v, .none, []⟩

/-- ACK_SENT, 0xa301.0B (Table of chapter 7). -/
def Row.ackSent : ObjRow :=
  ⟨0xA301, 1, 0x0B, 1, .u64, .ro, 3, .v, .none, []⟩

/-- ACK_INVALID, 0xa301.0C (Table of chapter 7). -/
def Row.ackInvalid : ObjRow :=
  ⟨0xA301, 1, 0x0C, 1, .u64, .ro, 3, .v, .none, []⟩

/-- PARK_FULL_RECEIVED, 0xa301.0D (Table of chapter 7). -/
def Row.parkFullReceived : ObjRow :=
  ⟨0xA301, 1, 0x0D, 1, .u64, .ro, 3, .v, .none, []⟩

def rowsOf7 : List ObjRow :=
  [Row.rtoMin, Row.rtoMax, Row.rtoInit, Row.reorderWindow, Row.ackDelay, Row.ackCoalesce, Row.ackReqInterval, Row.retryLimit, Row.atomicCacheBlocks, Row.retxTimeout, Row.retxSack, Row.retryExceededCount] ++
  [Row.dupDrop, Row.dupReack, Row.readReexec, Row.atomicCacheHit, Row.atomicCacheMiss, Row.noAtomicCacheCount, Row.outOfWindowDrop, Row.ackSent, Row.ackInvalid, Row.parkFullReceived]

/-! ## Objects of chapter 8 -/

/-- HOT_LOW_WATERMARK, 0x4100.01 (Table of chapter 8). -/
def Row.hotLowWatermark : ObjRow :=
  ⟨0x4100, 1, 0x01, 1, .u32, .rwd, 3, .s, .sub 4, [4096]⟩

/-- HOT_HIGH_WATERMARK, 0x4100.02 (Table of chapter 8). -/
def Row.hotHighWatermark : ObjRow :=
  ⟨0x4100, 1, 0x02, 1, .u32, .rwd, 3, .s, .sub 4, [16384]⟩

/-- HB_POOL_BASE, 0x4100.03 (Table of chapter 8). -/
def Row.hbPoolBase : ObjRow :=
  ⟨0x4100, 1, 0x03, 1, .u64, .rwd, 3, .s, .sub 4, []⟩

/-- HB_LOCAL_FIRST, 0x4100.04 (Table of chapter 8). -/
def Row.hbLocalFirst : ObjRow :=
  ⟨0x4100, 1, 0x04, 1, .u32, .rwd, 3, .s, .sub 4, []⟩

/-- HB_POOL_SIZE, 0x4100.05 (Table of chapter 8). -/
def Row.hbPoolSize : ObjRow :=
  ⟨0x4100, 1, 0x05, 1, .u64, .ro, 3, .v, .none, []⟩

/-- PARK_HINT_MIN, 0x4100.06 (Table of chapter 8). -/
def Row.parkHintMin : ObjRow :=
  ⟨0x4100, 1, 0x06, 1, .u16, .rwd, 3, .s, .sub 4, [2]⟩

/-- PARK_HINT_MAX, 0x4100.07 (Table of chapter 8). -/
def Row.parkHintMax : ObjRow :=
  ⟨0x4100, 1, 0x07, 1, .u16, .rwd, 3, .s, .sub 4, [100]⟩

/-- HOT_HIT, 0xa400.01 (Table of chapter 8). -/
def Row.hotHit : ObjRow :=
  ⟨0xA400, 1, 0x01, 1, .u64, .ro, 3, .v, .none, []⟩

/-- WARM_MISS, 0xa400.02 (Table of chapter 8). -/
def Row.warmMiss : ObjRow :=
  ⟨0xA400, 1, 0x02, 1, .u64, .ro, 3, .v, .none, []⟩

/-- HB_MISS, 0xa400.03 (Table of chapter 8). -/
def Row.hbMiss : ObjRow :=
  ⟨0xA400, 1, 0x03, 1, .u64, .ro, 3, .v, .none, []⟩

/-- REGION_MISS, 0xa400.04 (Table of chapter 8). -/
def Row.regionMiss : ObjRow :=
  ⟨0xA400, 1, 0x04, 1, .u64, .ro, 3, .v, .none, []⟩

/-- EVICT_COUNT, 0xa400.05 (Table of chapter 8). -/
def Row.evictCount : ObjRow :=
  ⟨0xA400, 1, 0x05, 1, .u64, .ro, 3, .v, .none, []⟩

/-- WRITEBACK_COUNT, 0xa400.06 (Table of chapter 8). -/
def Row.writebackCount : ObjRow :=
  ⟨0xA400, 1, 0x06, 1, .u64, .ro, 3, .v, .none, []⟩

/-- PINNED_NOW, 0xa400.07 (Table of chapter 8). -/
def Row.pinnedNow : ObjRow :=
  ⟨0xA400, 1, 0x07, 1, .u32, .ro, 3, .v, .none, []⟩

/-- PARKED_COUNT, 0xa400.08 (Table of chapter 8). -/
def Row.parkedCount : ObjRow :=
  ⟨0xA400, 1, 0x08, 1, .u64, .ro, 3, .v, .none, []⟩

/-- PARK_FULL_SENT, 0xa400.09 (Table of chapter 8). -/
def Row.parkFullSent : ObjRow :=
  ⟨0xA400, 1, 0x09, 1, .u64, .ro, 3, .v, .none, []⟩

/-- PARK_SUPPRESSED, 0xa400.0A (Table of chapter 8). -/
def Row.parkSuppressed : ObjRow :=
  ⟨0xA400, 1, 0x0A, 1, .u64, .ro, 3, .v, .none, []⟩

/-- PARK_DROP, 0xa400.0B (Table of chapter 8). -/
def Row.parkDrop : ObjRow :=
  ⟨0xA400, 1, 0x0B, 1, .u64, .ro, 3, .v, .none, []⟩

/-- PARK_CELLS, 0xa400.0C (Table of chapter 8). -/
def Row.parkCells : ObjRow :=
  ⟨0xA400, 1, 0x0C, 1, .bytes 16, .ro, 3, .v, .none, []⟩

/-- PARK_RESIDENCY, 0xa400.0D (Table of chapter 8). -/
def Row.parkResidency : ObjRow :=
  ⟨0xA400, 1, 0x0D, 1, .bytes 16, .ro, 3, .v, .none, []⟩

/-- CONTEXT_CHECK_FAIL, 0xa400.0E (Table of chapter 8). -/
def Row.contextCheckFail : ObjRow :=
  ⟨0xA400, 1, 0x0E, 1, .u32, .ro, 3, .v, .none, []⟩

/-- HB_FETCH_FAIL, 0xa400.0F (Table of chapter 8). -/
def Row.hbFetchFail : ObjRow :=
  ⟨0xA400, 1, 0x0F, 1, .u32, .ro, 3, .v, .none, []⟩

/-- CONTEXT_LOST_DROP, 0xa400.10 (Table of chapter 8). -/
def Row.contextLostDrop : ObjRow :=
  ⟨0xA400, 1, 0x10, 1, .u64, .ro, 3, .v, .none, []⟩

/-- HOT_EXHAUSTED_COUNT, 0xa400.11 (Table of chapter 8). -/
def Row.hotExhaustedCount : ObjRow :=
  ⟨0xA400, 1, 0x11, 1, .u32, .ro, 3, .v, .none, []⟩

def rowsOf8 : List ObjRow :=
  [Row.hotLowWatermark, Row.hotHighWatermark, Row.hbPoolBase, Row.hbLocalFirst, Row.hbPoolSize, Row.parkHintMin, Row.parkHintMax, Row.hotHit, Row.warmMiss, Row.hbMiss, Row.regionMiss, Row.evictCount] ++
  [Row.writebackCount, Row.pinnedNow, Row.parkedCount, Row.parkFullSent, Row.parkSuppressed, Row.parkDrop, Row.parkCells, Row.parkResidency, Row.contextCheckFail, Row.hbFetchFail, Row.contextLostDrop, Row.hotExhaustedCount]

/-! ## Objects of chapter 9 -/

/-- UNSCHED_BYTES, 0x7000.01 (Table of chapter 9). -/
def Row.unschedBytes : ObjRow :=
  ⟨0x7000, 1, 0x01, 1, .u32, .rwd, 3, .s, .sub 6, [65536]⟩

/-- GRANT_WINDOW, 0x7000.02 (Table of chapter 9). -/
def Row.grantWindow : ObjRow :=
  ⟨0x7000, 1, 0x02, 1, .u16, .rwd, 3, .s, .sub 6, [8]⟩

/-- GRANT_FLOOR, 0x7000.03 (Table of chapter 9). -/
def Row.grantFloor : ObjRow :=
  ⟨0x7000, 1, 0x03, 1, .u32, .rwd, 3, .s, .sub 6, [1048576]⟩

/-- GRANT_CHUNK, 0x7000.04 (Table of chapter 9). -/
def Row.grantChunk : ObjRow :=
  ⟨0x7000, 1, 0x04, 1, .u16, .rwd, 3, .s, .sub 6, [16]⟩

/-- LAPSE_SLACK, 0x7000.05 (Table of chapter 9). -/
def Row.lapseSlack : ObjRow :=
  ⟨0x7000, 1, 0x05, 1, .u16, .rwd, 3, .s, .sub 6, [20]⟩

/-- HALFPORT_DELAY_LIMIT, 0x7000.06 (Table of chapter 9). -/
def Row.halfportDelayLimit : ObjRow :=
  ⟨0x7000, 1, 0x06, 1, .u16, .rwd, 3, .s, .sub 6, [50]⟩

/-- GRANT_LAPSE, 0x7000.07 (Table of chapter 9). -/
def Row.grantLapse : ObjRow :=
  ⟨0x7000, 1, 0x07, 1, .u16, .ro, 3, .f, .none, [100]⟩

/-- TM_SAMPLE_INTERVAL, 0x7000.08 (Table of chapter 9). -/
def Row.tmSampleInterval : ObjRow :=
  ⟨0x7000, 1, 0x08, 1, .u16, .rwd, 3, .s, .sub 6, [10]⟩

/-- HIST_CLEAR, 0x7000.09 (Table of chapter 9). -/
def Row.histClear : ObjRow :=
  ⟨0x7000, 1, 0x09, 1, .bool, .wo, 3, .v, .none, []⟩

/-- GRANT_UNITS_SENT, 0xa500.01 (Table of chapter 9). -/
def Row.grantUnitsSent : ObjRow :=
  ⟨0xA500, 1, 0x01, 1, .u64, .ro, 3, .v, .none, []⟩

/-- GRANT_RECLAIMED, 0xa500.02 (Table of chapter 9). -/
def Row.grantReclaimed : ObjRow :=
  ⟨0xA500, 1, 0x02, 1, .u64, .ro, 3, .v, .none, []⟩

/-- GRANT_LAPSED, 0xa500.03 (Table of chapter 9). -/
def Row.grantLapsed : ObjRow :=
  ⟨0xA500, 1, 0x03, 1, .u64, .ro, 3, .v, .none, []⟩

/-- GRANT_OVERRUN, 0xa500.04 (Table of chapter 9). -/
def Row.grantOverrun : ObjRow :=
  ⟨0xA500, 1, 0x04, 1, .u64, .ro, 3, .v, .none, []⟩

/-- DEMAND_SENT, 0xa500.05 (Table of chapter 9). -/
def Row.demandSent : ObjRow :=
  ⟨0xA500, 1, 0x05, 1, .u64, .ro, 3, .v, .none, []⟩

/-- GRANT_INVALID, 0xa500.06 (Table of chapter 9). -/
def Row.grantInvalid : ObjRow :=
  ⟨0xA500, 1, 0x06, 1, .u32, .ro, 3, .v, .none, []⟩

/-- HALFPORT_HOLD, 0xa500.07 (Table of chapter 9). -/
def Row.halfportHold : ObjRow :=
  ⟨0xA500, 1, 0x07, 1, .u64, .ro, 3, .v, .none, []⟩

/-- VC_LEVEL, 0x3000.40 (Table of chapter 9). -/
def Row.vcLevel : ObjRow :=
  ⟨0x3000, 4, 0x40, 8, .u8, .rwd, 3, .s, .sub 6, (List.replicate 4 [2, 1, 1, 2, 2, 1, 0, 3]).flatten⟩

/-- VC_WEIGHT, 0x3000.48 (Table of chapter 9). -/
def Row.vcWeight : ObjRow :=
  ⟨0x3000, 4, 0x48, 8, .u8, .rw, 3, .s, .none, (List.replicate 4 [64, 64, 64, 64, 64, 128, 255, 1]).flatten⟩

/-- VC_RATE, 0x3000.50 (Table of chapter 9). -/
def Row.vcRate : ObjRow :=
  ⟨0x3000, 4, 0x50, 8, .u32, .rw, 3, .s, .none, []⟩

/-- VC_BURST, 0x3000.58 (Table of chapter 9). -/
def Row.vcBurst : ObjRow :=
  ⟨0x3000, 4, 0x58, 8, .u32, .rw, 3, .s, .none, [1048576]⟩

/-- DEPTH_HIST, 0x3000.60 (Table of chapter 9). -/
def Row.depthHist : ObjRow :=
  ⟨0x3000, 4, 0x60, 8, .bytes 64, .ro, 3, .v, .none, []⟩

/-- DELAY_HIST, 0x3000.68 (Table of chapter 9). -/
def Row.delayHist : ObjRow :=
  ⟨0x3000, 4, 0x68, 8, .bytes 64, .ro, 3, .v, .none, []⟩

/-- DEPTH_MAX, 0x3000.70 (Table of chapter 9). -/
def Row.depthMax : ObjRow :=
  ⟨0x3000, 4, 0x70, 1, .bytes 32, .ro, 3, .v, .none, []⟩

/-- POLICE_DROP_PORT, 0x3000.71 (Table of chapter 9). -/
def Row.policeDropPort : ObjRow :=
  ⟨0x3000, 4, 0x71, 1, .u64, .ro, 3, .v, .none, []⟩

/-- TX_RATE, 0x7100.01 (Table of chapter 9). -/
def Row.txRate : ObjRow :=
  ⟨0x7100, 1025, 0x01, 4, .u32, .rw, 3, .s, .none, []⟩

/-- TX_BURST, 0x7100.05 (Table of chapter 9). -/
def Row.txBurst : ObjRow :=
  ⟨0x7100, 1025, 0x05, 4, .u32, .rw, 3, .s, .none, [1048576]⟩

/-- POLICE_RATE, 0x7100.09 (Table of chapter 9). -/
def Row.policeRate : ObjRow :=
  ⟨0x7100, 1025, 0x09, 4, .u32, .rw, 3, .s, .none, []⟩

/-- POLICE_BURST, 0x7100.0D (Table of chapter 9). -/
def Row.policeBurst : ObjRow :=
  ⟨0x7100, 1025, 0x0D, 4, .u32, .rw, 3, .s, .none, [1048576]⟩

/-- POLICE_DROP, 0x7100.11 (Table of chapter 9). -/
def Row.policeDrop : ObjRow :=
  ⟨0x7100, 1025, 0x11, 4, .u64, .ro, 3, .v, .none, []⟩

def rowsOf9 : List ObjRow :=
  [Row.unschedBytes, Row.grantWindow, Row.grantFloor, Row.grantChunk, Row.lapseSlack, Row.halfportDelayLimit, Row.grantLapse, Row.tmSampleInterval, Row.histClear, Row.grantUnitsSent, Row.grantReclaimed, Row.grantLapsed] ++
  [Row.grantOverrun, Row.demandSent, Row.grantInvalid, Row.halfportHold, Row.vcLevel, Row.vcWeight, Row.vcRate, Row.vcBurst, Row.depthHist, Row.delayHist, Row.depthMax, Row.policeDropPort] ++
  [Row.txRate, Row.txBurst, Row.policeRate, Row.policeBurst, Row.policeDrop]

/-! ## Objects of chapter 10 -/

/-- PORT_MODE, 0x3000.01 (Table of chapter 10). -/
def Row.portMode : ObjRow :=
  ⟨0x3000, 4, 0x01, 1, .u8, .rwd, 3, .s, .sub 5, [1]⟩

/-- ETH_VLAN, 0x3000.02 (Table of chapter 10). -/
def Row.ethVlan : ObjRow :=
  ⟨0x3000, 4, 0x02, 1, .u16, .rwd, 3, .s, .sub 5, []⟩

/-- ETH_GATEWAY_MAC, 0x3000.03 (Table of chapter 10). -/
def Row.ethGatewayMac : ObjRow :=
  ⟨0x3000, 4, 0x03, 1, .bytes 6, .rw, 11, .s, .none, []⟩

/-- ETH_MAC, 0x3000.04 (Table of chapter 10). -/
def Row.ethMac : ObjRow :=
  ⟨0x3000, 4, 0x04, 1, .bytes 6, .ro, 11, .f, .none, []⟩

/-- PFC_ENABLE, 0x3000.05 (Table of chapter 10). -/
def Row.pfcEnable : ObjRow :=
  ⟨0x3000, 4, 0x05, 1, .bool, .rwd, 3, .s, .sub 5, []⟩

/-- PORT_STATUS, 0x3000.10 (Table of chapter 10). -/
def Row.portStatus : ObjRow :=
  ⟨0x3000, 4, 0x10, 1, .u32, .ro, 11, .v, .none, []⟩

/-- PORT_DOWN_COUNT, 0x3000.11 (Table of chapter 10). -/
def Row.portDownCount : ObjRow :=
  ⟨0x3000, 4, 0x11, 1, .u32, .ro, 11, .v, .none, []⟩

/-- FEC_CORRECTED, 0x3000.12 (Table of chapter 10). -/
def Row.fecCorrected : ObjRow :=
  ⟨0x3000, 4, 0x12, 1, .u64, .ro, 11, .v, .none, []⟩

/-- FEC_UNCORRECTED, 0x3000.13 (Table of chapter 10). -/
def Row.fecUncorrected : ObjRow :=
  ⟨0x3000, 4, 0x13, 1, .u64, .ro, 11, .v, .none, []⟩

/-- CRC_FAIL, 0x3000.14 (Table of chapter 10). -/
def Row.crcFail : ObjRow :=
  ⟨0x3000, 4, 0x14, 1, .u64, .ro, 11, .v, .none, []⟩

/-- REPLAY_COUNT, 0x3000.15 (Table of chapter 10). -/
def Row.replayCount : ObjRow :=
  ⟨0x3000, 4, 0x15, 1, .u64, .ro, 11, .v, .none, []⟩

/-- STOMP_SENT, 0x3000.16 (Table of chapter 10). -/
def Row.stompSent : ObjRow :=
  ⟨0x3000, 4, 0x16, 1, .u64, .ro, 11, .v, .none, []⟩

/-- STOMP_DROP, 0x3000.17 (Table of chapter 10). -/
def Row.stompDrop : ObjRow :=
  ⟨0x3000, 4, 0x17, 1, .u64, .ro, 11, .v, .none, []⟩

/-- WIDTH_CHANGES, 0x3000.18 (Table of chapter 10). -/
def Row.widthChanges : ObjRow :=
  ⟨0x3000, 4, 0x18, 1, .u32, .ro, 11, .v, .none, []⟩

/-- PAUSE_DISCARD, 0x3000.19 (Table of chapter 10). -/
def Row.pauseDiscard : ObjRow :=
  ⟨0x3000, 4, 0x19, 1, .u64, .ro, 3, .v, .none, []⟩

/-- VC_TX, 0x3000.20 (Table of chapter 10). -/
def Row.vcTx : ObjRow :=
  ⟨0x3000, 4, 0x20, 8, .bytes 16, .ro, 11, .v, .none, []⟩

/-- VC_RX, 0x3000.28 (Table of chapter 10). -/
def Row.vcRx : ObjRow :=
  ⟨0x3000, 4, 0x28, 8, .bytes 16, .ro, 11, .v, .none, []⟩

/-- VC_DROP, 0x3000.30 (Table of chapter 10). -/
def Row.vcDrop : ObjRow :=
  ⟨0x3000, 4, 0x30, 8, .bytes 8, .ro, 11, .v, .none, []⟩

/-- VC_STALL_NS, 0x3000.38 (Table of chapter 10). -/
def Row.vcStallNs : ObjRow :=
  ⟨0x3000, 4, 0x38, 8, .u64, .ro, 11, .v, .none, []⟩

/-- LANE_STATUS, 0x3100.01 (Table of chapter 10). -/
def Row.laneStatus : ObjRow :=
  ⟨0x3100, 24, 0x01, 1, .u8, .ro, 11, .v, .none, []⟩

/-- LANE_SYMBOL_ERRORS, 0x3100.02 (Table of chapter 10). -/
def Row.laneSymbolErrors : ObjRow :=
  ⟨0x3100, 24, 0x02, 1, .u64, .ro, 11, .v, .none, []⟩

/-- LANE_SER_LIMIT, 0x3100.03 (Table of chapter 10). -/
def Row.laneSerLimit : ObjRow :=
  ⟨0x3100, 24, 0x03, 1, .u32, .rw, 3, .s, .none, [1000]⟩

/-- LANE_RETIRE_COUNT, 0x3100.04 (Table of chapter 10). -/
def Row.laneRetireCount : ObjRow :=
  ⟨0x3100, 24, 0x04, 1, .u32, .ro, 11, .v, .none, []⟩

/-- MODULE_ADDRESS, 0x7600.01 (Table of chapter 10). -/
def Row.moduleAddress : ObjRow :=
  ⟨0x7600, 1, 0x01, 1, .u32, .rwd, 3, .s, .sub 5, []⟩

/-- TORUS_X, 0x7600.02 (Table of chapter 10). -/
def Row.torusX : ObjRow :=
  ⟨0x7600, 1, 0x02, 1, .u32, .rwd, 3, .s, .sub 5, [1]⟩

/-- TORUS_Y, 0x7600.03 (Table of chapter 10). -/
def Row.torusY : ObjRow :=
  ⟨0x7600, 1, 0x03, 1, .u32, .rwd, 3, .s, .sub 5, [1]⟩

/-- ROUTING_MODE, 0x7600.04 (Table of chapter 10). -/
def Row.routingMode : ObjRow :=
  ⟨0x7600, 1, 0x04, 1, .u8, .rw, 11, .s, .none, [2]⟩

/-- UP_LINKS, 0x7600.05 (Table of chapter 10). -/
def Row.upLinks : ObjRow :=
  ⟨0x7600, 1, 0x05, 1, .u8, .rw, 11, .v, .none, []⟩

/-- UD_BANK, 0x7600.06 (Table of chapter 10). -/
def Row.udBank : ObjRow :=
  ⟨0x7600, 1, 0x06, 1, .u8, .rw, 11, .v, .none, []⟩

/-- UD_TABLE_0, 0x7600.07 (Table of chapter 10). -/
def Row.udTable0 : ObjRow :=
  ⟨0x7600, 1, 0x07, 1, .domain 1048576, .rw, 11, .v, .none, []⟩

/-- UD_TABLE_1, 0x7600.08 (Table of chapter 10). -/
def Row.udTable1 : ObjRow :=
  ⟨0x7600, 1, 0x08, 1, .domain 1048576, .rw, 11, .v, .none, []⟩

/-- PAIR_BASE, 0x7600.09 (Table of chapter 10). -/
def Row.pairBase : ObjRow :=
  ⟨0x7600, 1, 0x09, 1, .u32, .rwd, 3, .s, .sub 5, []⟩

/-- PAIR_LIVE, 0x7600.0A (Table of chapter 10). -/
def Row.pairLive : ObjRow :=
  ⟨0x7600, 1, 0x0A, 1, .domain 131072, .rw, 11, .v, .none, []⟩

/-- STUCK_LIMIT, 0x7600.0B (Table of chapter 10). -/
def Row.stuckLimit : ObjRow :=
  ⟨0x7600, 1, 0x0B, 1, .u32, .rw, 11, .s, .none, [500]⟩

/-- LANE_RETRY_INTERVAL, 0x7600.0C (Table of chapter 10). -/
def Row.laneRetryInterval : ObjRow :=
  ⟨0x7600, 1, 0x0C, 1, .u16, .rw, 3, .s, .none, [10]⟩

/-- ETH_IP_VERSION, 0x7600.0D (Table of chapter 10). -/
def Row.ethIpVersion : ObjRow :=
  ⟨0x7600, 1, 0x0D, 1, .u8, .rwd, 3, .s, .sub 5, [6]⟩

/-- ETH_IPV4_PREFIX, 0x7600.0E (Table of chapter 10). -/
def Row.ethIpv4Prefix : ObjRow :=
  ⟨0x7600, 1, 0x0E, 1, .u32, .rwd, 3, .s, .sub 5, []⟩

/-- ETH_IPV6_PREFIX, 0x7600.0F (Table of chapter 10). -/
def Row.ethIpv6Prefix : ObjRow :=
  ⟨0x7600, 1, 0x0F, 1, .bytes 16, .rwd, 3, .s, .sub 5, []⟩

/-- ROUTE_STATUS, 0x7600.10 (Table of chapter 10). -/
def Row.routeStatus : ObjRow :=
  ⟨0x7600, 1, 0x10, 1, .u32, .ro, 11, .v, .none, []⟩

/-- NOTICE_COUNT, 0x7600.11 (Table of chapter 10). -/
def Row.noticeCount : ObjRow :=
  ⟨0x7600, 1, 0x11, 1, .bytes 8, .ro, 11, .v, .none, []⟩

def rowsOf10 : List ObjRow :=
  [Row.portMode, Row.ethVlan, Row.ethGatewayMac, Row.ethMac, Row.pfcEnable, Row.portStatus, Row.portDownCount, Row.fecCorrected, Row.fecUncorrected, Row.crcFail, Row.replayCount, Row.stompSent] ++
  [Row.stompDrop, Row.widthChanges, Row.pauseDiscard, Row.vcTx, Row.vcRx, Row.vcDrop, Row.vcStallNs, Row.laneStatus, Row.laneSymbolErrors, Row.laneSerLimit, Row.laneRetireCount, Row.moduleAddress] ++
  [Row.torusX, Row.torusY, Row.routingMode, Row.upLinks, Row.udBank, Row.udTable0, Row.udTable1, Row.pairBase, Row.pairLive, Row.stuckLimit, Row.laneRetryInterval, Row.ethIpVersion] ++
  [Row.ethIpv4Prefix, Row.ethIpv6Prefix, Row.routeStatus, Row.noticeCount]

/-! ## Objects of chapter 11 -/

/-- SIZE_CONTEXT, 0x6000.01 (Table of chapter 11). -/
def Row.sizeContext : ObjRow :=
  ⟨0x6000, 1, 0x01, 1, .u16, .rwd, 3, .s, .operate, [8]⟩

/-- SIZE_STATE, 0x6000.02 (Table of chapter 11). -/
def Row.sizeState : ObjRow :=
  ⟨0x6000, 1, 0x02, 1, .u16, .rwd, 3, .s, .operate, [474]⟩

/-- SIZE_CAST, 0x6000.03 (Table of chapter 11). -/
def Row.sizeCast : ObjRow :=
  ⟨0x6000, 1, 0x03, 1, .u16, .rwd, 3, .s, .operate, [948]⟩

/-- SIZE_STAGE, 0x6000.04 (Table of chapter 11). -/
def Row.sizeStage : ObjRow :=
  ⟨0x6000, 1, 0x04, 1, .u16, .rwd, 3, .s, .operate, []⟩

/-- SIZE_HDM, 0x6000.05 (Table of chapter 11). -/
def Row.sizeHdm : ObjRow :=
  ⟨0x6000, 1, 0x05, 1, .u16, .rwd, 3, .s, .operate, []⟩

/-- PRESERVE, 0x6000.06 (Table of chapter 11). -/
def Row.preserve : ObjRow :=
  ⟨0x6000, 1, 0x06, 1, .u8, .rwd, 3, .s, .operate, []⟩

/-- LAYOUT, 0x6000.07 (Table of chapter 11). -/
def Row.layout : ObjRow :=
  ⟨0x6000, 1, 0x07, 1, .bytes 40, .ro, 3, .v, .none, []⟩

/-- MEM_STATUS, 0x6000.08 (Table of chapter 11). -/
def Row.memStatus : ObjRow :=
  ⟨0x6000, 1, 0x08, 1, .u32, .ro, 11, .v, .none, []⟩

/-- INIT_REMAINING, 0x6000.09 (Table of chapter 11). -/
def Row.initRemaining : ObjRow :=
  ⟨0x6000, 1, 0x09, 1, .u32, .ro, 3, .v, .none, []⟩

/-- CE_LIMIT, 0x6000.0A (Table of chapter 11). -/
def Row.ceLimit : ObjRow :=
  ⟨0x6000, 1, 0x0A, 1, .u32, .rw, 3, .s, .none, [10000]⟩

/-- CAST_CMD, 0x6001.01 (Table of chapter 11). -/
def Row.castCmd : ObjRow :=
  ⟨0x6001, 1, 0x01, 1, .bytes 32, .wo, 3, .v, .none, []⟩

/-- CAST_EXTENT, 0x6001.02 (Table of chapter 11). -/
def Row.castExtent : ObjRow :=
  ⟨0x6001, 1, 0x02, 1, .u16, .rw, 3, .s, .none, []⟩

/-- CAST_DIR, 0x6001.03 (Table of chapter 11). -/
def Row.castDir : ObjRow :=
  ⟨0x6001, 1, 0x03, 1, .bytes 128, .ro, 3, .v, .none, []⟩

/-- CAST_RESULT, 0x6001.04 (Table of chapter 11). -/
def Row.castResult : ObjRow :=
  ⟨0x6001, 1, 0x04, 1, .u32, .ro, 3, .v, .none, []⟩

/-- CE_TOTAL, 0xa600.01 (Table of chapter 11). -/
def Row.ceTotal : ObjRow :=
  ⟨0xA600, 1, 0x01, 1, .u64, .ro, 3, .v, .none, []⟩

/-- UE_TOTAL, 0xa600.02 (Table of chapter 11). -/
def Row.ueTotal : ObjRow :=
  ⟨0xA600, 1, 0x02, 1, .u32, .ro, 3, .v, .none, []⟩

/-- UE_LOG, 0xa600.03 (Table of chapter 11). -/
def Row.ueLog : ObjRow :=
  ⟨0xA600, 1, 0x03, 1, .bytes 1024, .ro, 3, .v, .none, []⟩

/-- SCRUB_PASSES, 0xa600.04 (Table of chapter 11). -/
def Row.scrubPasses : ObjRow :=
  ⟨0xA600, 1, 0x04, 1, .u32, .ro, 3, .v, .none, []⟩

/-- HOLD_COUNT, 0xa600.05 (Table of chapter 11). -/
def Row.holdCount : ObjRow :=
  ⟨0xA600, 1, 0x05, 1, .u32, .ro, 3, .v, .none, []⟩

/-- HOLD_DROP, 0xa600.06 (Table of chapter 11). -/
def Row.holdDrop : ObjRow :=
  ⟨0xA600, 1, 0x06, 1, .u64, .ro, 3, .v, .none, []⟩

/-- CH_CE, 0x3300.01 (Table of chapter 11). -/
def Row.chCe : ObjRow :=
  ⟨0x3300, 96, 0x01, 1, .u64, .ro, 3, .v, .none, []⟩

/-- CH_UE, 0x3300.02 (Table of chapter 11). -/
def Row.chUe : ObjRow :=
  ⟨0x3300, 96, 0x02, 1, .u32, .ro, 3, .v, .none, []⟩

/-- CH_DQ_CE, 0x3300.03 (Table of chapter 11). -/
def Row.chDqCe : ObjRow :=
  ⟨0x3300, 96, 0x03, 1, .bytes 64, .ro, 3, .v, .none, []⟩

/-- CH_SCRUB_OFFSET, 0x3300.04 (Table of chapter 11). -/
def Row.chScrubOffset : ObjRow :=
  ⟨0x3300, 96, 0x04, 1, .u32, .ro, 3, .v, .none, []⟩

/-- CH_CHECK_HIT, 0x3300.05 (Table of chapter 11). -/
def Row.chCheckHit : ObjRow :=
  ⟨0x3300, 96, 0x05, 1, .u64, .ro, 3, .v, .none, []⟩

/-- CH_CHECK_MISS, 0x3300.06 (Table of chapter 11). -/
def Row.chCheckMiss : ObjRow :=
  ⟨0x3300, 96, 0x06, 1, .u64, .ro, 3, .v, .none, []⟩

/-- PKG_REFRESH_RATE, 0x3400.01 (Table of chapter 11). -/
def Row.pkgRefreshRate : ObjRow :=
  ⟨0x3400, 24, 0x01, 1, .u8, .ro, 11, .v, .none, []⟩

/-- PKG_CE, 0x3400.02 (Table of chapter 11). -/
def Row.pkgCe : ObjRow :=
  ⟨0x3400, 24, 0x02, 1, .u64, .ro, 3, .v, .none, []⟩

/-- PKG_UE, 0x3400.03 (Table of chapter 11). -/
def Row.pkgUe : ObjRow :=
  ⟨0x3400, 24, 0x03, 1, .u32, .ro, 3, .v, .none, []⟩

def rowsOf11 : List ObjRow :=
  [Row.sizeContext, Row.sizeState, Row.sizeCast, Row.sizeStage, Row.sizeHdm, Row.preserve, Row.layout, Row.memStatus, Row.initRemaining, Row.ceLimit, Row.castCmd, Row.castExtent] ++
  [Row.castDir, Row.castResult, Row.ceTotal, Row.ueTotal, Row.ueLog, Row.scrubPasses, Row.holdCount, Row.holdDrop, Row.chCe, Row.chUe, Row.chDqCe, Row.chScrubOffset] ++
  [Row.chCheckHit, Row.chCheckMiss, Row.pkgRefreshRate, Row.pkgCe, Row.pkgUe]

/-! ## Objects of chapter 12 -/

/-- STAGE_MAX_MEMBERS, 0x5000.01 (Table of chapter 12). -/
def Row.stageMaxMembers : ObjRow :=
  ⟨0x5000, 1, 0x01, 1, .u32, .rwd, 3, .s, .sub 7, [1024]⟩

/-- STAGE_MAX_BYTES, 0x5000.02 (Table of chapter 12). -/
def Row.stageMaxBytes : ObjRow :=
  ⟨0x5000, 1, 0x02, 1, .u32, .rwd, 3, .s, .sub 7, [67108864]⟩

/-- PROGRESS_TIMER, 0x5000.03 (Table of chapter 12). -/
def Row.progressTimer : ObjRow :=
  ⟨0x5000, 1, 0x03, 1, .u32, .rwd, 3, .s, .sub 7, [50]⟩

/-- COLL_TIMEOUT, 0x5000.04 (Table of chapter 12). -/
def Row.collTimeout : ObjRow :=
  ⟨0x5000, 1, 0x04, 1, .u32, .rwd, 3, .s, .sub 7, [5000]⟩

/-- COMM_CAPACITY, 0x5000.05 (Table of chapter 12). -/
def Row.commCapacity : ObjRow :=
  ⟨0x5000, 1, 0x05, 1, .u32, .ro, 3, .f, .none, [4096]⟩

/-- SCHED_CAPACITY, 0x5000.06 (Table of chapter 12). -/
def Row.schedCapacity : ObjRow :=
  ⟨0x5000, 1, 0x06, 1, .u32, .ro, 3, .f, .none, [16384]⟩

/-- COLL_STARTED, 0xa700.01 (Table of chapter 12). -/
def Row.collStarted : ObjRow :=
  ⟨0xA700, 1, 0x01, 1, .u64, .ro, 3, .v, .none, []⟩

/-- COLL_ENDED, 0xa700.02 (Table of chapter 12). -/
def Row.collEnded : ObjRow :=
  ⟨0xA700, 1, 0x02, 1, .bytes 64, .ro, 3, .v, .none, []⟩

/-- CHUNKS_FREE, 0xa700.03 (Table of chapter 12). -/
def Row.chunksFree : ObjRow :=
  ⟨0xA700, 1, 0x03, 1, .u32, .ro, 3, .v, .none, [6144]⟩

/-- QUEUED_FOR_CHUNKS, 0xa700.04 (Table of chapter 12). -/
def Row.queuedForChunks : ObjRow :=
  ⟨0xA700, 1, 0x04, 1, .u32, .ro, 3, .v, .none, []⟩

/-- OVERFLOW_BYTES, 0xa700.05 (Table of chapter 12). -/
def Row.overflowBytes : ObjRow :=
  ⟨0xA700, 1, 0x05, 1, .u64, .ro, 3, .v, .none, []⟩

/-- OVERFLOW_REFUSED, 0xa700.06 (Table of chapter 12). -/
def Row.overflowRefused : ObjRow :=
  ⟨0xA700, 1, 0x06, 1, .u64, .ro, 3, .v, .none, []⟩

/-- STALE_EPOCH_DROP, 0xa700.07 (Table of chapter 12). -/
def Row.staleEpochDrop : ObjRow :=
  ⟨0xA700, 1, 0x07, 1, .u64, .ro, 3, .v, .none, []⟩

/-- COLL_LATE_DROP, 0xa700.08 (Table of chapter 12). -/
def Row.collLateDrop : ObjRow :=
  ⟨0xA700, 1, 0x08, 1, .u64, .ro, 3, .v, .none, []⟩

/-- NOTICE_SENT, 0xa700.09 (Table of chapter 12). -/
def Row.noticeSent : ObjRow :=
  ⟨0xA700, 1, 0x09, 1, .u64, .ro, 3, .v, .none, []⟩

def rowsOf12 : List ObjRow :=
  [Row.stageMaxMembers, Row.stageMaxBytes, Row.progressTimer, Row.collTimeout, Row.commCapacity, Row.schedCapacity, Row.collStarted, Row.collEnded, Row.chunksFree, Row.queuedForChunks, Row.overflowBytes, Row.overflowRefused] ++
  [Row.staleEpochDrop, Row.collLateDrop, Row.noticeSent]

/-! ## Objects of chapter 13 -/

/-- LEVEL_FORMAT, 0x5100.01 (Table of chapter 13). -/
def Row.levelFormat : ObjRow :=
  ⟨0x5100, 1, 0x01, 4, .u8, .rwd, 3, .s, .sub 8, [1, 2, 6, 6]⟩

/-- LEVEL_ROUND, 0x5100.05 (Table of chapter 13). -/
def Row.levelRound : ObjRow :=
  ⟨0x5100, 1, 0x05, 4, .u8, .rwd, 3, .s, .sub 8, [1]⟩

/-- ACTIVE_RAUS, 0x5100.09 (Table of chapter 13). -/
def Row.activeRaus : ObjRow :=
  ⟨0x5100, 1, 0x09, 1, .u8, .ro, 11, .v, .none, [64]⟩

/-- BIND_CAPACITY, 0x5100.0A (Table of chapter 13). -/
def Row.bindCapacity : ObjRow :=
  ⟨0x5100, 1, 0x0A, 1, .u32, .ro, 3, .f, .none, [16384]⟩

/-- ELEMENT_GROUPS, 0xa800.01 (Table of chapter 13). -/
def Row.elementGroups : ObjRow :=
  ⟨0xA800, 1, 0x01, 1, .u64, .ro, 3, .v, .none, []⟩

/-- SATURATIONS, 0xa800.02 (Table of chapter 13). -/
def Row.saturations : ObjRow :=
  ⟨0xA800, 1, 0x02, 1, .u64, .ro, 3, .v, .none, []⟩

/-- OVERFLOW_INF, 0xa800.03 (Table of chapter 13). -/
def Row.overflowInf : ObjRow :=
  ⟨0xA800, 1, 0x03, 1, .u64, .ro, 3, .v, .none, []⟩

/-- NAN_RESULTS, 0xa800.04 (Table of chapter 13). -/
def Row.nanResults : ObjRow :=
  ⟨0xA800, 1, 0x04, 1, .u64, .ro, 3, .v, .none, []⟩

/-- EF_ELEMENTS, 0xa800.05 (Table of chapter 13). -/
def Row.efElements : ObjRow :=
  ⟨0xA800, 1, 0x05, 1, .u64, .ro, 3, .v, .none, []⟩

/-- ARITH_UNBOUND, 0xa800.06 (Table of chapter 13). -/
def Row.arithUnbound : ObjRow :=
  ⟨0xA800, 1, 0x06, 1, .u32, .ro, 3, .v, .none, []⟩

/-- BIND_WAIT, 0xa800.07 (Table of chapter 13). -/
def Row.bindWait : ObjRow :=
  ⟨0xA800, 1, 0x07, 1, .u64, .ro, 3, .v, .none, []⟩

/-- RAU_ROLE, 0x3500.01 (Table of chapter 13). -/
def Row.rauRole : ObjRow :=
  ⟨0x3500, 68, 0x01, 1, .u8, .ro, 11, .v, .none, List.replicate 64 0 ++ [1]⟩

/-- RAU_LOGICAL, 0x3500.02 (Table of chapter 13). -/
def Row.rauLogical : ObjRow :=
  ⟨0x3500, 68, 0x02, 1, .u8, .ro, 11, .v, .none, List.range 64 ++ [0xFF]⟩

/-- RAU_GROUPS, 0x3500.03 (Table of chapter 13). -/
def Row.rauGroups : ObjRow :=
  ⟨0x3500, 68, 0x03, 1, .u64, .ro, 3, .v, .none, []⟩

def rowsOf13 : List ObjRow :=
  [Row.levelFormat, Row.levelRound, Row.activeRaus, Row.bindCapacity, Row.elementGroups, Row.saturations, Row.overflowInf, Row.nanResults, Row.efElements, Row.arithUnbound, Row.bindWait, Row.rauRole] ++
  [Row.rauLogical, Row.rauGroups]

/-! ## Objects of chapter 14 -/

/-- KERNEL_CAPACITY, 0x5200.01 (Table of chapter 14). -/
def Row.kernelCapacity : ObjRow :=
  ⟨0x5200, 1, 0x01, 1, .u32, .ro, 3, .f, .none, [4096]⟩

/-- SHARD_CAPACITY, 0x5200.02 (Table of chapter 14). -/
def Row.shardCapacity : ObjRow :=
  ⟨0x5200, 1, 0x02, 1, .u32, .ro, 3, .f, .none, [4096]⟩

/-- APPLY_PHASES, 0xa900.01 (Table of chapter 14). -/
def Row.applyPhases : ObjRow :=
  ⟨0xA900, 1, 0x01, 1, .u64, .ro, 3, .v, .none, []⟩

/-- APPLY_GROUPS, 0xa900.02 (Table of chapter 14). -/
def Row.applyGroups : ObjRow :=
  ⟨0xA900, 1, 0x02, 1, .u64, .ro, 3, .v, .none, []⟩

/-- APPLY_TORN_COUNT, 0xa900.03 (Table of chapter 14). -/
def Row.applyTornCount : ObjRow :=
  ⟨0xA900, 1, 0x03, 1, .u32, .ro, 3, .v, .none, []⟩

/-- APPLY_UNBOUND, 0xa900.04 (Table of chapter 14). -/
def Row.applyUnbound : ObjRow :=
  ⟨0xA900, 1, 0x04, 1, .u32, .ro, 3, .v, .none, []⟩

/-- APPLY_WAIT, 0xa900.05 (Table of chapter 14). -/
def Row.applyWait : ObjRow :=
  ⟨0xA900, 1, 0x05, 1, .u64, .ro, 3, .v, .none, []⟩

/-- NONFINITE_G, 0xa900.06 (Table of chapter 14). -/
def Row.nonfiniteG : ObjRow :=
  ⟨0xA900, 1, 0x06, 1, .u64, .ro, 3, .v, .none, []⟩

def rowsOf14 : List ObjRow :=
  [Row.kernelCapacity, Row.shardCapacity, Row.applyPhases, Row.applyGroups, Row.applyTornCount, Row.applyUnbound, Row.applyWait, Row.nonfiniteG]

/-! ## Objects of chapter 15 -/

/-- ROTATE_INTERVAL, 0x9000.01 (Table of chapter 15). -/
def Row.rotateInterval : ObjRow :=
  ⟨0x9000, 1, 0x01, 1, .u32, .rw, 3, .s, .none, [600]⟩

/-- SUSPECT_LIMIT, 0x9000.02 (Table of chapter 15). -/
def Row.suspectLimit : ObjRow :=
  ⟨0x9000, 1, 0x02, 1, .u8, .rw, 3, .s, .none, [8]⟩

/-- SPARES_FREE, 0x9000.03 (Table of chapter 15). -/
def Row.sparesFree : ObjRow :=
  ⟨0x9000, 1, 0x03, 1, .u8, .ro, 11, .v, .none, [4]⟩

/-- ROTATION_STATE, 0x9000.04 (Table of chapter 15). -/
def Row.rotationState : ObjRow :=
  ⟨0x9000, 1, 0x04, 1, .u16, .ro, 3, .v, .none, [0xff00]⟩

/-- RECORD_NEXT, 0x9001.01 (Table of chapter 15). -/
def Row.recordNext : ObjRow :=
  ⟨0x9001, 1, 0x01, 1, .u32, .ro, 3, .v, .none, []⟩

/-- RECORD_OLDEST, 0x9001.02 (Table of chapter 15). -/
def Row.recordOldest : ObjRow :=
  ⟨0x9001, 1, 0x02, 1, .u32, .ro, 3, .v, .none, []⟩

/-- RECORD_SELECT, 0x9001.03 (Table of chapter 15). -/
def Row.recordSelect : ObjRow :=
  ⟨0x9001, 1, 0x03, 1, .u32, .rw, 3, .v, .none, []⟩

/-- RECORD_DATA, 0x9001.04 (Table of chapter 15). -/
def Row.recordData : ObjRow :=
  ⟨0x9001, 1, 0x04, 1, .bytes 512, .ro, 3, .v, .none, []⟩

/-- RECORD_EXPORTED, 0x9001.05 (Table of chapter 15). -/
def Row.recordExported : ObjRow :=
  ⟨0x9001, 1, 0x05, 1, .u32, .rw, 3, .v, .none, []⟩

/-- RECORD_LOST, 0x9001.06 (Table of chapter 15). -/
def Row.recordLost : ObjRow :=
  ⟨0x9001, 1, 0x06, 1, .u32, .ro, 3, .v, .none, []⟩

/-- PATTERN_COUNT, 0x9002.01 (Table of chapter 15). -/
def Row.patternCount : ObjRow :=
  ⟨0x9002, 1, 0x01, 1, .bytes 8, .ro, 3, .v, .none, []⟩

/-- PATTERN_TABLE, 0x9002.02 (Table of chapter 15). -/
def Row.patternTable : ObjRow :=
  ⟨0x9002, 1, 0x02, 1, .domain (4096 * 64), .ro, 3, .v, .none, []⟩

/-- PATTERN_IMPORT, 0x9002.03 (Table of chapter 15). -/
def Row.patternImport : ObjRow :=
  ⟨0x9002, 1, 0x03, 1, .bytes 1024, .wo, 3, .v, .none, []⟩

/-- PATTERN_IMPORT_RESULT, 0x9002.04 (Table of chapter 15). -/
def Row.patternImportResult : ObjRow :=
  ⟨0x9002, 1, 0x04, 1, .bytes 12, .ro, 3, .v, .none, []⟩

/-- RESIDUE_MISMATCH, 0xaa00.01 (Table of chapter 15). -/
def Row.residueMismatch : ObjRow :=
  ⟨0xAA00, 1, 0x01, 1, .u64, .ro, 3, .v, .none, []⟩

/-- VERDICTS, 0xaa00.02 (Table of chapter 15). -/
def Row.verdicts : ObjRow :=
  ⟨0xAA00, 1, 0x02, 1, .bytes 12, .ro, 3, .v, .none, []⟩

/-- ROTATIONS, 0xaa00.03 (Table of chapter 15). -/
def Row.rotations : ObjRow :=
  ⟨0xAA00, 1, 0x03, 1, .u32, .ro, 3, .v, .none, []⟩

/-- ROTATION_SKIPPED, 0xaa00.04 (Table of chapter 15). -/
def Row.rotationSkipped : ObjRow :=
  ⟨0xAA00, 1, 0x04, 1, .u32, .ro, 3, .v, .none, []⟩

/-- SCAN_FAIL_COUNT, 0xaa00.05 (Table of chapter 15). -/
def Row.scanFailCount : ObjRow :=
  ⟨0xAA00, 1, 0x05, 1, .u32, .ro, 3, .v, .none, []⟩

/-- PATTERN_RUNS, 0xaa00.06 (Table of chapter 15). -/
def Row.patternRuns : ObjRow :=
  ⟨0xAA00, 1, 0x06, 1, .u64, .ro, 3, .v, .none, []⟩

/-- RAU_MISMATCH, 0x3500.04 (Table of chapter 15). -/
def Row.rauMismatch : ObjRow :=
  ⟨0x3500, 68, 0x04, 1, .u32, .ro, 3, .v, .none, []⟩

/-- RAU_SUSPECT, 0x3500.05 (Table of chapter 15). -/
def Row.rauSuspect : ObjRow :=
  ⟨0x3500, 68, 0x05, 1, .u8, .ro, 3, .v, .none, []⟩

/-- RAU_LAST_SCAN, 0x3500.06 (Table of chapter 15). -/
def Row.rauLastScan : ObjRow :=
  ⟨0x3500, 68, 0x06, 1, .u64, .ro, 3, .v, .none, []⟩

def rowsOf15 : List ObjRow :=
  [Row.rotateInterval, Row.suspectLimit, Row.sparesFree, Row.rotationState, Row.recordNext, Row.recordOldest, Row.recordSelect, Row.recordData, Row.recordExported, Row.recordLost, Row.patternCount, Row.patternTable] ++
  [Row.patternImport, Row.patternImportResult, Row.residueMismatch, Row.verdicts, Row.rotations, Row.rotationSkipped, Row.scanFailCount, Row.patternRuns, Row.rauMismatch, Row.rauSuspect, Row.rauLastScan]

/-! ## Objects of chapter 16 -/

/-- PAIR_STATE, 0x9100.01 (Table of chapter 16). -/
def Row.pairState : ObjRow :=
  ⟨0x9100, 1, 0x01, 1, .u8, .ro, 11, .v, .none, []⟩

/-- PAIR_POSITION, 0x9100.02 (Table of chapter 16). -/
def Row.pairPosition : ObjRow :=
  ⟨0x9100, 1, 0x02, 1, .u8, .ro, 11, .v, .none, []⟩

/-- PAIR_ADDRESS, 0x9100.03 (Table of chapter 16). -/
def Row.pairAddress : ObjRow :=
  ⟨0x9100, 1, 0x03, 1, .u32, .ro, 11, .v, .none, []⟩

/-- PAIR_PEER_SERIAL, 0x9100.04 (Table of chapter 16). -/
def Row.pairPeerSerial : ObjRow :=
  ⟨0x9100, 1, 0x04, 1, .string, .rwd, 3, .s, .sub 11, []⟩

/-- PARTNER_SERIAL, 0x9100.05 (Table of chapter 16). -/
def Row.partnerSerial : ObjRow :=
  ⟨0x9100, 1, 0x05, 1, .string, .ro, 3, .v, .none, []⟩

/-- PAIR_FAULT, 0x9100.06 (Table of chapter 16). -/
def Row.pairFault : ObjRow :=
  ⟨0x9100, 1, 0x06, 1, .u8, .ro, 3, .v, .none, []⟩

/-- MIRROR_LAG, 0x9100.07 (Table of chapter 16). -/
def Row.mirrorLag : ObjRow :=
  ⟨0x9100, 1, 0x07, 1, .u32, .ro, 3, .v, .none, []⟩

/-- SYNC_PROGRESS, 0x9100.08 (Table of chapter 16). -/
def Row.syncProgress : ObjRow :=
  ⟨0x9100, 1, 0x08, 1, .u32, .ro, 3, .v, .none, []⟩

/-- HEARTBEAT_INTERVAL, 0x9100.09 (Table of chapter 16). -/
def Row.heartbeatInterval : ObjRow :=
  ⟨0x9100, 1, 0x09, 1, .u16, .ro, 3, .f, .none, [2000]⟩

/-- LOSS_MISSES, 0x9100.0A (Table of chapter 16). -/
def Row.lossMisses : ObjRow :=
  ⟨0x9100, 1, 0x0A, 1, .u8, .ro, 3, .f, .none, [10]⟩

/-- RECORDS_SENT, 0xab00.01 (Table of chapter 16). -/
def Row.recordsSent : ObjRow :=
  ⟨0xAB00, 1, 0x01, 1, .u64, .ro, 3, .v, .none, []⟩

/-- RECORDS_RESENT, 0xab00.02 (Table of chapter 16). -/
def Row.recordsResent : ObjRow :=
  ⟨0xAB00, 1, 0x02, 1, .u64, .ro, 3, .v, .none, []⟩

/-- TAKEOVERS, 0xab00.03 (Table of chapter 16). -/
def Row.takeovers : ObjRow :=
  ⟨0xAB00, 1, 0x03, 1, .u32, .ro, 3, .v, .none, []⟩

/-- YIELDS, 0xab00.04 (Table of chapter 16). -/
def Row.yields : ObjRow :=
  ⟨0xAB00, 1, 0x04, 1, .u32, .ro, 3, .v, .none, []⟩

/-- UNCERTAIN_ATOMICS, 0xab00.05 (Table of chapter 16). -/
def Row.uncertainAtomics : ObjRow :=
  ⟨0xAB00, 1, 0x05, 1, .u32, .ro, 3, .v, .none, []⟩

/-- RESYNC_CQES, 0xab00.06 (Table of chapter 16). -/
def Row.resyncCqes : ObjRow :=
  ⟨0xAB00, 1, 0x06, 1, .u64, .ro, 3, .v, .none, []⟩

/-- SHADOW_FORWARD, 0xab00.07 (Table of chapter 16). -/
def Row.shadowForward : ObjRow :=
  ⟨0xAB00, 1, 0x07, 1, .u64, .ro, 3, .v, .none, []⟩

def rowsOf16 : List ObjRow :=
  [Row.pairState, Row.pairPosition, Row.pairAddress, Row.pairPeerSerial, Row.partnerSerial, Row.pairFault, Row.mirrorLag, Row.syncProgress, Row.heartbeatInterval, Row.lossMisses, Row.recordsSent, Row.recordsResent] ++
  [Row.takeovers, Row.yields, Row.uncertainAtomics, Row.resyncCqes, Row.shadowForward]

/-! ## Objects of chapter 17 -/

/-- FUNC_NUMBER, 0xc000.01 (Table of chapter 17). -/
def Row.funcNumber : ObjRow :=
  ⟨0xC000, 1, 0x01, 1, .u16, .ro, 7, .v, .none, []⟩

/-- SHARE_INDEX, 0xc000.02 (Table of chapter 17). -/
def Row.shareIndex : ObjRow :=
  ⟨0xC000, 1, 0x02, 1, .u16, .ro, 7, .v, .none, []⟩

/-- FUNC_STATE, 0xc000.03 (Table of chapter 17). -/
def Row.funcState : ObjRow :=
  ⟨0xC000, 1, 0x03, 1, .u8, .ro, 7, .v, .none, [1]⟩

/-- SHARE_LIMITS, 0xc000.04 (Table of chapter 17). -/
def Row.shareLimits : ObjRow :=
  ⟨0xC000, 1, 0x04, 1, .bytes 80, .ro, 7, .v, .none, []⟩

/-- MSG_TO_PF, 0xc001.01 (Table of chapter 17). -/
def Row.msgToPf : ObjRow :=
  ⟨0xC001, 1, 0x01, 1, .bytes 256, .rw, 7, .v, .none, []⟩

/-- MSG_TO_PF_SEQ, 0xc001.02 (Table of chapter 17). -/
def Row.msgToPfSeq : ObjRow :=
  ⟨0xC001, 1, 0x02, 1, .u32, .ro, 7, .v, .none, []⟩

/-- MSG_FROM_PF, 0xc001.03 (Table of chapter 17). -/
def Row.msgFromPf : ObjRow :=
  ⟨0xC001, 1, 0x03, 1, .bytes 256, .rw, 7, .v, .none, []⟩

/-- MSG_FROM_PF_SEQ, 0xc001.04 (Table of chapter 17). -/
def Row.msgFromPfSeq : ObjRow :=
  ⟨0xC001, 1, 0x04, 1, .u32, .ro, 7, .v, .none, []⟩

/-- SHARE_COUNT, 0x2400.01 (Table of chapter 17). -/
def Row.shareCount : ObjRow :=
  ⟨0x2400, 1, 0x01, 1, .u16, .rwd, 3, .s, .operate, [1]⟩

/-- VFS_ENABLED, 0x2400.02 (Table of chapter 17). -/
def Row.vfsEnabled : ObjRow :=
  ⟨0x2400, 1, 0x02, 1, .u16, .ro, 3, .v, .none, []⟩

/-- FREEZE_HINT, 0x2400.03 (Table of chapter 17). -/
def Row.freezeHint : ObjRow :=
  ⟨0x2400, 1, 0x03, 1, .u16, .rw, 3, .s, .none, [20000]⟩

/-- FROZEN_DROP, 0xac00.01 (Table of chapter 17). -/
def Row.frozenDrop : ObjRow :=
  ⟨0xAC00, 1, 0x01, 1, .u64, .ro, 3, .v, .none, []⟩

/-- FORWARDED, 0xac00.02 (Table of chapter 17). -/
def Row.forwarded : ObjRow :=
  ⟨0xAC00, 1, 0x02, 1, .u64, .ro, 3, .v, .none, []⟩

/-- FLR_COUNT, 0xac00.03 (Table of chapter 17). -/
def Row.flrCount : ObjRow :=
  ⟨0xAC00, 1, 0x03, 1, .u32, .ro, 3, .v, .none, []⟩

/-- VF_DOORBELL_COUNT, 0xc002.01 (Table of chapter 17). -/
def Row.vfDoorbellCount : ObjRow :=
  ⟨0xC002, 1, 0x01, 1, .u64, .ro, 7, .v, .none, []⟩

/-- VF_DOORBELL_INVALID_COUNT, 0xc002.02 (Table of chapter 17). -/
def Row.vfDoorbellInvalidCount : ObjRow :=
  ⟨0xC002, 1, 0x02, 1, .u32, .ro, 7, .v, .none, []⟩

/-- VF_DOORBELL_AHEAD_COUNT, 0xc002.03 (Table of chapter 17). -/
def Row.vfDoorbellAheadCount : ObjRow :=
  ⟨0xC002, 1, 0x03, 1, .u32, .ro, 7, .v, .none, []⟩

/-- VF_REREAD_COUNT, 0xc002.04 (Table of chapter 17). -/
def Row.vfRereadCount : ObjRow :=
  ⟨0xC002, 1, 0x04, 1, .u64, .ro, 7, .v, .none, []⟩

/-- VF_POLL_READ_COUNT, 0xc002.05 (Table of chapter 17). -/
def Row.vfPollReadCount : ObjRow :=
  ⟨0xC002, 1, 0x05, 1, .u64, .ro, 7, .v, .none, []⟩

/-- VF_TOKEN_REFUSED_COUNT, 0xc002.06 (Table of chapter 17). -/
def Row.vfTokenRefusedCount : ObjRow :=
  ⟨0xC002, 1, 0x06, 1, .u32, .ro, 7, .v, .none, []⟩

/-- VF_ABORT_COUNT, 0xc002.07 (Table of chapter 17). -/
def Row.vfAbortCount : ObjRow :=
  ⟨0xC002, 1, 0x07, 1, .bytes 12, .ro, 7, .v, .none, []⟩

/-- VF_CQ_OVERFLOW_COUNT, 0xc002.08 (Table of chapter 17). -/
def Row.vfCqOverflowCount : ObjRow :=
  ⟨0xC002, 1, 0x08, 1, .u32, .ro, 7, .v, .none, []⟩

/-- VF_TX_RATE, 0xc003.01 (Table of chapter 17). -/
def Row.vfTxRate : ObjRow :=
  ⟨0xC003, 1, 0x01, 4, .u32, .ro, 7, .v, .none, []⟩

/-- VF_TX_BURST, 0xc003.05 (Table of chapter 17). -/
def Row.vfTxBurst : ObjRow :=
  ⟨0xC003, 1, 0x05, 4, .u32, .ro, 7, .v, .none, [1048576]⟩

/-- VF_POLICE_RATE, 0xc003.09 (Table of chapter 17). -/
def Row.vfPoliceRate : ObjRow :=
  ⟨0xC003, 1, 0x09, 4, .u32, .ro, 7, .v, .none, []⟩

/-- VF_POLICE_BURST, 0xc003.0D (Table of chapter 17). -/
def Row.vfPoliceBurst : ObjRow :=
  ⟨0xC003, 1, 0x0D, 4, .u32, .ro, 7, .v, .none, [1048576]⟩

/-- VF_POLICE_DROP, 0xc003.11 (Table of chapter 17). -/
def Row.vfPoliceDrop : ObjRow :=
  ⟨0xC003, 1, 0x11, 4, .u64, .ro, 7, .v, .none, []⟩

/-- VF_COLL_STARTED, 0xc004.01 (Table of chapter 17). -/
def Row.vfCollStarted : ObjRow :=
  ⟨0xC004, 1, 0x01, 1, .u64, .ro, 7, .v, .none, []⟩

/-- VF_COLL_ENDED, 0xc004.02 (Table of chapter 17). -/
def Row.vfCollEnded : ObjRow :=
  ⟨0xC004, 1, 0x02, 1, .bytes 64, .ro, 7, .v, .none, []⟩

/-- VF_CHUNKS_FREE, 0xc004.03 (Table of chapter 17). -/
def Row.vfChunksFree : ObjRow :=
  ⟨0xC004, 1, 0x03, 1, .u32, .ro, 7, .v, .none, [6144]⟩

/-- VF_QUEUED_FOR_CHUNKS, 0xc004.04 (Table of chapter 17). -/
def Row.vfQueuedForChunks : ObjRow :=
  ⟨0xC004, 1, 0x04, 1, .u32, .ro, 7, .v, .none, []⟩

/-- VF_OVERFLOW_BYTES, 0xc004.05 (Table of chapter 17). -/
def Row.vfOverflowBytes : ObjRow :=
  ⟨0xC004, 1, 0x05, 1, .u64, .ro, 7, .v, .none, []⟩

/-- VF_OVERFLOW_REFUSED, 0xc004.06 (Table of chapter 17). -/
def Row.vfOverflowRefused : ObjRow :=
  ⟨0xC004, 1, 0x06, 1, .u64, .ro, 7, .v, .none, []⟩

/-- VF_STALE_EPOCH_DROP, 0xc004.07 (Table of chapter 17). -/
def Row.vfStaleEpochDrop : ObjRow :=
  ⟨0xC004, 1, 0x07, 1, .u64, .ro, 7, .v, .none, []⟩

/-- VF_COLL_LATE_DROP, 0xc004.08 (Table of chapter 17). -/
def Row.vfCollLateDrop : ObjRow :=
  ⟨0xC004, 1, 0x08, 1, .u64, .ro, 7, .v, .none, []⟩

/-- VF_NOTICE_SENT, 0xc004.09 (Table of chapter 17). -/
def Row.vfNoticeSent : ObjRow :=
  ⟨0xC004, 1, 0x09, 1, .u64, .ro, 7, .v, .none, []⟩

/-- VF_ARITH_UNBOUND, 0xc005.01 (Table of chapter 17). -/
def Row.vfArithUnbound : ObjRow :=
  ⟨0xC005, 1, 0x01, 1, .u32, .ro, 7, .v, .none, []⟩

/-- VF_BIND_WAIT, 0xc005.02 (Table of chapter 17). -/
def Row.vfBindWait : ObjRow :=
  ⟨0xC005, 1, 0x02, 1, .u64, .ro, 7, .v, .none, []⟩

/-- VF_APPLY_UNBOUND, 0xc005.03 (Table of chapter 17). -/
def Row.vfApplyUnbound : ObjRow :=
  ⟨0xC005, 1, 0x03, 1, .u32, .ro, 7, .v, .none, []⟩

/-- VF_APPLY_WAIT, 0xc005.04 (Table of chapter 17). -/
def Row.vfApplyWait : ObjRow :=
  ⟨0xC005, 1, 0x04, 1, .u64, .ro, 7, .v, .none, []⟩

/-- VF_NONFINITE_G, 0xc005.05 (Table of chapter 17). -/
def Row.vfNonfiniteG : ObjRow :=
  ⟨0xC005, 1, 0x05, 1, .u64, .ro, 7, .v, .none, []⟩

def rowsOf17 : List ObjRow :=
  [Row.funcNumber, Row.shareIndex, Row.funcState, Row.shareLimits, Row.msgToPf, Row.msgToPfSeq, Row.msgFromPf, Row.msgFromPfSeq, Row.shareCount, Row.vfsEnabled, Row.freezeHint, Row.frozenDrop] ++
  [Row.forwarded, Row.flrCount, Row.vfDoorbellCount, Row.vfDoorbellInvalidCount, Row.vfDoorbellAheadCount, Row.vfRereadCount, Row.vfPollReadCount, Row.vfTokenRefusedCount, Row.vfAbortCount, Row.vfCqOverflowCount, Row.vfTxRate, Row.vfTxBurst] ++
  [Row.vfPoliceRate, Row.vfPoliceBurst, Row.vfPoliceDrop, Row.vfCollStarted, Row.vfCollEnded, Row.vfChunksFree, Row.vfQueuedForChunks, Row.vfOverflowBytes, Row.vfOverflowRefused, Row.vfStaleEpochDrop, Row.vfCollLateDrop, Row.vfNoticeSent] ++
  [Row.vfArithUnbound, Row.vfBindWait, Row.vfApplyUnbound, Row.vfApplyWait, Row.vfNonfiniteG]

/-! ## Objects of chapter 18 -/

/-- FW_SVN, 0x8000.01 (Table of chapter 18). -/
def Row.fwSvn : ObjRow :=
  ⟨0x8000, 1, 0x01, 1, .u16, .ro, 11, .v, .none, []⟩

/-- SVN_MIN, 0x8000.02 (Table of chapter 18). -/
def Row.svnMin : ObjRow :=
  ⟨0x8000, 1, 0x02, 1, .u16, .ro, 3, .f, .none, []⟩

/-- SVN_COMMIT, 0x8000.03 (Table of chapter 18). -/
def Row.svnCommit : ObjRow :=
  ⟨0x8000, 1, 0x03, 1, .bool, .wo, 3, .v, .none, []⟩

/-- BOOT_VERIFY, 0x8000.04 (Table of chapter 18). -/
def Row.bootVerify : ObjRow :=
  ⟨0x8000, 1, 0x04, 1, .u8, .ro, 3, .v, .none, []⟩

/-- SIGNER_HASH, 0x8000.05 (Table of chapter 18). -/
def Row.signerHash : ObjRow :=
  ⟨0x8000, 1, 0x05, 1, .bytes 64, .ro, 3, .f, .none, []⟩

/-- CERT_CHAIN, 0x8001.01 (Table of chapter 18). -/
def Row.certChain : ObjRow :=
  ⟨0x8001, 1, 0x01, 1, .domain 65535, .ro, 11, .f, .none, []⟩

/-- OWNER_ROOT, 0x8001.02 (Table of chapter 18). -/
def Row.ownerRoot : ObjRow :=
  ⟨0x8001, 1, 0x02, 1, .bytes 64, .rw, 3, .s, .none, []⟩

/-- KEY_CMD, 0x8002.01 (Table of chapter 18). -/
def Row.keyCmd : ObjRow :=
  ⟨0x8002, 1, 0x01, 1, .bytes 64, .wo, 3, .v, .none, []⟩

/-- KEY_RESULT, 0x8002.02 (Table of chapter 18). -/
def Row.keyResult : ObjRow :=
  ⟨0x8002, 1, 0x02, 1, .u8, .ro, 3, .v, .none, []⟩

/-- SLOT_MAP, 0x8002.03 (Table of chapter 18). -/
def Row.slotMap : ObjRow :=
  ⟨0x8002, 1, 0x03, 1, .domain 32768, .ro, 3, .v, .none, []⟩

/-- READ_LIVE, 0x8003.01 (Table of chapter 18). -/
def Row.readLive : ObjRow :=
  ⟨0x8003, 1, 0x01, 1, .u16, .rwd, 3, .s, .sub 10, [2000]⟩

/-- ROLL_LEAD, 0x8003.02 (Table of chapter 18). -/
def Row.rollLead : ObjRow :=
  ⟨0x8003, 1, 0x02, 1, .u16, .rw, 3, .s, .none, [1000]⟩

/-- ROLL_GRACE, 0x8003.03 (Table of chapter 18). -/
def Row.rollGrace : ObjRow :=
  ⟨0x8003, 1, 0x03, 1, .u16, .rw, 3, .s, .none, [10000]⟩

/-- SEC_LOG, 0x8004.01 (Table of chapter 18). -/
def Row.secLog : ObjRow :=
  ⟨0x8004, 1, 0x01, 1, .bytes 1024, .ro, 3, .v, .none, []⟩

/-- SEC_LOG_COUNT, 0x8004.02 (Table of chapter 18). -/
def Row.secLogCount : ObjRow :=
  ⟨0x8004, 1, 0x02, 1, .u32, .ro, 3, .v, .none, []⟩

/-- REQUIRE_CIPHER, 0x3000.06 (Table of chapter 18). -/
def Row.requireCipherPort : ObjRow :=
  ⟨0x3000, 4, 0x06, 1, .bool, .rwd, 3, .s, .sub 10, []⟩

/-- TAG_FAIL, 0xad00.01 (Table of chapter 18). -/
def Row.tagFail : ObjRow :=
  ⟨0xAD00, 1, 0x01, 1, .u64, .ro, 3, .v, .none, []⟩

/-- ENC_MISMATCH_DROP, 0xad00.02 (Table of chapter 18). -/
def Row.encMismatchDrop : ObjRow :=
  ⟨0xAD00, 1, 0x02, 1, .u64, .ro, 3, .v, .none, []⟩

/-- REEXEC_REFUSED, 0xad00.03 (Table of chapter 18). -/
def Row.reexecRefused : ObjRow :=
  ⟨0xAD00, 1, 0x03, 1, .u64, .ro, 3, .v, .none, []⟩

/-- DUAL_KEY_PACKETS, 0xad00.04 (Table of chapter 18). -/
def Row.dualKeyPackets : ObjRow :=
  ⟨0xAD00, 1, 0x04, 1, .u64, .ro, 3, .v, .none, []⟩

/-- IDE_FAIL, 0xad00.05 (Table of chapter 18). -/
def Row.ideFail : ObjRow :=
  ⟨0xAD00, 1, 0x05, 1, .u32, .ro, 3, .v, .none, []⟩

/-- REQUIRE_CIPHER, 0x8100.01 (Table of chapter 18). -/
def Row.requireCipherFunc : ObjRow :=
  ⟨0x8100, 1025, 0x01, 1, .bool, .rwd, 3, .s, .sub 10, []⟩

def rowsOf18 : List ObjRow :=
  [Row.fwSvn, Row.svnMin, Row.svnCommit, Row.bootVerify, Row.signerHash, Row.certChain, Row.ownerRoot, Row.keyCmd, Row.keyResult, Row.slotMap, Row.readLive, Row.rollLead] ++
  [Row.rollGrace, Row.secLog, Row.secLogCount, Row.requireCipherPort, Row.tagFail, Row.encMismatchDrop, Row.reexecRefused, Row.dualKeyPackets, Row.ideFail, Row.requireCipherFunc]

/-! ## Objects of chapter 19 -/

/-- FW_IMAGE, 0x2500.01 (Table of chapter 19). -/
def Row.fwImage : ObjRow :=
  ⟨0x2500, 1, 0x01, 1, .domain 33554432, .wo, 3, .v, .none, []⟩

/-- FW_COMMIT, 0x2500.02 (Table of chapter 19). -/
def Row.fwCommit : ObjRow :=
  ⟨0x2500, 1, 0x02, 1, .bool, .wo, 3, .v, .none, []⟩

/-- FW_COMMIT_STATUS, 0x2500.03 (Table of chapter 19). -/
def Row.fwCommitStatus : ObjRow :=
  ⟨0x2500, 1, 0x03, 1, .u16, .ro, 3, .v, .none, []⟩

/-- MODULE_RESET, 0x2500.04 (Table of chapter 19). -/
def Row.moduleReset : ObjRow :=
  ⟨0x2500, 1, 0x04, 1, .u8, .wo, 3, .v, .none, []⟩

/-- RESET_CAUSE, 0x2500.05 (Table of chapter 19). -/
def Row.resetCause : ObjRow :=
  ⟨0x2500, 1, 0x05, 1, .u8, .ro, 11, .v, .none, []⟩

/-- SAFE_CAUSE, 0x2500.06 (Table of chapter 19). -/
def Row.safeCause : ObjRow :=
  ⟨0x2500, 1, 0x06, 1, .u8, .ro, 11, .v, .none, []⟩

/-- MC_WATCHDOG_COUNT, 0x2500.07 (Table of chapter 19). -/
def Row.mcWatchdogCount : ObjRow :=
  ⟨0x2500, 1, 0x07, 1, .u32, .ro, 3, .v, .none, []⟩

/-- SELFTEST_RESET_MODE, 0x2501.01 (Table of chapter 19). -/
def Row.selftestResetMode : ObjRow :=
  ⟨0x2501, 1, 0x01, 1, .u8, .rw, 3, .s, .none, [1]⟩

/-- SELFTEST_LAST, 0x2501.02 (Table of chapter 19). -/
def Row.selftestLast : ObjRow :=
  ⟨0x2501, 1, 0x02, 1, .u8, .ro, 11, .v, .none, []⟩

/-- SELFTEST_TIME, 0x2501.03 (Table of chapter 19). -/
def Row.selftestTime : ObjRow :=
  ⟨0x2501, 1, 0x03, 1, .u32, .ro, 3, .v, .none, []⟩

/-- SLICE_FAIL, 0x2501.04 (Table of chapter 19). -/
def Row.sliceFail : ObjRow :=
  ⟨0x2501, 1, 0x04, 1, .bytes 128, .ro, 3, .v, .none, []⟩

/-- ANALOG_FAIL, 0x2501.05 (Table of chapter 19). -/
def Row.analogFail : ObjRow :=
  ⟨0x2501, 1, 0x05, 1, .bytes 32, .ro, 3, .v, .none, []⟩

/-- MBIST_REPAIRS, 0x2501.06 (Table of chapter 19). -/
def Row.mbistRepairs : ObjRow :=
  ⟨0x2501, 1, 0x06, 1, .bytes 8, .ro, 3, .v, .none, []⟩

def rowsOf19 : List ObjRow :=
  [Row.fwImage, Row.fwCommit, Row.fwCommitStatus, Row.moduleReset, Row.resetCause, Row.safeCause, Row.mcWatchdogCount, Row.selftestResetMode, Row.selftestLast, Row.selftestTime, Row.sliceFail, Row.analogFail] ++
  [Row.mbistRepairs]

/-! ## Objects of chapter 20 -/

/-- VIN_MV, 0x2600.01 (Table of chapter 20). -/
def Row.vinMv : ObjRow :=
  ⟨0x2600, 1, 0x01, 1, .u32, .ro, 11, .v, .none, []⟩

/-- IIN_MA, 0x2600.02 (Table of chapter 20). -/
def Row.iinMa : ObjRow :=
  ⟨0x2600, 1, 0x02, 1, .u32, .ro, 11, .v, .none, []⟩

/-- PIN_MW, 0x2600.03 (Table of chapter 20). -/
def Row.pinMw : ObjRow :=
  ⟨0x2600, 1, 0x03, 1, .u32, .ro, 11, .v, .none, []⟩

/-- TJ_MAX, 0x2600.04 (Table of chapter 20). -/
def Row.tjMax : ObjRow :=
  ⟨0x2600, 1, 0x04, 1, .i32, .ro, 15, .v, .none, []⟩

/-- TJ_SENSORS, 0x2600.05 (Table of chapter 20). -/
def Row.tjSensors : ObjRow :=
  ⟨0x2600, 1, 0x05, 1, .bytes 80, .ro, 3, .v, .none, []⟩

/-- THERMAL_CAP_ON, 0x2600.06 (Table of chapter 20). -/
def Row.thermalCapOn : ObjRow :=
  ⟨0x2600, 1, 0x06, 1, .i32, .rw, 3, .s, .none, [800]⟩

/-- THERMAL_CAP_OFF, 0x2600.07 (Table of chapter 20). -/
def Row.thermalCapOff : ObjRow :=
  ⟨0x2600, 1, 0x07, 1, .i32, .rw, 3, .s, .none, [680]⟩

/-- THERMAL_CAP_HOLD, 0x2600.08 (Table of chapter 20). -/
def Row.thermalCapHold : ObjRow :=
  ⟨0x2600, 1, 0x08, 1, .u16, .rw, 3, .s, .none, [1000]⟩

/-- THERMAL_STATUS, 0x2600.09 (Table of chapter 20). -/
def Row.thermalStatus : ObjRow :=
  ⟨0x2600, 1, 0x09, 1, .u32, .ro, 11, .v, .none, []⟩

/-- JTAG_IDCODE, 0x2600.0A (Table of chapter 20). -/
def Row.jtagIdcode : ObjRow :=
  ⟨0x2600, 1, 0x0A, 1, .u32, .ro, 3, .f, .none, []⟩

/-- THERMAL_CAP_COUNT, 0xae00.01 (Table of chapter 20). -/
def Row.thermalCapCount : ObjRow :=
  ⟨0xAE00, 1, 0x01, 1, .u32, .ro, 3, .v, .none, []⟩

/-- THERMAL_CAP_NS, 0xae00.02 (Table of chapter 20). -/
def Row.thermalCapNs : ObjRow :=
  ⟨0xAE00, 1, 0x02, 1, .u64, .ro, 3, .v, .none, []⟩

/-- VIN_WARN_COUNT, 0xae00.03 (Table of chapter 20). -/
def Row.vinWarnCount : ObjRow :=
  ⟨0xAE00, 1, 0x03, 1, .u32, .ro, 3, .v, .none, []⟩

def rowsOf20 : List ObjRow :=
  [Row.vinMv, Row.iinMa, Row.pinMw, Row.tjMax, Row.tjSensors, Row.thermalCapOn, Row.thermalCapOff, Row.thermalCapHold, Row.thermalStatus, Row.jtagIdcode, Row.thermalCapCount, Row.thermalCapNs] ++
  [Row.vinWarnCount]

/-- Every object of the firmware's dictionary, apart from subindex 0x00 (R48) and the group masks (R54). -/
def objRows : List ObjRow :=
  rowsOf2 ++ rowsOf3 ++ rowsOf4 ++ rowsOf5 ++ rowsOf6 ++ rowsOf7 ++ rowsOf8 ++ rowsOf9 ++ rowsOf10 ++
  rowsOf11 ++ rowsOf12 ++ rowsOf13 ++ rowsOf14 ++ rowsOf15 ++ rowsOf16 ++ rowsOf17 ++ rowsOf18 ++ rowsOf19 ++ rowsOf20

end Sys2Proof.Machine
end

