-- ==== Sys2Proof/Machine/Ops.lean ====
section
/-! DEFINITION. The named operations every subsystem shares: tables, outputs, objects, free values, time,
faults and events. -/

namespace Sys2Proof.Machine

/-! ## Tables -/

def tget {α : Type} : Tab α → Nat → Option α
  | [], _ => none
  | (k, v) :: t, n => if k = n then some v else tget t n

/-- Insert or replace, keys strictly rising. -/
def tput {α : Type} : Tab α → Nat → α → Tab α
  | [], n, x => [(n, x)]
  | (k, v) :: t, n, x =>
    if n < k then (n, x) :: (k, v) :: t
    else if n = k then (n, x) :: t
    else (k, v) :: tput t n x

def tdel {α : Type} : Tab α → Nat → Tab α
  | [], _ => []
  | (k, v) :: t, n => if k = n then t else (k, v) :: tdel t n

def tupd {α : Type} (t : Tab α) (n : Nat) (f : α → α) : Tab α :=
  match tget t n with
  | none => t
  | some v => tput t n (f v)

/-- Insert into a rising list without repeats. -/
def insertUnique (x : Nat) : List Nat → List Nat
  | [] => [x]
  | y :: ys => if x < y then x :: y :: ys else if x = y then y :: ys else y :: insertUnique x ys

def tkeys {α : Type} (t : Tab α) : List Nat := t.map Prod.fst

/-- Apply `f` to each element in order, threading the state. -/
def eachDo {α : Type} (l : List α) (f : α → State → State) (s : State) : State :=
  l.foldl (fun s a => f a s) s

/-- Do `f` only when `c` holds. -/
def whenDo (c : Bool) (f : State → State) (s : State) : State := if c then f s else s

/-! ## Outputs, time, free values -/

def State.emit (s : State) (o : Output) : State := { s with out := s.out ++ [o] }

/-- The next value the manual leaves open (notes/assumptions/6). -/
def State.nextFree (s : State) : Nat := Config.freeValue s.freeCount

def State.useFree (s : State) : State := { s with freeCount := s.freeCount + 1 }

/-- Bytes that a command reads from outside the module and that a plain write of its block does not carry. -/
def outsideBytes (use n : Nat) : List Byte := (List.range n).map (Config.outsideByte use)

/-- Move the local timer on to `t`, never back. -/
def State.advanceTo (s : State) (t : Nat) : State := { s with timer := max s.timer t }

/-- The instant of the next occurrence of periodic action `id`, of period `T` ns: the first whole multiple of
`T` that is neither before the timer nor at or before the last occurrence (R45). -/
def State.nextTick (s : State) (id T : Nat) : Nat :=
  match tget s.ticks id with
  | none => max T (roundUp s.timer T)
  | some last => max ((last / T + 1) * T) (roundUp s.timer T)

/-- The occurrence of periodic action `id`: the timer moves to its instant (notes/assumptions/2). -/
def State.tickOf (s : State) (id T : Nat) : State :=
  let t := s.nextTick id T
  { s.advanceTo t with ticks := tput s.ticks id t }

/-! ## Objects -/

def ObjType.size : ObjType → Nat
  | .bool | .u8 => 1
  | .u16 => 2
  | .u32 | .i32 | .f32 => 4
  | .u64 => 8
  | .bytes n => n
  | .string => 255
  | .domain m => m

def ObjRow.key (r : ObjRow) (i k : Nat) : Nat := (r.index + i) * 256 + (r.sub + k)

def ObjRow.dflt (r : ObjRow) (i k : Nat) : Nat := r.dflts.getD (i * r.subs + k) (r.dflts.getLastD 0)

/-- The live value of instance `i`, subindex offset `k` of a fixed-size object. -/
def State.obj (s : State) (r : ObjRow) (i : Nat := 0) (k : Nat := 0) : Nat :=
  (tget s.od (r.key i k)).getD (r.dflt i k)

/-- Set a live value; a value equal to the default is not listed. -/
def State.setObj (s : State) (r : ObjRow) (v : Nat) (i : Nat := 0) (k : Nat := 0) : State :=
  { s with od := if v = r.dflt i k then tdel s.od (r.key i k) else tput s.od (r.key i k) v }

/-- Add to a counter, modulo its width (notes/assumptions/7). -/
def State.bump (s : State) (r : ObjRow) (n : Nat := 1) (i : Nat := 0) (k : Nat := 0) : State :=
  s.setObj r ((s.obj r i k + n) % 2 ^ (8 * r.ty.size)) i k

/-- Field of `n` bytes at byte `off` of a BYTES object. -/
def State.objField (s : State) (r : ObjRow) (off n : Nat) (i : Nat := 0) (k : Nat := 0) : Nat :=
  s.obj r i k / 256 ^ off % 256 ^ n

def State.setObjField (s : State) (r : ObjRow) (off n v : Nat) (i : Nat := 0) (k : Nat := 0) : State :=
  let old := s.obj r i k
  s.setObj r (old - old / 256 ^ off % 256 ^ n * 256 ^ off + v % 256 ^ n * 256 ^ off) i k

def State.bumpField (s : State) (r : ObjRow) (off n : Nat) (add : Nat := 1) (i : Nat := 0) (k : Nat := 0) : State :=
  s.setObjField r off n (s.objField r off n i k + add) i k

def State.objBit (s : State) (r : ObjRow) (b : Nat) (i : Nat := 0) (k : Nat := 0) : Bool :=
  (s.obj r i k).testBit b

def State.setObjBit (s : State) (r : ObjRow) (b : Nat) (v : Bool) (i : Nat := 0) (k : Nat := 0) : State :=
  s.setObj r (setBit (s.obj r i k) b v) i k

/-- The live bytes of a STRING or DOMAIN object. -/
def State.blob (s : State) (r : ObjRow) : List Byte := (tget s.blobs (r.key 0 0)).getD []

def State.setBlob (s : State) (r : ObjRow) (b : List Byte) : State :=
  { s with blobs := if b = [] then tdel s.blobs (r.key 0 0) else tput s.blobs (r.key 0 0) b }

/-- A counter of the module that also counts in the window of VF `f` (Table 17-3). -/
def State.bumpBoth (s : State) (r v : ObjRow) (f : Nat) (n : Nat := 1) : State :=
  let s := s.bump r n
  if f = 0 then s else s.bump v n (f * 65536)

/-- SHARE_COUNT (R381). -/
def State.shares (s : State) : Nat := s.obj Row.shareCount

/-! ## The configuration page (R64) -/

def newerCopy : Option CfgCopy → Option CfgCopy → Option CfgCopy
  | some a, some b => if a.seq < b.seq then some b else some a
  | some a, none => some a
  | none, b => b

/-- The valid copy with the higher sequence number. -/
def State.bestCopy (s : State) : Option CfgCopy :=
  newerCopy (s.flash.copies.getD 0 none) (s.flash.copies.getD 1 none)

/-! ## Enables -/

/-- OPERATE is 1 in OPERATIONAL and in HOLD (R67, Table 03-10). -/
def State.operate (s : State) : Bool := s.mode == .operational || s.mode == .hold

/-- The enable object of subsystem `n`. -/
def State.enableObj (s : State) (n : Nat) : Bool :=
  if n ≤ 11 then s.obj Row.enable (n - 1) == 1 else true

/-- An enable counts as 0 while OPERATE is 0 (R50). -/
def State.enabled (s : State) (n : Nat) : Bool := s.operate && s.enableObj n

/-- The firmware's dictionary, objects and queues are in use from CONFIG on (R468). -/
def State.firmwareRuns (s : State) : Bool :=
  s.mode == .config || s.mode == .operational || s.mode == .hold

/-- From the host's loss on, until a write of 0 to OPERATE ends HOLD (R261). -/
def State.holding (s : State) : Bool := s.mode == .hold || s.host.entering.isSome

/-! ## Half-ports, posted writes and MSI-X (R98, R113, Table 04-3) -/

def HalfPortSt.default : HalfPortSt :=
  ⟨0, false, 32, false, 0, 0, 0, false, true, .idle, 0, 0, 0, none, 0, [], 0, 0, true, false, 0⟩

def State.hp (s : State) (h : Nat) : HalfPortSt := s.halfPorts.getD h HalfPortSt.default

def State.setHp (s : State) (h : Nat) (p : HalfPortSt) : State := { s with halfPorts := s.halfPorts.set h p }

def State.updHp (s : State) (h : Nat) (f : HalfPortSt → HalfPortSt) : State := s.setHp h (f (s.hp h))

/-- A posted write that carries no placed data is presented at the bridge of `h`. -/
def State.postWrite (s : State) (h : Nat) (o : Output) : State :=
  (s.emit o).updHp h fun p => { p with presented := p.presented + 1 }

/-- A 32 B entry is written to a ring of the module's in two posted writes: bytes 4-31 first, then bytes 0-3 with OWN. -/
def State.writeEntry (s : State) (h addr n : Nat) : State :=
  let b := leBytes 32 n
  (s.postWrite h (.posted h (addr + 4) (b.drop 4))).postWrite h (.posted h addr (b.take 4))

/-- A dword of the MSI-X table; a vector is masked until its control dword is written (notes/assumptions/66). -/
def State.msixDword (s : State) (f v k : Nat) : Nat :=
  (tget s.host.msixTable ((f * 2048 + v) * 4 + k)).getD (if k = 3 then 1 else 0)

/-- A vector is signalled when MSI-X is on, pends while it is masked, and is dropped while MSI-X is off. -/
def State.msix (s : State) (f v : Nat) : State :=
  if !s.host.msixOn.contains f then s
  else if s.host.msixMask.contains f || (s.msixDword f v 3).testBit 0 then
    { s with host := { s.host with msixPending := insertUnique (f * 2048 + v) s.host.msixPending } }
  else s.emit (.msix f v (s.msixDword f v 0 + s.msixDword f v 1 * 2 ^ 32) (s.msixDword f v 2))

/-! ## Event records -/

/-- R143: a record is written to the function's EQ, or counted as lost when the EQ is full or absent. When
space next allows, one EQ_OVERFLOW record goes before it. -/
def Eq.full (e : Eq) : Bool := decide (2 ^ e.log2 ≤ e.used)

def State.eqPut (s : State) (f : Nat) (e : Eq) (code object infoA infoB : Nat) : State :=
  let s := s.writeEntry e.path (e.base.toNat + e.tail.toNat % 2 ^ e.log2 * 32) (eventNat code object infoA infoB s.timer)
  let s := if e.arm then s.msix f e.vector else s
  { s with eqs := tput s.eqs f { e with tail := e.tail + 1, used := e.used + 1, arm := false } }

/-- A loss while no EQ exists is kept for the function's next EQ. -/
def State.eqLose (s : State) (f : Nat) : State :=
  let s := s.bump Row.eqLostCount
  match tget s.eqs f with
  | some e => { s with eqs := tput s.eqs f { e with lost := e.lost + 1 } }
  | none => { s with eqLost := tput s.eqLost f ((tget s.eqLost f).getD 0 + 1) }

/-- Write the EQ_OVERFLOW record that reports losses, when space allows it. -/
def State.eqFlushLost (s : State) (f : Nat) : State :=
  match tget s.eqs f with
  | none => s
  | some e =>
    if e.lost = 0 || e.full then s
    else s.eqPut f { e with lost := 0 } 0x0001 0 e.lost 0

/-- Raise an event to function `f` (R143). None is written on the way into HOLD or in it (R261). -/
def State.raiseTo (s : State) (f code object : Nat) (infoA infoB : Nat := 0) : State :=
  if !s.firmwareRuns || s.holding then s
  else
    let s := s.eqFlushLost f
    match tget s.eqs f with
    | none => s.eqLose f
    | some e => if e.full then s.eqLose f else s.eqPut f e code object infoA infoB

/-- Raise an event to the PF. -/
def State.raisePf (s : State) (code object : Nat) (infoA infoB : Nat := 0) : State :=
  s.raiseTo 0 code object infoA infoB

/-- Raise an event to the owning function and to the PF, once where they are the same. -/
def State.raiseBoth (s : State) (f code object : Nat) (infoA infoB : Nat := 0) : State :=
  let s := s.raiseTo f code object infoA infoB
  if f = 0 then s else s.raisePf code object infoA infoB

/-! ## Packets the module forms -/

/-- FLAGS of Table 06-14. -/
def flagBits (first last solicited ackReq enc retx : Bool) : Byte :=
  BitVec.ofNat 8 (first.toNat * 128 + last.toNat * 64 + solicited.toNat * 32 + ackReq.toNat * 16 +
    enc.toNat * 8 + retx.toNat * 4)

/-- The module's own address on the fabric. -/
def State.ownAddress (s : State) : ModAddr := BitVec.ofNat 20 (s.obj Row.moduleAddress)

/-- A packet the module itself has formed. -/
def QPkt.made (p : Packet) (func qpn now : Nat) : QPkt := ⟨p, false, func, qpn, now, 0, false, false, false, none, false⟩

/-- A message of the management QP as one packet (R60). -/
def State.qp0Message (s : State) (dst : ModAddr) (qpn : Qpn) (body : List Byte) : QPkt :=
  let p : Packet :=
    { version := 1, dstModule := dst, srcModule := s.ownAddress, dstQpn := qpn, srcQpn := 0, opcode := 0x01
      flags := flagBits true true false false false false, psn := 0, msgId := 0, remoteAddr := 0, key := 0
      payloadLen := BitVec.ofNat 13 body.length, pktOffset := 0, aux := 0, payload := body }
  QPkt.made p 0 0 s.timer

/-- A message of the management QP leaves; the router sends it on VC7 (R60). -/
def State.postQp0 (s : State) (dst : ModAddr) (qpn : Qpn) (body : List Byte) : State :=
  { s with wq := { s.wq with outbox := s.wq.outbox ++ [s.qp0Message dst qpn body] } }

/-! ## EVENT messages and class 0x05 events -/

/-- R60: one EVENT on QP 0, with TAG zero, to each valid FM_ALLOW entry with an event QPN (Table 03-7). -/
def State.eventToFm (s : State) (reason index sub : Nat) (data : List Byte) : State :=
  eachDo [0, 1, 2, 3] (fun k s =>
    let a := s.obj Row.fmAllow 0 k
    let q := s.obj Row.fmEventQpn 0 k % 2 ^ 24
    if a.testBit 31 && q != 0 then
      s.postQp0 (BitVec.ofNat 20 a) (BitVec.ofNat 24 q)
        (messageBytes 7 0 0 0xFFFF index sub 0 (leBytes 4 reason ++ leBytes 8 s.timer ++ data))
    else s) s

/-- A telemetry event names an object and carries up to 8 B of its value (Table 03-7); its REASON is 0 (notes/assumptions/16). -/
def State.telemetry (s : State) (r : ObjRow) (i k : Nat) : State :=
  s.eventToFm 0 (r.index + i) (r.sub + k) (leBytes (min 8 r.ty.size) (s.obj r i k))

/-- The code held at REASON is of class 0x05, and so latched (R75). -/
def State.latched (s : State) : Bool := s.obj Row.reason / 2 ^ 16 % 256 == 5

/-- The firmware serves the dictionary: from CONFIG on, and in a SAFE entered from there (R425). -/
def State.firmwareServes (s : State) : Bool := s.firmwareRuns || (s.mode == .safe && s.boot.firmware)

/-- R76, R63: a class 0x05 event is counted and logged, latched at REASON unless one already is, sent as an
EVENT, and asserts ALERT_N. Before CONFIG these objects are not in use (R468). FAULT_LOG keeps the newest entry at bytes 240-255
(notes/assumptions/15); the object of an event replaces OFFENDING though a code is latched (notes/assumptions/61). -/
def State.faultEvent (s : State) (reason : Nat) (offending : Nat := 0) : State :=
  if !s.firmwareServes then s else
  let s := s.bump Row.faultCount
  let entry := reason + s.timer % 2 ^ 64 * 2 ^ 64
  let s := s.setObj Row.faultLog (s.obj Row.faultLog / 2 ^ 128 + entry * 2 ^ 1920)
  let s := if s.latched then s else s.setObj Row.reason reason
  let s := if offending = 0 then s else s.setObj Row.offending offending
  let sink := s.obj Row.eventSink
  let s := if sink = 0 then s else s.emit (.eventI3c sink reason s.timer 0 0 [])
  let s := s.eventToFm reason 0 0 []
  { s with alert := true }

/-- The word at OFFENDING for an object (R74). -/
def offendingWord (index sub : Nat) : Nat := index * 2 ^ 16 + sub * 2 ^ 8

end Sys2Proof.Machine
end

