-- ==== Sys2Proof/Machine/Pace.lean ====
section
/-! DEFINITION. Pace monitors and core-voltage control (R32-R38). -/

namespace Sys2Proof.Machine

/-- Insert into a rising list. -/
def insertNat (x : Nat) : List Nat → List Nat
  | [] => [x]
  | y :: ys => if x ≤ y then x :: y :: ys else y :: insertNat x ys

def sortNat (l : List Nat) : List Nat := l.foldr insertNat []

/-- A monitor's stage time in ps from its laps in a 10 µs window, rounded up; a reading that the 16-bit object
cannot hold is not stated and takes the free value. -/
def paceReading (laps free : Nat) : Nat :=
  if laps = 0 || 65535 < ceilDiv 10000000 (laps * 64) then free % 65536 else ceilDiv 10000000 (laps * 64)

/-- Twice the median of 32 readings: the sum of the two middle ones (notes/assumptions/8). -/
def twiceMedian (rs : List Nat) : Nat :=
  let t := sortNat rs
  t.getD 15 0 + t.getD 16 0

/-- R33: a reading more than 15 % from the median. -/
def deviates (twice r : Nat) : Bool :=
  decide (15 * twice < 100 * (if twice ≤ 2 * r then 2 * r - twice else twice - 2 * r))

def State.monitorExcluded (s : State) (k : Nat) : Bool := s.objBit Row.paceMonExcluded k

def State.validMonitors (s : State) : List Nat := (List.range 32).filter fun k => !s.monitorExcluded k

/-- The thermal limit is in force (R37, R461). -/
def State.thermalCap (s : State) : Bool := s.objBit Row.thermalStatus 0

/-- Target stage time of the profile in ps (Table 02-4). -/
def State.paceTarget (s : State) : Nat :=
  match s.obj Row.paceProfile with
  | 0 => 400
  | 1 => 450
  | _ => 500

/-- R34: with fewer than 16 valid monitors the controller holds VCORE at 0.80 V or at the cap, at once (notes/assumptions/55);
until CONFIG the hold of R426 stands, and in SAFE VCORE is not moved (notes/assumptions/56). -/
def State.monitorLoss (s : State) : State :=
  if s.validMonitors.length < 16 then
    let s := s.setObjBit Row.paceStatus 3 true
    if s.firmwareRuns then s.setObj Row.vcoreSet (if s.thermalCap then 700 else 800) else s
  else s

/-- R38 and the AT_FLOOR bit. -/
def State.paceFlags (s : State) : State :=
  let s := s.setObjBit Row.paceStatus 0 (decide (s.paceTarget < s.obj Row.paceLive))
  s.setObjBit Row.paceStatus 2 (s.obj Row.vcoreSet == 650)

/-- R33 for monitor `k`. -/
def State.checkDeviation (s : State) (twice k r : Nat) : State :=
  let n := if deviates twice r then s.pace.deviations.getD k 0 + 1 else 0
  let s := { s with pace := { s.pace with deviations := s.pace.deviations.set k n } }
  if n < 3 || s.monitorExcluded k then s
  else (s.setObjBit Row.paceMonExcluded k true).telemetry Row.paceMonExcluded 0 0

/-- R32: the readings of one window and PACE_LIVE, which is 0 when no monitor is valid (notes/assumptions/54). -/
def State.paceWindow (s : State) (laps : List Nat) : State :=
  let rs := (List.range 32).map fun k => paceReading (laps.getD k 0) (Config.freeValue (s.freeCount + k))
  let s := { s with freeCount := s.freeCount + 32 }
  let s := eachDo (List.range 32) (fun k s => s.setObj Row.paceMon (rs.getD k 0) 0 k) s
  let s := eachDo (List.range 32) (fun k s => s.checkDeviation (twiceMedian rs) k (rs.getD k 0)) s
  let s := s.setObj Row.paceLive ((s.validMonitors.map fun k => rs.getD k 0).foldl max 0)
  s.monitorLoss.paceFlags

/-- The new set point of a control step in mV (R35). -/
def vcoreStep (vcore live target margin vmax : Nat) : Nat :=
  if vmax < vcore then vcore - 5
  else if target * (100 - margin) < live * 100 && decide (vcore < vmax) then vcore + 5
  else if live * 10000 < target * (100 - margin) * 97 && decide (650 < vcore) then vcore - 5
  else vcore

/-- The module has power and is out of reset. -/
def State.alive (s : State) : Bool := s.mode != .off && s.mode != .reset

/-- R35, R37, R34: one control step. PACE_STATUS[1] follows the thermal limit in every state; adaptive control runs in CONFIG,
OPERATIONAL and HOLD; in a SAFE entered from there VCORE only comes down to the cap (notes/assumptions/56); before CONFIG the hold
of R426 and R462 stands. -/
def State.controlStep (s : State) : State :=
  if !s.alive then s
  else
    let s := s.setObjBit Row.paceStatus 1 s.thermalCap
    if !s.firmwareRuns then
      (if s.firmwareServes && s.thermalCap && decide (700 < s.obj Row.vcoreSet) then
        s.setObj Row.vcoreSet (s.obj Row.vcoreSet - 5)
      else s).paceFlags
    else if s.validMonitors.length < 16 then s.monitorLoss.paceFlags
    else
      let v := vcoreStep (s.obj Row.vcoreSet) (s.obj Row.paceLive) s.paceTarget (s.obj Row.paceMargin)
        (if s.thermalCap then 700 else 800)
      (s.setObj Row.vcoreSet v).paceFlags

end Sys2Proof.Machine
end

