-- ==== Sys2Proof/Machine/Arith.lean ====
section
/-! DEFINITION. Exact arithmetic, the data formats, rounding and stochastic draws of the reduction-and-apply array
(R295-R305). -/

namespace Sys2Proof.Machine

/-- An exact value: m * 2^e with a sign, zero with its sign, an infinity or NaN. -/
inductive Num where
  | nan
  | inf (neg : Bool)
  | fin (neg : Bool) (m : Nat) (e : Int)
  deriving DecidableEq, Repr

def Num.zero : Num := .fin false 0 0

def Num.isZero : Num → Bool
  | .fin _ m _ => m == 0
  | _ => false

def Num.finite : Num → Bool
  | .fin _ _ _ => true
  | _ => false

def Num.negate : Num → Num
  | .nan => .nan
  | .inf n => .inf !n
  | .fin n m e => .fin (!n) m e

/-! ## Formats (Tables 13-2, 13-3) -/

/-- A floating format. `ieee` is false for E4M3, which has no infinity and one NaN. -/
structure Flt where
  expBits : Nat
  man : Nat
  bias : Nat
  ieee : Bool
  deriving DecidableEq, Repr

def fp32 : Flt := ⟨8, 23, 127, true⟩
def bf16 : Flt := ⟨8, 7, 127, true⟩
def fp16 : Flt := ⟨5, 10, 15, true⟩
def e4m3 : Flt := ⟨4, 3, 7, false⟩
def e5m2 : Flt := ⟨5, 2, 15, true⟩

/-- The floating format of a code of Table 13-2; an MXFP8 code gives its element format. -/
def fltOf (code : Nat) : Flt :=
  match code with
  | 1 => fp32
  | 2 => bf16
  | 3 => fp16
  | 4 => e4m3
  | 5 => e5m2
  | 6 => e4m3
  | _ => e5m2

def isMx (code : Nat) : Bool := code == 6 || code == 7
def isInt (code : Nat) : Bool := code == 8

/-- 8-bit formats saturate (Table 13-4). -/
def Flt.saturates (f : Flt) : Bool := f.expBits + f.man + 1 == 8

/-- Width in bits for comparisons (R297). -/
def fmtWidth (code : Nat) : Nat := if code = 1 || code = 8 then 32 else if code = 2 || code = 3 then 16 else 8

/-- Elements and bytes of one record: 32 elements in 33 bytes for MXFP8 (R299). -/
def recElems (code : Nat) : Nat := if isMx code then 32 else 1
def recBytes (code : Nat) : Nat := if isMx code then 33 else fmtWidth code / 8

/-- Bytes of `n` elements (R299). -/
def fmtBytes (code n : Nat) : Nat := ceilDiv n (recElems code) * recBytes code

/-- Elements of an element group in one RAU issue (Table 13-1). -/
def groupElems (code : Nat) : Nat := if fmtWidth code = 32 then 32 else if fmtWidth code = 16 then 64 else 128

def Flt.decode (f : Flt) (bits : Nat) : Num :=
  let neg := bits.testBit (f.expBits + f.man)
  let ex := bits / 2 ^ f.man % 2 ^ f.expBits
  let ma := bits % 2 ^ f.man
  let top := 2 ^ f.expBits - 1
  if f.ieee && ex == top then (if ma = 0 then .inf neg else .nan)
  else if !f.ieee && ex == top && ma == 2 ^ f.man - 1 then .nan
  else if ex = 0 then .fin neg ma (1 - (f.bias : Int) - f.man)
  else .fin neg (2 ^ f.man + ma) ((ex : Int) - f.bias - f.man)

def Flt.signBit (f : Flt) (neg : Bool) : Nat := if neg then 2 ^ (f.expBits + f.man) else 0

/-- The largest finite magnitude, as an encoding and as a value. -/
def Flt.maxBits (f : Flt) : Nat :=
  if f.ieee then (2 ^ f.expBits - 1) * 2 ^ f.man - 1 else (2 ^ f.expBits - 1) * 2 ^ f.man + 2 ^ f.man - 2

def Flt.infBits (f : Flt) : Nat := (2 ^ f.expBits - 1) * 2 ^ f.man

/-- The NaN the module writes (Table 13-3). -/
def Flt.nanBits (f : Flt) : Nat := if f.ieee then f.infBits + 2 ^ (f.man - 1) else f.infBits + 2 ^ f.man - 1

/-- m1 * 2^e1 compared with m2 * 2^e2: less than. -/
def magLt (m1 : Nat) (e1 : Int) (m2 : Nat) (e2 : Int) : Bool :=
  if e1 ≤ e2 then decide (m1 < m2 * 2 ^ (e2 - e1).toNat) else decide (m1 * 2 ^ (e1 - e2).toNat < m2)

/-- ⌊log2⌋ of m * 2^e. -/
def magLog (m : Nat) (e : Int) : Int := (Nat.log2 m : Int) + e

/-! ## Rounding (R300, R303, R304) -/

/-- m * 2^e in units of 2^q: the integer part and the rest as a numerator over 2^sh. -/
def splitAt_ (m : Nat) (e q : Int) : Nat × Nat × Nat :=
  if q ≤ e then (m * 2 ^ (e - q).toNat, 0, 0)
  else
    let sh := (q - e).toNat
    (m / 2 ^ sh, m % 2 ^ sh, sh)

/-- Whether the mode rounds the magnitude up: 1 to nearest even, 2 toward zero, 3 stochastic with draw `u`. -/
def roundsUp (mode : Nat) (u quo rem sh : Nat) : Bool :=
  if rem = 0 then false
  else if mode = 1 then decide (2 ^ sh < 2 * rem) || (2 * rem == 2 ^ sh && quo % 2 == 1)
  else if mode = 3 then decide (u < rem * 65536 / 2 ^ sh)
  else false

/-- What rounding did beyond the finite range. -/
inductive Beyond where
  | none | saturated | infinity | nan
  deriving DecidableEq, Repr

/-- Encode quo * 2^q, which lies on the format's grid. -/
def Flt.pack (f : Flt) (quo : Nat) (q : Int) : Nat :=
  if quo < 2 ^ f.man then quo
  else
    let (quo, q) := if quo = 2 ^ (f.man + 1) then (2 ^ f.man, q + 1) else (quo, q)
    (q + f.man + f.bias).toNat * 2 ^ f.man + (quo - 2 ^ f.man)

/-- The result outside the finite range (Table 13-4). -/
def Flt.past (f : Flt) (up : Bool) : Nat × Beyond :=
  if f.saturates then (f.maxBits, .saturated) else if up then (f.infBits, .infinity) else (f.maxBits, .none)

/-- R300: round the exact magnitude m * 2^e to the format. -/
def Flt.roundMag (f : Flt) (mode u m : Nat) (e : Int) : Nat × Beyond :=
  if m = 0 then (0, .none)
  else
    let q := max (magLog m e - f.man) (1 - (f.bias : Int) - f.man)
    let (quo, rem, sh) := splitAt_ m e q
    let up := roundsUp mode u quo rem sh
    let r := if up then quo + 1 else quo
    match f.decode f.maxBits with
    | .fin _ lm le =>
      if mode = 1 then (if magLt lm le r q then f.past true else (f.pack r q, .none))
      else if magLt lm le m e then f.past (mode == 3 && up)
      else (f.pack r q, .none)
    | _ => (0, .none)

/-- Round an exact value to a floating format. -/
def Flt.encode (f : Flt) (mode u : Nat) : Num → Nat × Beyond
  | .nan => (f.nanBits, .nan)
  | .inf neg => if f.ieee then (f.signBit neg + f.infBits, .none) else (f.nanBits, .nan)
  | .fin neg m e =>
    let (b, x) := f.roundMag mode u m e
    (f.signBit neg + b, x)

/-! ## MXFP8 blocks (R302) -/

/-- Scale an exact value by 2^k. -/
def Num.scale : Num → Int → Num
  | .fin n m e, k => .fin n m (e + k)
  | x, _ => x

/-- The largest magnitude of a list of finite values. -/
def maxMag : List Num → Nat × Int
  | [] => (0, 0)
  | .fin _ m e :: xs =>
    let (bm, be) := maxMag xs
    if magLt bm be m e then (m, e) else (bm, be)
  | _ :: xs => maxMag xs

def emaxElem (code : Nat) : Int := if code = 6 then 8 else 15

/-- The scale exponent X of a block. -/
def blockScale (code : Nat) (vs : List Num) : Int :=
  let (m, e) := maxMag vs
  if m = 0 then -127 else max (-127) (min 127 (magLog m e - emaxElem code))

/-- Encode a block: 32 element bytes and the scale byte. A NaN block is one NaN. -/
def encodeBlock (code mode : Nat) (us : List Nat) (vs : List Num) : List Byte × List Beyond :=
  if vs.any (fun v => !v.finite) then (List.replicate 32 0 ++ [0xFF], [.nan])
  else
    let x := blockScale code vs
    let rs := (List.range 32).map fun i =>
      (fltOf code).encode mode (us.getD i 0) ((vs.getD i Num.zero).scale (-x))
    (rs.map (fun r => BitVec.ofNat 8 r.1) ++ [BitVec.ofNat 8 (x + 127).toNat], rs.map Prod.snd)

/-- Read a 33-byte record. -/
def decodeBlock (code : Nat) (bs : List Byte) : List Num :=
  let sc := (bs.getD 32 0).toNat
  (List.range 32).map fun i =>
    if sc = 255 then Num.nan else ((fltOf code).decode (bs.getD i 0).toNat).scale ((sc : Int) - 127)

/-! ## Vectors in record layout -/

/-- Split a list into pieces of `n`. -/
def chunksOf {α : Type} (n : Nat) : Nat → List α → List (List α)
  | 0, _ => []
  | fuel + 1, l => if l.isEmpty then [] else l.take n :: chunksOf n fuel (l.drop n)

def chunks {α : Type} (n : Nat) (l : List α) : List (List α) := chunksOf n l.length l

/-- Signed value of a 32-bit word. -/
def int32 (x : Nat) : Int := (BitVec.ofNat 32 x).toInt

def intNum (i : Int) : Num := .fin (decide (i < 0)) i.natAbs 0

/-- Elements of a run of records. -/
def decodeVec (code : Nat) (bs : List Byte) : List Num :=
  if isMx code then (chunks 33 bs).flatMap (decodeBlock code)
  else (chunks (recBytes code) bs).map fun c =>
    if isInt code then intNum (int32 (leNat c)) else (fltOf code).decode (leNat c)

/-- The 32-bit pattern of an exact integer value, modulo 2^32. -/
def intBits : Num → Nat
  | .fin neg m _ => ((if neg then -(m : Int) else m) % 2 ^ 32).toNat
  | _ => 0

/-- Records of a list of exact values, with what fell outside the range. A last MXFP8 block is padded with +0. -/
def encodeVec (code mode : Nat) (us : List Nat) (vs : List Num) : List Byte × List Beyond :=
  if isMx code then
    let k := ceilDiv vs.length 32
    let rs := (List.range k).map fun b =>
      let part := (vs.drop (32 * b)).take 32
      encodeBlock code mode (us.drop (32 * b)) (part ++ List.replicate (32 - part.length) Num.zero)
    (rs.flatMap Prod.fst, rs.flatMap Prod.snd)
  else
    let rs := (List.range vs.length).map fun i =>
      let v := vs.getD i Num.zero
      if isInt code then (intBits v, Beyond.none) else (fltOf code).encode mode (us.getD i 0) v
    (rs.flatMap (fun r => leBytes (recBytes code) r.1), rs.map Prod.snd)

/-- A buffer of `n` elements in user layout, element bytes then scales, as records (R299): padding reads +0. -/
def toRecords (code n : Nat) (bs : List Byte) : List Byte :=
  if isMx code then
    let nb := ceilDiv n 32
    (List.range nb).flatMap fun b =>
      let k := min 32 (n - 32 * b)
      slice (bs.drop (32 * b)) 0 k ++ List.replicate (32 - k) 0 ++ slice (bs.drop (32 * nb + b)) 0 1
  else slice bs 0 (fmtBytes code n)

/-- The bytes of elements [lo, hi) of a vector in record layout. -/
def cutRecords (code : Nat) (bs : List Byte) (lo hi : Nat) : List Byte :=
  let a := lo / recElems code * recBytes code
  slice bs a (fmtBytes code hi - a)

def putRecords (code : Nat) (bs : List Byte) (lo : Nat) (new : List Byte) : List Byte :=
  overlay bs (lo / recElems code * recBytes code) new

/-! ## Combining (R301) -/

/-- The sum, exact. -/
def Num.add : Num → Num → Num
  | .nan, _ => .nan
  | _, .nan => .nan
  | .inf a, .inf b => if a = b then .inf a else .nan
  | .inf a, _ => .inf a
  | _, .inf b => .inf b
  | .fin n1 m1 e1, .fin n2 m2 e2 =>
    let e := min e1 e2
    let a : Int := (if n1 then -1 else 1) * (m1 * 2 ^ (e1 - e).toNat : Nat)
    let b : Int := (if n2 then -1 else 1) * (m2 * 2 ^ (e2 - e).toNat : Nat)
    let s := a + b
    if s = 0 then .fin (m1 == 0 && m2 == 0 && n1 && n2) 0 0 else .fin (decide (s < 0)) s.natAbs e

/-- Order of finite values and infinities, with -0 below +0. -/
def Num.lt : Num → Num → Bool
  | .inf a, .inf b => a && !b
  | .inf a, _ => a
  | _, .inf b => !b
  | .fin n1 m1 e1, .fin n2 m2 e2 =>
    if n1 && !n2 then true
    else if !n1 && n2 then false
    else if n1 then magLt m2 e2 m1 e1 else magLt m1 e1 m2 e2
  | _, _ => false

def Num.maximum (a b : Num) : Num := if a = .nan || b = .nan then .nan else if a.lt b then b else a
def Num.minimum (a b : Num) : Num := if a = .nan || b = .nan then .nan else if b.lt a then b else a

/-- REDOP of Table 13-5, before rounding. -/
def redop (op : Nat) (a b : Num) : Num := if op = 1 then a.maximum b else if op = 2 then a.minimum b else a.add b

/-- The product, exact. -/
def Num.mul : Num → Num → Num
  | .nan, _ => .nan
  | _, .nan => .nan
  | .inf a, .inf b => .inf (a != b)
  | .inf a, .fin n m _ => if m = 0 then .nan else .inf (a != n)
  | .fin n m _, .inf b => if m = 0 then .nan else .inf (n != b)
  | .fin n1 m1 e1, .fin n2 m2 e2 => .fin (n1 != n2) (m1 * m2) (e1 + e2)

/-! ## Stochastic draws (R305) -/

def w32 (x : Nat) : Nat := x % 2 ^ 32

def philoxRound (c : Nat × Nat × Nat × Nat) (k0 k1 : Nat) : Nat × Nat × Nat × Nat :=
  let p0 := 0xD2511F53 * c.1
  let p1 := 0xCD9E8D57 * c.2.2.1
  (p1 / 2 ^ 32 ^^^ c.2.1 ^^^ k0, w32 p1, p0 / 2 ^ 32 ^^^ c.2.2.2 ^^^ k1, w32 p0)

def philoxN : Nat → Nat × Nat × Nat × Nat → Nat → Nat → Nat × Nat × Nat × Nat
  | 0, c, _, _ => c
  | n + 1, c, k0, k1 => philoxN n (philoxRound c k0 k1) (w32 (k0 + 0x9E3779B9)) (w32 (k1 + 0xBB67AE85))

/-- What a draw depends on besides the element (Table 13-6). -/
structure DrawKey where
  seed : Nat
  gen : Nat
  rank : Nat
  level : Nat
  use : Nat
  step : Nat
  deriving DecidableEq, Repr

/-- The 16-bit draw of element `e`. -/
def draw (d : DrawKey) (e : Nat) : Nat :=
  let g := e / 8 % 2 ^ 64
  let hi := d.step % 1024 + d.use % 4 * 2 ^ 10 + d.level % 16 * 2 ^ 12 + d.rank % 65536 * 2 ^ 16
  let o := philoxN 10 (w32 g, g / 2 ^ 32, hi, w32 d.gen) (w32 d.seed) (w32 (d.seed / 2 ^ 32))
  let all := o.1 + o.2.1 * 2 ^ 32 + o.2.2.1 * 2 ^ 64 + o.2.2.2 * 2 ^ 96
  all / 2 ^ (16 * (e % 8)) % 65536

end Sys2Proof.Machine
end

