-- ==== Sys2Proof/Machine/Kernel.lean ====
section
/-! DEFINITION. The apply-kernel machine: FP32 operations, DIV, RSQRT and POWT to the bit, the load-time checks, and
the run of a program on one element (R328-R332). -/

namespace Sys2Proof.Machine

abbrev F32 := BitVec 32

def numOf (x : F32) : Num := fp32.decode x.toNat

/-- Round to FP32, to nearest even (R329). -/
def rnd32 (v : Num) : F32 := BitVec.ofNat 32 (fp32.encode 1 0 v).1

def f32One : F32 := 0x3F800000

/-! ## Unbounded-exponent arithmetic (R330) -/

/-- Round to `p` significant bits, to nearest even, with an unbounded exponent. -/
def sig (p : Nat) : Num → Num
  | .fin n m e =>
    if m = 0 then .fin n m e
    else
      let q := magLog m e - ((p : Int) - 1)
      let (quo, rem, sh) := splitAt_ m e q
      .fin n (if roundsUp 1 0 quo rem sh then quo + 1 else quo) q
  | x => x

def fma24 (a b c : Num) : Num := sig 24 ((a.mul b).add c)

/-- a / b to the nearest integer, ties to even. -/
def divNearest (a b : Nat) : Nat :=
  let q := a / b
  if b < 2 * (a % b) || (2 * (a % b) == b && q % 2 == 1) then q + 1 else q

/-- The largest n with n^2 * d ≤ a, built bit by bit from bit `k` - 1 down. -/
def rootBits (a d : Nat) : Nat → Nat → Nat
  | 0, n => n
  | k + 1, n => rootBits a d k (if (n + 2 ^ k) * (n + 2 ^ k) * d ≤ a then n + 2 ^ k else n)

/-- The square root of a / d to the nearest integer, ties to even. -/
def rootNearest (a d : Nat) : Nat :=
  let n := rootBits a d 14 0
  let up := (2 * n + 1) * (2 * n + 1) * d
  if up < 4 * a || (up == 4 * a && n % 2 == 1) then n + 1 else n

/-- The estimate of 1 / b. -/
def divSeed (n : Bool) (m : Nat) (e : Int) : Num :=
  let l := Nat.log2 m
  let k := (m - 2 ^ l) * 256 / 2 ^ l
  .fin n (divNearest (512 * 4096) (513 + 2 * k)) (-12 - (e + l))

def refineDiv (b y : Num) : Num :=
  let r := fma24 b.negate y (.fin false 1 0)
  fma24 y r y

/-- DIV (R330). -/
def f32Div (a b : F32) : F32 :=
  match numOf a, numOf b with
  | .nan, _ => rnd32 .nan
  | _, .nan => rnd32 .nan
  | .inf _, .inf _ => rnd32 .nan
  | .inf n, .fin m _ _ => rnd32 (.inf (n != m))
  | .fin n _ _, .inf m => rnd32 (.fin (n != m) 0 0)
  | .fin n1 m1 e1, .fin n2 m2 e2 =>
    if m2 = 0 then (if m1 = 0 then rnd32 .nan else rnd32 (.inf (n1 != n2)))
    else if m1 = 0 then rnd32 (.fin (n1 != n2) 0 0)
    else
      let x := Num.fin n1 m1 e1
      let d := Num.fin n2 m2 e2
      let y := refineDiv d (refineDiv d (divSeed n2 m2 e2))
      let q := sig 24 (x.mul y)
      let r := fma24 d.negate q x
      rnd32 ((r.mul y).add q)

/-- The estimate of 1 / √a: a is doubled once so that its exponent can be made even. -/
def rootSeed (m : Nat) (e : Int) : Num :=
  let m := 2 * m
  let e := e - 1
  let l := Nat.log2 m
  let ev := if (e + l) % 2 = 0 then l else l - 1
  let k := (m - 2 ^ ev) * 64 / 2 ^ ev
  .fin false (rootNearest (128 * 4096 * 4096) (129 + 2 * k)) (-12 - (e + ev) / 2)

/-- One refinement, before its last rounding. -/
def refineRoot (a y : Num) : Num :=
  let h := sig 24 (a.mul y)
  let r := fma24 h.negate y (.fin false 1 0)
  ((sig 24 (y.mul r)).mul (.fin false 1 (-1))).add y

/-- RSQRT (R330). -/
def f32Rsqrt (a : F32) : F32 :=
  match numOf a with
  | .nan => rnd32 .nan
  | .inf n => if n then rnd32 .nan else rnd32 Num.zero
  | .fin n m e =>
    if m = 0 then rnd32 (.inf n)
    else if n then rnd32 .nan
    else
      let x := Num.fin false m e
      rnd32 (refineRoot x (sig 24 (refineRoot x (rootSeed m e))))

def f32Add (a b : F32) : F32 := rnd32 ((numOf a).add (numOf b))
def f32Sub (a b : F32) : F32 := rnd32 ((numOf a).add (numOf b).negate)
def f32Mul (a b : F32) : F32 := rnd32 ((numOf a).mul (numOf b))
def f32Fma (a b c : F32) : F32 := rnd32 (((numOf a).mul (numOf b)).add (numOf c))
def f32Max (a b : F32) : F32 := rnd32 ((numOf a).maximum (numOf b))
def f32Min (a b : F32) : F32 := rnd32 ((numOf a).minimum (numOf b))
def f32Neg (a : F32) : F32 := rnd32 (numOf a).negate

def f32Abs (a : F32) : F32 :=
  match numOf a with
  | .nan => rnd32 .nan
  | .inf _ => rnd32 (.inf false)
  | .fin _ m e => rnd32 (.fin false m e)

/-- POWT (R331): over the bits of t below bit `k`, from the highest down. -/
def powBits (a : F32) (t : Nat) : Nat → F32 → F32
  | 0, r => r
  | k + 1, r =>
    let r := f32Mul r r
    powBits a t k (if t.testBit k then f32Mul r a else r)

def f32Powt (a : F32) (t : Nat) : F32 := if t = 0 then f32One else powBits a t (Nat.log2 t + 1) f32One

/-- SELECT's conditions (Table 14-12). -/
def selects (cond : Nat) (a : F32) : Bool :=
  let v := numOf a
  let pos := Num.zero.lt v && !v.isZero
  let neg := v.lt Num.zero && !v.isZero
  match cond with
  | 0 => v != .nan && pos
  | 1 => v != .nan && (pos || v.isZero)
  | 2 => v != .nan && neg
  | 3 => v != .nan && (neg || v.isZero)
  | 4 => v == .nan
  | 5 => v.finite
  | 6 => !v.isZero
  | _ => false

/-! ## Instruction words (Table 14-10) -/

def wOp (w : BitVec 32) : Nat := w.toNat / 2 ^ 26
def wD (w : BitVec 32) : Nat := w.toNat / 2 ^ 23 % 8
def wA (w : BitVec 32) : Nat := w.toNat / 2 ^ 18 % 32
def wB (w : BitVec 32) : Nat := w.toNat / 2 ^ 13 % 32
def wC (w : BitVec 32) : Nat := w.toNat / 2 ^ 8 % 32
def wImm (w : BitVec 32) : Nat := w.toNat % 256
def wSd (w : BitVec 32) : Nat := w.toNat / 2 ^ 22 % 16
def wFn (w : BitVec 32) : Nat := w.toNat / 2 ^ 18 % 16
/-- Operands A and B of a SCALAR word. -/
def wSa (w : BitVec 32) : Nat := w.toNat / 2 ^ 13 % 32
def wSb (w : BitVec 32) : Nat := w.toNat / 2 ^ 8 % 32

/-- An operand of Table 14-11. -/
def operand (temps slots : List F32) (c : Nat) : F32 :=
  if c < 8 then temps.getD c 0
  else if c = 8 then 0
  else if c = 9 then f32One
  else if c = 10 then 0xBF800000
  else if c = 11 then 0x3F000000
  else slots.getD (c - 16) 0

/-- A SCALAR function (Table 14-13). -/
def scalarFn (fn t : Nat) (a b : F32) : F32 :=
  match fn with
  | 0 => f32Add a b
  | 1 => f32Sub a b
  | 2 => f32Mul a b
  | 3 => f32Div a b
  | 4 => f32Rsqrt a
  | 5 => f32Powt a t
  | 6 => rnd32 (.fin false t 0)
  | 7 => f32Max a b
  | _ => f32Min a b

/-- The scalar slots after the SCALAR words (R329). -/
def runScalars (t : Nat) (ws : List (BitVec 32)) (slots : List F32) : List F32 :=
  ws.foldl (fun s w => if wOp w = 0x20 then
      s.set (wSd w) (scalarFn (wFn w) t (operand [] s (wSa w)) (operand [] s (wSb w))) else s) slots

/-- The signed value of IMM. -/
def immInt (n : Nat) : Int := (BitVec.ofNat 8 n).toInt

/-- A vector word's result D (Table 14-12); `g` gives the streams. -/
def vectorFn (w : BitVec 32) (temps slots : List F32) (streams : List F32) : F32 :=
  let a := operand temps slots (wA w)
  let b := operand temps slots (wB w)
  let c := operand temps slots (wC w)
  match wOp w with
  | 0x01 => f32Add a b
  | 0x02 => f32Sub a b
  | 0x03 => f32Mul a b
  | 0x04 => f32Fma a b c
  | 0x05 => f32Div a b
  | 0x06 => f32Rsqrt a
  | 0x07 => f32Max a b
  | 0x08 => f32Min a b
  | 0x09 => f32Abs a
  | 0x0A => f32Neg a
  | 0x0B => f32Min (f32Max a b) c
  | 0x0C => if selects (wImm w % 8) a then b else c
  | 0x0D => rnd32 ((fltOf (wImm w % 16)).decode ((fltOf (wImm w % 16)).encode (wImm w / 16 % 4) 0 (numOf a)).1)
  | 0x0E => rnd32 ((numOf a).scale (immInt (wImm w)))
  | _ => streams.getD (wImm w % 8) 0

/-- Run the vector words on one element: what is stored to streams 1-4, by stream. -/
def runElement (slots streams : List F32) : List (BitVec 32) → List F32 → List (Nat × F32) → List (Nat × F32)
  | [], _, out => out
  | w :: ws, temps, out =>
    let o := wOp w
    if o = 0x00 then out
    else if o = 0x20 then runElement slots streams ws temps out
    else if o = 0x11 then runElement slots streams ws temps (out ++ [(wImm w % 8, operand temps slots (wA w))])
    else runElement slots streams ws (temps.set (wD w) (vectorFn w temps slots streams)) out

/-! ## Load-time checks (R332) -/

def opNames (o : Nat) : Bool := o ≤ 0x0E || o == 0x10 || o == 0x11 || o == 0x20

def opReserved (c : Nat) : Bool := decide (0x0C ≤ c) && decide (c ≤ 0x0F)

/-- How many of the operands A, B, C an opcode names. -/
def opArity (o : Nat) : Nat :=
  if o = 0x00 || o = 0x10 then 0
  else if o = 0x06 || o = 0x09 || o = 0x0A || o = 0x0D || o = 0x0E || o = 0x11 then 1
  else if o = 0x04 || o = 0x0B || o = 0x0C then 3
  else 2

def usesImm (o : Nat) : Bool := o == 0x0C || o == 0x0D || o == 0x0E || o == 0x10 || o == 0x11

/-- Values of IMM that the opcode admits. -/
def immOk (o imm : Nat) : Bool :=
  match o with
  | 0x0C => imm < 7
  | 0x0D => decide (1 ≤ imm % 16) && decide (imm % 16 ≤ 5) && (imm / 16 == 1 || imm / 16 == 2)
  | 0x0E => true
  | 0x10 => imm < 4
  | 0x11 => decide (1 ≤ imm) && decide (imm ≤ 4)
  | _ => imm == 0

/-- What the checks carry from word to word: temporaries written, streams read and written, a vector word seen. -/
structure KCheck where
  temps : List Nat
  reads : Nat
  writes : Nat
  vector : Bool
  deriving DecidableEq, Repr

def scalarOk (w : BitVec 32) (k : KCheck) : Bool :=
  let fn := wFn w
  decide (fn ≤ 8) && wImm w == 0 && !k.vector &&
    (if fn = 6 then wSa w == 0 && wSb w == 0
     else decide (8 ≤ wSa w) && !opReserved (wSa w) &&
       (if fn = 4 || fn = 5 then wSb w == 0 else decide (8 ≤ wSb w) && !opReserved (wSb w)))

def vectorOk (w : BitVec 32) (k : KCheck) : Bool :=
  let o := wOp w
  let n := opArity o
  let named := [wA w, wB w, wC w].take n
  let rest := [wA w, wB w, wC w].drop n
  rest.all (· == 0) && (usesImm o || wImm w == 0) && immOk o (wImm w) &&
    (o != 0x11 || (wD w == 0 && decide (wA w < 8) && !k.writes.testBit (wImm w))) &&
    named.all fun c => !opReserved c && (decide (8 ≤ c) || k.temps.contains c)

/-- Check one word before END; the new carry, or none when it breaks a rule. -/
def checkWord (w : BitVec 32) (k : KCheck) : Option KCheck :=
  let o := wOp w
  if !opNames o || o = 0x00 then none
  else if o = 0x20 then (if scalarOk w k then some k else none)
  else if !vectorOk w k then none
  else some { temps := if o = 0x11 then k.temps else wD w :: k.temps
              reads := if o = 0x10 then k.reads ||| 2 ^ wImm w else k.reads
              writes := if o = 0x11 then k.writes ||| 2 ^ wImm w else k.writes
              vector := true }

/-- Check the program: the index of the first offending word, if any. Rules over the whole program name the END word. -/
def checkWords (ninstr reads writes : Nat) : Nat → List (BitVec 32) → KCheck → Option Nat
  | i, [], _ => some i
  | i, w :: ws, k =>
    if i = ninstr then
      (if w != 0 || !ws.isEmpty || !k.writes.testBit 4 || k.reads != reads || k.writes != writes then some i else none)
    else match checkWord w k with
      | none => some i
      | some k => checkWords ninstr reads writes (i + 1) ws k

def kernelFault (ninstr reads writes : Nat) (ws : List (BitVec 32)) : Option Nat :=
  checkWords ninstr reads writes 0 ws ⟨[], 0, 0, false⟩

end Sys2Proof.Machine
end

