-- ==== Sys2Proof/Machine/CollPlan.lean ====
section
/-! DEFINITION. The steps of a collective and the partners and messages of its preamble round, as functions of the
member count, the group sizes and the rank (R271, R275, R279, R280, R471). -/

namespace Sys2Proof.Machine

/-! ## Blocks and positions -/

/-- B(r) of R271. -/
def blockStart (count n r : Nat) : Nat := min count (32 * (r * ceilDiv count 32 / n))

/-- Group sizes N1, N2, N3. -/
abbrev Groups := Nat × Nat × Nat

def Groups.size (g : Groups) (l : Nat) : Nat := if l = 1 then g.1 else if l = 2 then g.2.1 else g.2.2

/-- Distance in rank between neighbours of a level's group. -/
def Groups.stride (g : Groups) (l : Nat) : Nat := if l = 1 then 1 else if l = 2 then g.1 else g.1 * g.2.1

/-- Position of rank `r` in its group at level `l` (R279). -/
def Groups.pos (g : Groups) (l r : Nat) : Nat := r / g.stride l % g.size l

/-- Rank with position `q` at level `l` and the other positions of `r`. -/
def Groups.move (g : Groups) (l r q : Nat) : Nat := r - g.pos l r * g.stride l + q * g.stride l

/-- ⌊log2⌋ of the largest power of two not above `n`. -/
def lgOf (n : Nat) : Nat := Nat.log2 n

/-- Levels 1-3 in use (R307). -/
def Groups.used (g : Groups) : List Nat := [1, 2, 3].filter fun l => decide (1 < g.size l)

/-- The highest level in use, 0 when none is. -/
def Groups.top (g : Groups) : Nat := g.used.getLastD 0

/-! ## What a member holds

Which blocks a member holds follows from one status per level: the member holds block `b` when every level's
status admits the positions of its rank and of `b`. -/

inductive Hold where
  /-- Every block. -/
  | all
  /-- The blocks of the member's own position. -/
  | own
  /-- Positions below p hold the blocks whose position modulo p agrees in its top `t` bits. -/
  | top (t : Nat)
  /-- As `top t`, and only the positions whose other bits are those of the root (R280). -/
  | rooted (t : Nat) (root : Nat)
  /-- Only the root's position, every block. -/
  | root (root : Nat)
  deriving DecidableEq, Repr

/-- The status admits position `q` of the rank and `c` of the block, in a group of `n`. -/
def Hold.admits (h : Hold) (n q c : Nat) : Bool :=
  let lg := lgOf n
  let p := 2 ^ lg
  match h with
  | .all => true
  | .own => c == q
  | .top t => decide (q < p) && c % p / 2 ^ (lg - t) == q / 2 ^ (lg - t)
  | .rooted t r => decide (q < p) && c % p / 2 ^ (lg - t) == q / 2 ^ (lg - t) && q % 2 ^ (lg - t) == r % p % 2 ^ (lg - t)
  | .root r => q == r

/-- Statuses of levels 1, 2 and 3. -/
abbrev Holds := Hold × Hold × Hold

def Holds.get (h : Holds) (l : Nat) : Hold := if l = 1 then h.1 else if l = 2 then h.2.1 else h.2.2

def Holds.set (h : Holds) (l : Nat) (x : Hold) : Holds :=
  if l = 1 then (x, h.2.1, h.2.2) else if l = 2 then (h.1, x, h.2.2) else (h.1, h.2.1, x)

/-- Rank `r` holds block `b`. -/
def holdsBlock (g : Groups) (h : Holds) (r b : Nat) : Bool :=
  [1, 2, 3].all fun l => (h.get l).admits (g.size l) (g.pos l r) (g.pos l b)

/-! ## Steps -/

inductive StepKind where
  /-- A fold, an unfold, or halving or doubling step k with its bit of the position. -/
  | fold | unfold | exchange (bit : Nat)
  deriving DecidableEq, Repr

/-- One network step before it is seen from a member: its level, the STEP of Table 13-6, its kind, whether the
receiver combines, the statuses before and after, and whether the level's narrowing runs before it. -/
structure NetStep where
  level : Nat
  k : Nat
  kind : StepKind
  combine : Bool
  before : Holds
  after : Holds
  entry : Bool
  deriving DecidableEq, Repr

/-- Carry the statuses through a list of step makers. -/
def runSteps (fs : List (Holds → NetStep)) (h : Holds) : List NetStep × Holds :=
  fs.foldl (fun acc f =>
    let st := f acc.2
    (acc.1 ++ [st], st.after)) ([], h)

/-- A level's halving phase: its fold, when the group is no power of two, then halving steps 1 to log2 p. `st t` is
the status after step t. -/
def halving (g : Groups) (combine : Bool) (st : Nat → Hold) (l : Nat) : List (Holds → NetStep) :=
  let n := g.size l
  let lg := lgOf n
  let f : List (Holds → NetStep) :=
    if n = 2 ^ lg then [] else [fun h => ⟨l, 0, .fold, combine, h, h.set l (st 0), combine⟩]
  let hs : List (Holds → NetStep) := (List.range lg).map fun i =>
    fun h => ⟨l, i + 1, .exchange (2 ^ (lg - (i + 1))), combine, h, h.set l (st (i + 1)), combine && n == 2 ^ lg && i == 0⟩
  f ++ hs

/-- A level's doubling phase: its doubling steps, then its unfold to status `fin`. -/
def doubling (g : Groups) (st : Nat → Hold) (fin : Hold) (l : Nat) : List (Holds → NetStep) :=
  let n := g.size l
  let lg := lgOf n
  let ds : List (Holds → NetStep) := (List.range lg).map fun i =>
    let k := lg - i
    fun h => ⟨l, k, .exchange (2 ^ (lg - k)), false, h, h.set l (st (k - 1)), false⟩
  let u : List (Holds → NetStep) :=
    if n = 2 ^ lg then [] else [fun h => ⟨l, 0, .unfold, false, h, h.set l fin, false⟩]
  ds ++ u

/-- The unfold that hands a folded position its own blocks at the end of a reduce-scatter (Table 14-8). -/
def handBack (g : Groups) (l : Nat) : List (Holds → NetStep) :=
  let n := g.size l
  if n = 2 ^ lgOf n then [] else [fun h => ⟨l, 0, .unfold, false, h, h.set l .own, false⟩]

/-- The fold that gives a folded position's block to its partner before an all-gather (notes/assumptions/27). -/
def handIn (g : Groups) (l : Nat) : List (Holds → NetStep) :=
  let n := g.size l
  if n = 2 ^ lgOf n then [] else [fun h => ⟨l, 0, .fold, false, h, h.set l (.top (lgOf n)), false⟩]

/-- The reduce-scatter part and the all-gather part of a kind, in order. -/
def phases (g : Groups) (kind root : Nat) : List NetStep × List NetStep :=
  let up := g.used
  let down := up.reverse
  let rootPos (l : Nat) : Nat := g.pos l root
  let start : Hold → Holds := fun h => (h, h, h)
  let scatter : List (Holds → NetStep) := up.flatMap (halving g true Hold.top)
  let back : List (Holds → NetStep) := down.flatMap (handBack g)
  let gather : List (Holds → NetStep) := down.flatMap (doubling g Hold.top .all)
  let hand : List (Holds → NetStep) := up.flatMap (handIn g)
  if kind = 1 then
    let a := runSteps scatter (start .all)
    (a.1, (runSteps gather a.2).1)
  else if kind = 2 then ((runSteps (scatter ++ back) (start .all)).1, [])
  else if kind = 9 then ((runSteps (scatter ++ back) (start .all)).1, (runSteps (hand ++ gather) (start .own)).1)
  else if kind = 5 then
    let toRoot : List (Holds → NetStep) := down.flatMap fun l =>
      doubling g (fun t => .rooted t (rootPos l)) (.root (rootPos l)) l
    ((runSteps (scatter ++ back) (start .all)).1, (runSteps (hand ++ toRoot) (start .own)).1)
  else if kind = 3 then ([], (runSteps (hand ++ gather) (start .own)).1)
  else if kind = 4 then
    let spread : List (Holds → NetStep) := up.flatMap fun l => halving g false (fun t => .rooted t (rootPos l)) l
    let a := runSteps spread (.root (rootPos 1), .root (rootPos 2), .root (rootPos 3))
    ([], a.1 ++ (runSteps gather a.2).1)
  else ([], [])

/-- The position a member exchanges with at a step. -/
def NetStep.partnerPos (g : Groups) (t : NetStep) (q : Nat) : Option Nat :=
  let n := g.size t.level
  let p := 2 ^ lgOf n
  match t.kind with
  | .exchange bit => if q < p then some (q ^^^ bit) else none
  | _ => if p ≤ q then some (q - p) else if q + p < n then some (q + p) else none

/-- Whether rank `a` gives block `b` to rank `c` at a step. -/
def NetStep.gives (g : Groups) (t : NetStep) (a c b : Nat) : Bool :=
  holdsBlock g t.before a b && holdsBlock g t.after c b && (t.combine || !holdsBlock g t.before c b)

/-- A step as one member sees it. The partners are the same but for ALLTOALL. -/
structure CStep where
  num : Nat
  level : Nat
  k : Nat
  combine : Bool
  entry : Bool
  /-- Blocks held when the step begins, when `entry` asks for them. -/
  held : List Nat
  dst : Option Nat
  src : Option Nat
  send : List Nat
  recv : List Nat
  deriving DecidableEq, Repr

def NetStep.of (g : Groups) (n r num : Nat) (t : NetStep) : CStep :=
  let partner := (t.partnerPos g (g.pos t.level r)).map fun q => g.move t.level r q
  let blocks (f : Nat → Nat → Bool) : List Nat := match partner with
    | some c => (List.range n).filter (f c)
    | none => []
  { num := num, level := t.level, k := t.k, combine := t.combine, entry := t.entry
    held := if t.entry then (List.range n).filter (holdsBlock g t.before r) else []
    dst := partner, src := partner
    send := blocks fun c b => t.gives g r c b
    recv := blocks fun c b => t.gives g c r b }

/-- The steps of member `r`, numbered from 1, and how many of them are the reduce-scatter's. -/
def planOf (g : Groups) (kind n r root : Nat) : List CStep × Nat :=
  if kind = 6 || kind = 7 then
    ((List.range (n - 1)).map fun i =>
      let t := i + 1
      let a := (r + t) % n
      let b := (r + n - t) % n
      ⟨t, 1, 0, false, false, [], some a, some b, [a], [b]⟩, 0)
  else
    let (a, b) := phases g kind root
    (((a ++ b).zipIdx 1).map fun p => p.1.of g n r p.2, a.length)

/-! ## The preamble round (R275) -/

inductive Move where
  | send (partner step : Nat)
  | recv (partner step : Nat)
  deriving DecidableEq, Repr

def roundMoves (n r : Nat) : List Move :=
  let lg := lgOf n
  let p := 2 ^ lg
  if n ≤ 1 then []
  else if p ≤ r then [.send (r - p) 0, .recv (r - p) 0xFF]
  else
    (if r < n - p then [Move.recv (r + p) 0] else []) ++
    ((List.range lg).flatMap fun i => [Move.send (r ^^^ 2 ^ i) (i + 1), Move.recv (r ^^^ 2 ^ i) (i + 1)]) ++
    (if r < n - p then [Move.send (r + p) 0xFF] else [])

/-- The members that share a message of the round with `r` (R289). -/
def roundPartners (n r : Nat) : List Nat :=
  let lg := lgOf n
  let p := 2 ^ lg
  if n ≤ 1 then []
  else if p ≤ r then [r - p]
  else ((List.range lg).map fun i => r ^^^ 2 ^ i) ++ (if r < n - p then [r + p] else [])

/-! ## Vectors of a collective -/

/-- What a vector of `count` elements in format `code` takes in record layout. -/
def blankVec (code count : Nat) : List Byte := List.replicate (fmtBytes code count) 0

/-- Bytes of a block of a vector in record layout. -/
def blockBytes (code count n : Nat) (v : List Byte) (b : Nat) : List Byte :=
  let lo := blockStart count n b
  let hi := blockStart count n (b + 1)
  if hi ≤ lo then [] else cutRecords code v lo hi

/-- Length in bytes of a list of blocks. -/
def blocksLen (code count n : Nat) (bs : List Nat) : Nat :=
  (bs.map fun b => fmtBytes code (blockStart count n (b + 1) - blockStart count n b)).sum

/-- The element ranges of a segment made of blocks in order. -/
def blockRanges (count n : Nat) (bs : List Nat) : List (Nat × Nat) :=
  bs.map fun b => (blockStart count n b, blockStart count n (b + 1))

/-- Elements [lo, hi) as exact values. -/
def readElems (code : Nat) (v : List Byte) (lo hi : Nat) : List Num := (decodeVec code (cutRecords code v lo hi)).take (hi - lo)

/-- Draws of elements from `lo` on. -/
def draws (d : DrawKey) (lo n : Nat) : List Nat := (List.range n).map fun i => draw d (lo + i)

/-- The part of a payload of `len` bytes at offset `off` of a segment of ranges: (first element, bytes), piece by piece. -/
def placeIn (code : Nat) : List (Nat × Nat) → Nat → List Byte → List (Nat × List Byte)
  | [], _, _ => []
  | (lo, hi) :: rs, off, bytes =>
    let len := fmtBytes code (hi - lo)
    if bytes.isEmpty then []
    else if len ≤ off then placeIn code rs (off - len) bytes
    else
      let n := min (len - off) bytes.length
      (lo + off / recBytes code * recElems code, bytes.take n) :: placeIn code rs 0 (bytes.drop n)

/-- Writes of records to a user buffer of `n` elements at `addr`, from element `lo` on (R299): address and bytes. -/
def userWrites (code n addr lo : Nat) (recs : List Byte) : List (Nat × List Byte) :=
  if recs.isEmpty then []
  else if isMx code then
    let nb := ceilDiv n 32
    let bs := chunks 33 recs
    [(addr + lo / 32 * 32, bs.flatMap fun r => r.take 32), (addr + 32 * nb + lo / 32, bs.flatMap fun r => r.drop 32)]
  else [(addr + lo * recBytes code, recs)]

/-- Counts of what fell outside the finite range. -/
def countBeyond (x : Beyond) (l : List Beyond) : Nat := (l.filter (· == x)).length

end Sys2Proof.Machine
end

