-- ==== Sys2Proof/Machine/Cipher.lean ====
section
/-! DEFINITION. Packet protection: AES-256-GCM with a 128-bit initialisation vector (NIST SP 800-38D, which R410 names), and the
vector and the authenticated data of a packet (R410, R411, Table 18-4). -/

namespace Sys2Proof.Machine

/-! ## AES-256 -/

/-- The S-box, byte `k` of this number for input `k`. -/
def sboxTable : Nat := 0x16BB54B00F2D99416842E6BF0D89A18CDF2855CEE9871E9B948ED9691198F8E19E1DC186B95735610EF6034866B53E708A8BBD4B1F74DDE8C6B4A61C2E2578BA08AE7A65EAF4566CA94ED58D6D37C8E779E4959162ACD3C25C2406490A3A32E0DB0B5EDE14B8EE4688902A22DC4F816073195D643D7EA7C41744975FEC130CCDD2F3FF1021DAB6BCF5389D928F40A351A89F3C507F02F94585334D43FBAAEFD0CF584C4A39BECB6A5BB1FC20ED00D153842FE329B3D63B52A05A6E1B1A2C830975B227EBE28012079A059618C323C7041531D871F1E5A534CCF73F362693FDB7C072A49CAFA2D4ADF04759FA7DC982CA76ABD7FE2B670130C56F6BF27B777C63

def sbox (b : Byte) : Byte := BitVec.ofNat 8 (sboxTable / 256 ^ b.toNat)

def xorBytes (a b : List Byte) : List Byte := List.zipWith (fun x y => x ^^^ y) a b

/-- Multiply by x in the field of the cipher. -/
def xtime (b : Byte) : Byte := if b.getLsbD 7 then (b <<< 1) ^^^ 0x1B else b <<< 1

/-- One more word of the key schedule: `ws` holds the last eight, oldest first; `i` is its index. -/
def keyWord (ws : List (List Byte)) (i : Nat) : List Byte :=
  let t := ws.getD 7 []
  let t :=
    if i % 8 = 0 then xorBytes ((t.drop 1 ++ t.take 1).map sbox) [BitVec.ofNat 8 (2 ^ (i / 8 - 1)), 0, 0, 0]
    else if i % 8 = 4 then t.map sbox
    else t
  xorBytes (ws.getD 0 []) t

def keyWords : Nat → List (List Byte) → Nat → List (List Byte)
  | 0, _, _ => []
  | n + 1, ws, i =>
    let w := keyWord ws i
    w :: keyWords n (ws.drop 1 ++ [w]) (i + 1)

/-- The 60 words of the key schedule. -/
def keySchedule (key : BitVec 256) : List (List Byte) :=
  let first := (List.range 8).map fun i => slice (beBytes 32 key.toNat) (4 * i) 4
  first ++ keyWords 52 first 8

def roundKey (ks : List (List Byte)) (r : Nat) : List Byte := ((ks.drop (4 * r)).take 4).flatten

def shiftRows (b : List Byte) : List Byte := (List.range 16).map fun i => b.getD (i % 4 + 4 * ((i / 4 + i % 4) % 4)) 0

def mixColumn (c : List Byte) : List Byte :=
  (List.range 4).map fun i =>
    let a (k : Nat) : Byte := c.getD ((i + k) % 4) 0
    xtime (a 0) ^^^ xtime (a 1) ^^^ a 1 ^^^ a 2 ^^^ a 3

def mixColumns (b : List Byte) : List Byte := (List.range 4).flatMap fun i => mixColumn (slice b (4 * i) 4)

/-- One block. -/
def aesBlock (ks : List (List Byte)) (b : List Byte) : List Byte :=
  let b := (List.range 13).foldl (fun b r => xorBytes (mixColumns (shiftRows (b.map sbox))) (roundKey ks (r + 1)))
    (xorBytes b (roundKey ks 0))
  xorBytes (shiftRows (b.map sbox)) (roundKey ks 14)

/-- The inverse S-box, in the same form. -/
def invSboxTable : Nat := 0x7D0C2155631469E126D677BA7E042B17619953833CBBEBC8B0F52AAE4D3BE0A0EF9CC9939F7AE52D0D4AB519A97F51605FEC8027591012B131C7078833A8DD1FF45ACD78FEC0DB9A2079D2C64B3E56FC1BBE18AA0E62B76F89C5291D711AF1476EDF751CE837F9E28535ADE72274AC9673E6B4F0CECFF297EADC674F4111913A6B8A130103BDAFC1020F3FCA8F1E2CD00645B3B80558E4F70AD3BC8C00ABD890849D8DA75746155EDAB9EDFD5048706C92B6655DCC5CA4D41698688664F6F87225D18B6D49A25B76B224D92866A12E084EC3FA420B954CEE3D23C2A632947B54CBE9DEC444438E3487FF2F9B8239E37CFBD7F3819EA340BF38A53630D56A0952

def invSbox (b : Byte) : Byte := BitVec.ofNat 8 (invSboxTable / 256 ^ b.toNat)

def invShiftRows (b : List Byte) : List Byte := (List.range 16).map fun i => b.getD (i % 4 + 4 * ((i / 4 + 4 - i % 4) % 4)) 0

def invMixColumn (c : List Byte) : List Byte :=
  (List.range 4).map fun i =>
    let a (k : Nat) : Byte := c.getD ((i + k) % 4) 0
    let two (x : Byte) : Byte := xtime x
    let four (x : Byte) : Byte := xtime (xtime x)
    let eight (x : Byte) : Byte := xtime (xtime (xtime x))
    eight (a 0) ^^^ four (a 0) ^^^ two (a 0) ^^^ eight (a 1) ^^^ two (a 1) ^^^ a 1 ^^^ eight (a 2) ^^^ four (a 2) ^^^ a 2 ^^^
      eight (a 3) ^^^ a 3

def invMixColumns (b : List Byte) : List Byte := (List.range 4).flatMap fun i => invMixColumn (slice b (4 * i) 4)

/-- One block, deciphered. -/
def aesInverse (ks : List (List Byte)) (b : List Byte) : List Byte :=
  let b := (List.range 13).foldl (fun b r => invMixColumns (xorBytes ((invShiftRows b).map invSbox) (roundKey ks (13 - r))))
    (xorBytes b (roundKey ks 14))
  xorBytes ((invShiftRows b).map invSbox) (roundKey ks 0)

/-! ## Key unwrapping: AES-256-KW of a 32 B key (RFC 3394, which R406 names) -/

/-- One step of unwrapping: the check register and the four registers, at count `t`, for register `i`. -/
def unwrapStep (ks : List (List Byte)) (t i : Nat) (x : List Byte × List (List Byte)) : List Byte × List (List Byte) :=
  let b := aesInverse ks (xorBytes x.1 (beBytes 8 t) ++ x.2.getD i [])
  (b.take 8, x.2.set i (b.drop 8))

/-- The key that 40 B hold under a key-encryption key; none when the integrity check fails. -/
def unwrapKey (kek : BitVec 256) (wrapped : List Byte) : Option (BitVec 256) :=
  let ks := keySchedule kek
  let first := (slice wrapped 0 8, (List.range 4).map fun i => slice wrapped (8 + 8 * i) 8)
  let last := (List.range 24).foldl (fun x n => unwrapStep ks (24 - n) ((23 - n) % 4) x) first
  if last.1.all (· == 0xA6) then some (BitVec.ofNat 256 (beNat last.2.flatten)) else none

/-! ## GCM -/

def gcmBlock (b : List Byte) : BitVec 128 := BitVec.ofNat 128 (beNat b)

/-- The product of GHASH. -/
def ghashMul (x h : BitVec 128) : BitVec 128 :=
  ((List.range 128).foldl (fun (a : BitVec 128 × BitVec 128) i =>
    (if x.getLsbD (127 - i) then a.1 ^^^ a.2 else a.1,
      if a.2.getLsbD 0 then (a.2 >>> 1) ^^^ (0xE1#128 <<< 120) else a.2 >>> 1)) (0#128, h)).1

/-- GHASH over the bytes of `b`, the last block filled with zeros. -/
def ghash (h y : BitVec 128) (b : List Byte) : BitVec 128 :=
  (List.range (ceilDiv b.length 16)).foldl (fun y i => ghashMul (y ^^^ gcmBlock (slice b (16 * i) 16)) h) y

def gcmH (ks : List (List Byte)) : BitVec 128 := gcmBlock (aesBlock ks (leBytes 16 0))

/-- The pre-counter block of a 128-bit initialisation vector. -/
def gcmJ0 (h iv : BitVec 128) : BitVec 128 := ghash h 0 (beBytes 16 iv.toNat ++ beBytes 16 128)

def gcmCounter (j : BitVec 128) (n : Nat) : List Byte :=
  beBytes 16 (j.toNat / 2 ^ 32 * 2 ^ 32 + (j.toNat + n) % 2 ^ 32)

/-- Encrypt, or decrypt, the bytes of a text. -/
def gcmText (ks : List (List Byte)) (j : BitVec 128) (b : List Byte) : List Byte :=
  (List.range (ceilDiv b.length 16)).flatMap fun i => xorBytes ((b.drop (16 * i)).take 16) (aesBlock ks (gcmCounter j (i + 1)))

/-- The tag over authenticated data and ciphertext. -/
def gcmTag (ks : List (List Byte)) (h j : BitVec 128) (aad c : List Byte) : BitVec 128 :=
  ghash h (ghash h (ghash h 0 aad) c) (beBytes 8 (8 * aad.length) ++ beBytes 8 (8 * c.length)) ^^^ gcmBlock (aesBlock ks (gcmCounter j 0))

/-! ## Packets (R410, R411) -/

/-- CLASS of Table 18-4. -/
def ivClass (o : Byte) : Nat :=
  if o = 0x20 then 1 else if o = 0x21 then 2 else if o = 0x30 then 3 else if o = 0x31 then 4 else 0

def bitsSet (n : Nat) : Nat := ((List.range 256).filter n.testBit).length

/-- VARIANT of Table 18-4; `text` is the payload in clear, which an ACK's HELD_MAP stands in. -/
def ivVariant (p : Packet) (held : Nat) : Nat :=
  match ivClass p.opcode with
  | 1 => p.pktOffset.toNat / 4096 % 2 ^ 19 * 2 ^ 14
  | 3 => p.aux.toNat / 2 ^ 16 * 2 ^ 17 + held % 256 * 2 ^ 9
  | 4 => p.aux.toNat % 256 * 2 ^ 25
  | _ => 0

/-- The initialisation vector (Table 18-4). -/
def packetIv (p : Packet) (gen ext held : Nat) : BitVec 128 := BitVec.ofNat 128
  (p.srcModule.toNat * 2 ^ 108 + p.srcQpn.toNat * 2 ^ 84 + ivClass p.opcode * 2 ^ 81 + gen % 256 * 2 ^ 73 + ext % 2 ^ 40 * 2 ^ 33 +
    ivVariant p held)

/-- The transport header with ACK_REQ and RETX read as zero (R411). -/
def packetAad (p : Packet) : List Byte :=
  headerBytes { p with flags := p.flags &&& 0xEB }

end Sys2Proof.Machine
end

