-- ==== Sys2Proof/Machine/Port.lean ====
section
/-! DEFINITION. What the port complex does for the other subsystems: writes presented at half-port bridges,
ring reads through the device cache, flushing reads, and the link-status object (R88, R98-R101, Table 04-8). -/

namespace Sys2Proof.Machine

/-- The half-port in the host role, if one is. -/
def State.hostHp (s : State) : Option Nat := (List.range 8).find? fun h => (s.hp h).role == 1

/-- Accelerator half-ports: role ACC_ROOT or ACC_CXLMEM in force. -/
def HalfPortSt.isAcc (p : HalfPortSt) : Bool := p.role == 2 || p.role == 3

/-- The link runs CXL.mem toward an accelerator (R97); after a failed negotiation it runs as ACC_ROOT (R85). -/
def HalfPortSt.isCxlMem (p : HalfPortSt) : Bool := p.role == 3 && p.proto != 1

/-- X16 as written, significant on half-ports a only (R79). -/
def State.x16Written (s : State) (h : Nat) : Bool := h % 2 == 0 && s.obj Row.x16 h == 1

/-- PENDING: ROLE, X16 or SPEED_CAP as written is not yet in force (R81). Until the configuration load the objects hold no
written values, and PENDING is 0. -/
def State.rolePending (s : State) (h : Nat) : Bool :=
  let p := s.hp h
  s.boot.firmware && (s.obj Row.role h != p.role || s.x16Written h != p.x16 || s.obj Row.speedCap h != p.cap)

/-- The role now running: an ACC_CXLMEM half-port whose partner did not negotiate CXL.mem runs as ACC_ROOT (R85). -/
def HalfPortSt.roleNow (p : HalfPortSt) : Nat := if p.role = 3 && p.up && p.proto = 1 then 2 else p.role

/-- The LINK_STATUS word of half-port `h` (Table 04-8). -/
def State.linkStatus (s : State) (h : Nat) : Nat :=
  let p := s.hp h
  p.width + p.speed * 2 ^ 8 + p.proto * 2 ^ 12 + p.degraded.toNat * 2 ^ 16 + p.perst.toNat * 2 ^ 17 +
    (s.rolePending h).toNat * 2 ^ 18 + (s.hp (h / 2 * 2)).x16.toNat * 2 ^ 19 + p.roleNow * 2 ^ 20

/-! ## Posted writes -/

/-- A placement write presented at the bridge of `h` (R97, R98). A module that has yielded presents none (R369). -/
def State.placeWrite (s : State) (h addr : Nat) (bytes : List Byte) : State :=
  let ro := s.obj Row.roEnable h == 1 && (s.hp h).relaxed
  if s.twin.stopped then s
  else (s.emit (if (s.hp h).isCxlMem then .memWr h addr bytes else .place h addr bytes ro)).updHp h fun p => { p with
    presented := p.presented + 1, placements := p.placements + 1, lastAddr := addr,
    placedBytes := match p.placedBytes with
      | [] => [bytes.length]
      | b :: bs => (b + bytes.length) :: bs }

/-! ## Ring reads -/

/-- Ring lines of host memory go through the device cache when CXL.cache is negotiated and CACHE_ENABLE is 1. -/
def State.cacheUsed (s : State) (h : Nat) : Bool :=
  s.hostHp == some h && s.objBit Row.hostProtocol 1 && s.obj Row.cacheEnable == 1

/-- Bring a line to the most recently used place, evicting the least recently used beyond 16,384 (R88). -/
def State.cacheFill (s : State) (line : Nat) : State :=
  let s := s.emit (.rdShared line)
  match s.cache with
  | old :: rest =>
    if 16384 ≤ s.cache.length then { s.emit (.cleanEvict old) with cache := rest ++ [line] }
    else { s with cache := s.cache ++ [line] }
  | [] => { s with cache := [line] }

/-- A read that the device cache does not serve: of a receive ring or of a fragment table (R88). -/
def State.readBus (s : State) (h addr len : Nat) : State := s.emit (.ringRead h addr len)

/-- A read of one entry, 64 B, of a submission or shared receive ring: a hit in the device cache costs no link traffic (R88). -/
def State.readEntry (s : State) (h addr : Nat) : State :=
  if s.cacheUsed h then
    let line := addr / 64
    if s.cache.contains line then { s with cache := s.cache.erase line ++ [line] } else s.cacheFill line
  else s.readBus h addr 64

/-! ## Flushing reads -/

/-- Issue a flushing read on `h`, covering every write presented so far, addressed to the last placement (R101). -/
def State.issueFlush (s : State) (h : Nat) : State :=
  let s := s.bump Row.flushCount 1 h
  let s := s.emit (.flushRead h (s.hp h).lastAddr)
  s.updHp h fun p => { p with flushing := some p.presented, flushes := p.flushes + 1 }

/-- The flushing read that a new wait on `h` takes: the next one to be issued, also while one is outstanding (R101). -/
def State.flushTicket (s : State) (h : Nat) : Nat := (s.hp h).flushes + 1

/-- A flushing read on `h` is wanted: at most one is outstanding, and while one is the next waits for its end. -/
def State.wantFlush (s : State) (h : Nat) : State := if (s.hp h).flushing.isSome then s else s.issueFlush h

/-! ## Address translation -/

/-- Bytes in a page (Table 06-10). -/
def pageBytes (code length : Nat) : Nat :=
  match code with
  | 0 => roundUp length 4096
  | 1 => 4096
  | 2 => 65536
  | 3 => 2097152
  | _ => 1073741824

/-- Bus pieces of `len` bytes at region offset `off`: bus address and length, page by page. -/
def Region.pieces (r : Region) : Nat → Nat → Nat → List (Nat × Nat)
  | 0, _, _ => []
  | fuel + 1, off, len =>
    if len = 0 then []
    else if r.pageSize = 0 then [(r.pages.getD 0 0 + off, len)]
    else
      let pb := pageBytes r.pageSize r.length
      let n := min len (pb - off % pb)
      (r.pages.getD (off / pb) 0 + off % pb, n) :: r.pieces fuel (off + n) (len - n)

/-- Bus pieces of the bytes [va, va + len) of a region. -/
def Region.bus (r : Region) (va len : Nat) : List (Nat × Nat) := r.pieces (len + 1) (va - r.va) len

/-! ## The region and key translation cache (R12, R185) -/

def translationBytes (e : Nat × Option Nat) : Nat := if e.2.isNone then 32 else 8

/-- The entries used last that fit into `room` bytes. -/
def keepTranslations : Nat → List (Nat × Option Nat) → List (Nat × Option Nat)
  | _, [] => []
  | room, e :: es => if translationBytes e ≤ room then e :: keepTranslations (room - translationBytes e) es else []

/-- Use an entry; one that the 64 MiB cache does not hold is fetched from CONTEXT and counted in REGION_MISS
(R203, notes/assumptions/76). -/
def State.useTranslation (s : State) (e : Nat × Option Nat) : State :=
  let s := if s.ctx.regions.contains e then s else s.bump Row.regionMiss
  { s with ctx := { s.ctx with regions := keepTranslations 67108864 (e :: s.ctx.regions.erase e) } }

/-- The descriptor of region `g`, and the page entries of its bytes [va, va + len). -/
def State.translations (s : State) (g va len : Nat) : List (Nat × Option Nat) :=
  match tget s.wq.regions g with
  | none => []
  | some r =>
    let pb := if r.pageSize = 0 then r.length else pageBytes r.pageSize r.length
    let first := (va - r.va) / pb
    let n := if len = 0 || va < r.va || r.va + r.length < va + len then 0 else (va - r.va + len - 1) / pb + 1 - first
    (g, none) :: (List.range n).map fun i => (g, some (first + i))

/-- Key check and translation of bytes [va, va + len) under `key`. -/
def State.translate (s : State) (key : Key) (va len : Nat) : State :=
  eachDo (s.translations (key.toNat / 256) va len) (fun e s => s.useTranslation e) s

/-- The descriptors that the key checks of some local pieces use. -/
def State.useKeys (s : State) (segs : List Seg) : State :=
  eachDo (segs.filter fun g => g.len != 0) (fun g s => s.translate g.key g.addr 0) s

/-- A region whose descriptor changes leaves the cache. -/
def State.dropTranslations (s : State) (g : Nat) : State :=
  { s with ctx := { s.ctx with regions := s.ctx.regions.filter fun e => e.1 != g } }

/-- Place `bytes` at the region's address `va`, and list the writes as half-port and number. -/
def State.placeRegion (s : State) (r : Region) (va : Nat) (bytes : List Byte) : State × List (Nat × Nat) :=
  let go := (r.bus va bytes.length).foldl (fun (acc : State × List Byte) (p : Nat × Nat) =>
    (acc.1.placeWrite r.path p.1 (acc.2.take p.2), acc.2.drop p.2)) (s, bytes)
  (go.1, if bytes.isEmpty then [] else [(r.path, (go.1.hp r.path).presented)])

/-- The region a key names, when its generation matches and it is valid (R150). -/
def State.regionOf (s : State) (k : Key) : Option Region :=
  match tget s.wq.regions (k.toNat / 256) with
  | none => none
  | some r => if r.valid && !r.poisoned && r.gen == BitVec.ofNat 8 k.toNat then some r else none

/-- R152: the local key check of one piece. -/
def State.segOk (s : State) (func : Nat) (write : Bool) (g : Seg) : Bool :=
  if g.len = 0 then true
  else match s.regionOf g.key with
    | none => false
    | some r => r.func == func && decide (r.va ≤ g.addr) && decide (g.addr + g.len ≤ r.va + r.length) &&
        (!write || r.access.testBit 0)

/-- Pieces, with their numbers from `i` on, that hold bytes [off, off + len) of a local side. -/
def usedSegs : Nat → List Seg → Nat → Nat → List (Nat × Seg)
  | _, [], _, _ => []
  | i, g :: gs, off, len =>
    if len = 0 then []
    else if g.len ≤ off then usedSegs (i + 1) gs (off - g.len) len
    else (i, g) :: usedSegs (i + 1) gs 0 (len - min (g.len - off) len)

/-- The address of fragment entry `i` of an entry whose local side is a fragment table (R126). -/
def fragSeg (e : Sqe) (i : Nat) : Seg := ⟨e.localKey, e.localAddr.toNat + 16 * i, 16⟩

/-- The keys that a use of bytes [off, off + len) of a local side checks again: those of its pieces and, for a fragment table,
that of the table (R127, R152, notes/assumptions/71). -/
def State.sideOk (s : State) (func : Nat) (write : Bool) (e : Sqe) (segs : List Seg) (off len : Nat) : Bool :=
  (usedSegs 0 segs off len).all fun p => s.segOk func write p.2 && (!e.x || s.segOk func false (fragSeg e p.1))

/-- Fragment entries are read again when they are used (R127). -/
def State.rereadFrags (s : State) (e : Sqe) (segs : List Seg) (off len : Nat) : State :=
  if !e.x then s
  else eachDo (usedSegs 0 segs off len) (fun p s =>
    let s := s.translate e.localKey (fragSeg e p.1).addr 16
    match s.regionOf e.localKey with
    | none => s
    | some r => eachDo (r.bus (fragSeg e p.1).addr 16) (fun b s => s.readBus r.path b.1 b.2) s) s

/-- Translation of bytes [off, off + len) of a local side. -/
def State.translateSide (s : State) : List Seg → Nat → Nat → State
  | [], _, _ => s
  | g :: gs, off, len =>
    if len = 0 then s
    else if g.len ≤ off then s.translateSide gs (off - g.len) len
    else (s.translate g.key (g.addr + off) (min (g.len - off) len)).translateSide gs 0 (len - min (g.len - off) len)

/-- Place `bytes` at message offset `off` of a local side made of pieces in order. -/
def State.placeSegs (s : State) : List Seg → Nat → List Byte → State × List (Nat × Nat)
  | [], _, _ => (s, [])
  | g :: gs, off, bytes =>
    if bytes.isEmpty then (s, [])
    else if g.len ≤ off then State.placeSegs s gs (off - g.len) bytes
    else
      let n := min (g.len - off) bytes.length
      let s := s.translate g.key (g.addr + off) n
      let (s, w) := match s.regionOf g.key with
        | none => (s, [])
        | some r => s.placeRegion r (g.addr + off) (bytes.take n)
      let (s, ws) := State.placeSegs s gs 0 (bytes.drop n)
      (s, w ++ ws)

/-- Half-ports whose memory `len` bytes at offset `off` of a local side lie in. -/
def State.segPaths (s : State) : List Seg → Nat → Nat → List Nat
  | [], _, _ => []
  | g :: gs, off, len =>
    if len = 0 then []
    else if g.len ≤ off then State.segPaths s gs (off - g.len) len
    else
      let n := min (g.len - off) len
      ((s.regionOf g.key).map Region.path).toList ++ State.segPaths s gs 0 (len - n)

end Sys2Proof.Machine
end

