-- ==== Sys2Proof/Machine/WorkQueue.lean ====
section
/-! DEFINITION. Rings, doorbells, completion entries and the ERROR state of a QP (chapter 5, R138-R147). -/

namespace Sys2Proof

/-- R119: a write of bytes 0-3 with all enables, or of the whole slot with bytes 4-7 zero. -/
def ApertureWrite.value (w : ApertureWrite) : Option Nat :=
  if !w.enables || w.offset % 8 != 0 then none
  else if w.bytes.length = 4 then some (leNat w.bytes)
  else if w.bytes.length = 8 && leNat (w.bytes.drop 4) = 0 then some (leNat (w.bytes.take 4))
  else none

end Sys2Proof

namespace Sys2Proof.Machine

/-! ## Numbering (R138) -/

/-- Share index of function `f` (R382). -/
def State.shareOf (s : State) (f : Nat) : Nat := f % s.shares

/-- An amount divided among the shares; a share count of zero, which the check refuses, leaves nothing. -/
def State.perShare (s : State) (total : Nat) : Nat := total / s.shares

def totalQps : Nat := 16777216
def totalRegions : Nat := 16777216
def totalPages : Nat := 335544320
def totalCqs : Nat := 1048576
def totalSrqs : Nat := 65536

def State.global (s : State) (total f n : Nat) : Nat := s.shareOf f * s.perShare total + n
def State.local (s : State) (total g : Nat) : Nat := if s.perShare total = 0 then 0 else g % s.perShare total

def State.qp (s : State) (q : Nat) : Option Qp := tget s.wq.qps q
def State.setQp (s : State) (q : Nat) (x : Qp) : State := { s with wq := { s.wq with qps := tput s.wq.qps q x } }
def State.updQp (s : State) (q : Nat) (f : Qp → Qp) : State := { s with wq := { s.wq with qps := tupd s.wq.qps q f } }
def State.updCq (s : State) (c : Nat) (f : Cq → Cq) : State := { s with wq := { s.wq with cqs := tupd s.wq.cqs c f } }
def State.updSrq (s : State) (c : Nat) (f : Srq → Srq) : State := { s with wq := { s.wq with srqs := tupd s.wq.srqs c f } }
def State.updRegion (s : State) (n : Nat) (f : Region → Region) : State :=
  { s with wq := { s.wq with regions := tupd s.wq.regions n f } }

/-! ## Rings -/

def Ring.size (r : Ring) : Nat := 2 ^ r.log2

/-- Bus address of entry `k` (R109). -/
def Ring.addr (r : Ring) (k : RingIndex) : Nat := r.base + k.toNat % r.size * 64

/-- Bus address of completion entry `k`. -/
def Cq.addr (c : Cq) (k : RingIndex) : Nat := c.base + k.toNat % 2 ^ c.log2 * 32

/-- POLL_INTERVAL in ns. -/
def Ring.interval (r : Ring) : Nat := r.poll * 250

def State.ring (s : State) : RingId → Option Ring
  | .send q => (s.qp q).map Qp.sq
  | .recv q => (s.qp q).bind Qp.rq
  | .srq n => (tget s.wq.srqs n).map Srq.ring

def State.updRing (s : State) (id : RingId) (f : Ring → Ring) : State :=
  match id with
  | .send q => s.updQp q fun x => { x with sq := f x.sq }
  | .recv q => s.updQp q fun x => { x with rq := x.rq.map f }
  | .srq n => s.updSrq n fun x => { x with ring := f x.ring }

/-- An access to a hot context: a hit, and its referenced bit is set (R193, R203, notes/assumptions/78). -/
def State.access (s : State) (q : Nat) : State := (s.bump Row.hotHit).updQp q fun x => { x with referenced := true }

/-! ## Home and shadow (R359, R378) -/

def Qp.mirrorable (x : Qp) : Bool := x.type == .rc || x.type == .ud

/-- A global number homed on this module: even numbers on member A, odd ones on member B. -/
def State.homed (s : State) (n : Nat) : Bool := (n % 2 == 0) == (s.twin.position == 1)

/-- QP `q` is mirrored from here: PAIRED and its home, or SYNCING as the source. -/
def State.mirrors (s : State) (q : Nat) (x : Qp) : Bool :=
  x.mirrorable && ((s.obj Row.pairState == 3 && s.homed q) || (s.obj Row.pairState == 2 && s.twin.source))

/-- QP `q` is served by the partner: PAIRED and its shadow, SYNCING and not the source, or YIELDED (R369, R374). -/
def State.shadowed (s : State) (q : Nat) (x : Qp) : Bool :=
  x.mirrorable && ((s.obj Row.pairState == 3 && !s.homed q) || (s.obj Row.pairState == 2 && !s.twin.source) || s.obj Row.pairState == 5)

/-- An SRQ or CQ number served by the partner. -/
def State.shadowedNumber (s : State) (n : Nat) : Bool :=
  (s.obj Row.pairState == 3 && !s.homed n) || (s.obj Row.pairState == 2 && !s.twin.source) || s.obj Row.pairState == 5

/-- The drain of R469 runs for the module, or for the subsystems that serve rings. -/
def State.draining (s : State) : Bool :=
  match s.mgmt.busy with
  | some (.drainOperate, _) => true
  | some (.drainEnable n, _) => n == 2 || n == 3
  | _ => false

/-- COLLECTIVE entries are consumed: subsystem 7 runs, and neither it nor subsystem 8 is draining (R469). -/
def State.collsOn (s : State) : Bool :=
  s.enabled 7 && match s.mgmt.busy with
    | some (.drainEnable n, _) => n != 7 && n != 8
    | _ => true

/-- FUNC_STATE of a function (Table 17-2); the PF is always in service. -/
def State.funcSt (s : State) (f : Nat) : Nat := ((tget s.tenant.funcs f).map FuncSt.st).getD (if f = 0 then 1 else 0)

/-- FREEZING or FROZEN (R390). -/
def State.freezing (s : State) (f : Nat) : Bool := s.funcSt f == 2 || s.funcSt f == 3

/-- Whether Table 06-9 lets the module read the ring; a function that freezes consumes nothing (R390). -/
def State.ringReadable (s : State) (id : RingId) : Bool :=
  s.mode == .operational && !s.holding && s.enabled 2 && s.enabled 3 && !s.draining &&
  match id with
  | .send q => match s.qp q with
    | some x => (x.st == .rts || x.st == .error) && !x.lost && !x.freeing && !s.shadowed q x && !s.freezing x.func &&
        (x.type != .coll || s.collsOn)
    | none => false
  | .recv q => match s.qp q with
    | some x => (x.st == .init || x.st == .rtr || x.st == .rts || x.st == .error) && !x.lost && !x.freeing &&
        !s.shadowed q x && !s.freezing x.func
    | none => false
  | .srq n => match tget s.wq.srqs n with
    | some x => !x.error && !s.shadowedNumber n && !s.freezing x.func
    | none => false

/-- The first ring read waits for the QP's context (R191). -/
def State.ringHot (s : State) : RingId → Bool
  | .send q | .recv q => match s.qp q with
    | some x => x.tier == .hot
    | none => false
  | .srq _ => true

/-- A read of one entry of a ring: submission and shared receive rings go through the device cache (R88). -/
def State.readRing (s : State) (id : RingId) (r : Ring) (k : RingIndex) : State :=
  match id with
  | .recv _ => s.readBus r.path (r.addr k) 64
  | _ => s.readEntry r.path (r.addr k)

/-- Read entry H when one is announced, or when reading on after a poll, and no re-read procedure runs. -/
def State.readHead (s : State) (id : RingId) : State :=
  match s.ring id with
  | none => s
  | some r =>
    if s.ringReadable id && s.ringHot id && (r.h != r.k || r.pollRun) && r.reread.isNone then s.readRing id r r.h else s

/-- The entry at H is taken: H moves on, past K when a poll found it (R122), and the procedure of R123 ends. -/
def Ring.take (r : Ring) : Ring :=
  { r with
    h := r.h + 1, k := if r.h = r.k then r.k + 1 else r.k, reread := none, aheadRaised := false }

/-- R122: reading on stops at ring size - 1 entries beyond H. -/
def State.takeEntry (s : State) (id : RingId) : State := s.updRing id Ring.take

/-- An entry may be consumed: it is announced, or reading on after a poll. -/
def State.mayConsume (s : State) (id : RingId) : Bool :=
  s.ringReadable id && match s.ring id with
    | some r => r.h != r.k || r.pollRun
    | none => false

/-- Byte 0 of entry `k` is written 0x00 on the ring's PATH (R111). -/
def State.clearOwn (s : State) (id : RingId) (k : RingIndex) : State :=
  match s.ring id with
  | none => s
  | some r => s.postWrite r.path (.ownClear r.path (r.addr k))

/-- OWN of every entry consumed, not yet cleared and before index `k` is cleared (R111, R365). -/
def State.clearTo (s : State) (id : RingId) (k : RingIndex) : State :=
  match s.ring id with
  | none => s
  | some r =>
    let n := ahead r.own k
    if n ≤ ahead r.own r.h then
      (eachDo (List.range n) (fun i s => s.clearOwn id (r.own + BitVec.ofNat 16 i)) s).updRing id fun r => { r with own := k }
    else s

/-- OWN of every consumed entry is cleared. -/
def State.clearTaken (s : State) (id : RingId) : State :=
  match s.ring id with
  | none => s
  | some r => s.clearTo id r.h

/-! ## Mirror records (R359, R363-R365) -/

/-- The send-ring retire index: every entry below it has completed, and a CQE covers it (R365). -/
def Qp.sqRetire (x : Qp) : RingIndex :=
  (match x.wqes.find? fun w => !w.internal with
    | some w => w.index
    | none => x.sq.h) - BitVec.ofNat 16 x.uncoveredCount

/-- The earliest of some indexes of a ring, none beyond `h`. -/
def earliest (h : RingIndex) (l : List RingIndex) : RingIndex :=
  l.foldl (fun m k => if ahead m h < ahead k h then k else m) h

/-- Receive entries that a QP holds: those of messages under way, and those posted. -/
def Qp.recvHeld (x : Qp) : List RecvE := x.resp.msgs.filterMap Msg.recv ++ x.resp.recvs

/-- The retire index of the QP's receive ring or SRQ. -/
def State.rqRetire (s : State) (x : Qp) : RingIndex :=
  match x.srqn with
  | some n => match tget s.wq.srqs n with
    | some y => earliest y.ring.h ((y.entries ++ (s.wq.qps.filter fun p => p.2.srqn == some n).flatMap fun p => p.2.recvHeld).map
        RecvE.index)
    | none => 0
  | none => match x.rq with
    | some r => earliest r.h (x.recvHeld.map RecvE.index)
    | none => 0

def State.blankRecord (s : State) (kind : Byte) (q : Nat) (x : Qp) : MirrorRecord where
  kind := kind
  rseq := 0
  qpn := BitVec.ofNat 24 q
  sqRetire := x.sqRetire
  rqRetire := s.rqRetire x
  psnA := 0
  psnB := 0
  index := 0
  status := 0
  token := 0
  data := 0
  cqes := []

/-- Send a mirror record; it is kept until acknowledged (R364). -/
def State.sendRecord (s : State) (r : MirrorRecord) : State :=
  let r := { r with rseq := BitVec.ofNat 32 s.twin.nextRseq }
  let s := s.bump Row.recordsSent
  { s with twin := { s.twin with
      nextRseq := (s.twin.nextRseq + 1) % 2 ^ 32, toSend := s.twin.toSend ++ [r] } }

/-- Hold an action until the record just sent is acknowledged. -/
def State.hold (s : State) (a : HeldAction) : State :=
  { s with twin := { s.twin with held := s.twin.held ++ [((s.twin.nextRseq + 2 ^ 32 - 1) % 2 ^ 32, a)] } }

/-! ## Completion entries -/

/-- The data half-ports of a cover list, each with its highest write number. -/
def coverMax (l : List (Nat × Nat)) : Tab Nat :=
  l.foldl (fun t p => tput t p.1 (max p.2 ((tget t p.1).getD 0))) []

/-- The record that mirrors a CQE: REQ_COMPLETE or RESPONDER by the side it reports, QP_STATE when it is a flush. -/
def State.mirrorCqe (s : State) (q cqn : Nat) (cq : Cq) (c : Cqe) : State :=
  match s.qp q with
  | none => s
  | some x =>
    let queued := (s.wq.cqWait.filter fun w => w.cqn == cqn).length
    let kind : Byte := if c.status = 0x07 then 6 else if c.responder then 2 else 3
    s.sendRecord { s.blankRecord kind q x with
      psnA := if c.responder then x.resp.e else 0
      psnB := if c.responder then x.resp.recvBase else BitVec.ofNat 32 x.req.una.toNat
      status := if kind = 6 then c.status else 0
      cqes := [⟨cqn, cq.w + BitVec.ofNat 16 queued, c⟩] }

/-- R100 and Table 04-5: form a CQE. It waits for the Cmps of covered writes on ACC_CXLMEM half-ports, and for a
flushing read on every other half-port than the CQ's own, unless the CQ's flush is off. A QP that is LOST or being freed
receives none (R141, R201), and one due to a CQ in ERROR is discarded at once (R116). -/
def State.formCqe (s : State) (qpn cqn : Nat) (covered : List (Nat × Nat)) (c : Cqe) : State :=
  let silent := match s.qp qpn with
    | some x => x.lost || x.freeing
    | none => true
  match tget s.wq.cqs cqn with
  | none => s
  | some cq =>
    if silent || cq.error then s else
    let cov := coverMax covered
    let cxl := cov.filter fun p => (s.hp p.1).isCxlMem
    let io := cov.filter fun p => !(s.hp p.1).isCxlMem && p.1 != cq.path
    let unproved := if cq.flush then io.filter fun p => decide ((s.hp p.1).flushed < p.2) else []
    let needs := unproved.map fun p => (p.1, s.flushTicket p.1)
    let c := { c with timestamp := BitVec.ofNat 32 s.timer, flushed := cq.flush || io.isEmpty }
    let mirrored := match s.qp qpn with
      | some x => s.mirrors qpn x
      | none => false
    let s := if mirrored then s.mirrorCqe qpn cqn cq c else s
    let record := if mirrored then some ((s.twin.nextRseq + 2 ^ 32 - 1) % 2 ^ 32) else none
    let s := { s with wq := { s.wq with cqWait := s.wq.cqWait ++
      [⟨qpn, cqn, c, needs, cxl.filter (fun p => decide ((s.hp p.1).cmps < p.2)), record⟩] } }
    eachDo needs (fun p s => s.wantFlush p.1) s

/-- Bytes of a QP's packets: 4,096, or the PMTU of a ROCE_RC QP (Table 06-5). -/
def Qp.mtu (x : Qp) : Nat :=
  match x.type with
  | .roceRc => match x.attr.pmtu with
    | 1 => 1024
    | 2 => 2048
    | _ => 4096
  | _ => 4096

/-- The CQE of a send-ring entry (Table 05-8). -/
def State.sendCqe (s : State) (x : Qp) (qpn : Nat) (w : Wqe) (status : Nat) : Cqe where
  timestamp := 0
  count := BitVec.ofNat 16 (x.uncoveredCount + 1)
  index := w.index
  imm := 0
  byteCount := BitVec.ofNat 32
    (if w.sqe.opcode = 0x05 then min w.length (x.mtu * ((List.range (ceilDiv w.length x.mtu)).filter w.coverage.testBit).length)
     else w.length)
  wrId := w.sqe.wrId
  qpn := BitVec.ofNat 24 (s.local totalQps qpn)
  solicited := false
  responder := false
  immValid := false
  opcode := w.sqe.opcode
  status := BitVec.ofNat 8 status
  flushed := true

/-- R128: report ended entries from the oldest on; an OK entry with C = 0 waits for the next CQE to cover it. -/
def State.reportSends : Nat → State → Nat → State
  | 0, s, _ => s
  | fuel + 1, s, q =>
    match s.qp q with
    | none => s
    | some x =>
      match x.wqes with
      | [] => s
      | w :: rest =>
        match w.st with
        | .ended st =>
          let cover := x.uncovered ++ w.placed
          if w.internal then State.reportSends fuel (s.setQp q { x with wqes := rest }) q
          else if st = 0 && !w.sqe.c then
            State.reportSends fuel
              (s.setQp q { x with wqes := rest, uncovered := cover, uncoveredCount := x.uncoveredCount + 1 }) q
          else
            let s := s.setQp q { x with wqes := rest, uncovered := [], uncoveredCount := 0 }
            State.reportSends fuel (s.formCqe q (s.global totalCqs x.func x.sq.cqn) cover (s.sendCqe x q w st)) q
        | _ => s

/-- Report what can be reported of QP `q`'s send ring. -/
def State.report (s : State) (q : Nat) : State :=
  match s.qp q with
  | none => s
  | some x => s.reportSends (x.wqes.length + 1) q

/-- The CQE of a receive entry (R129). -/
def State.recvCqe (s : State) (qpn : Nat) (r : RecvE) (status bytes : Nat) (solicited : Bool) : Cqe where
  timestamp := 0
  count := 1
  index := r.index
  imm := 0
  byteCount := BitVec.ofNat 32 bytes
  wrId := r.sqe.wrId
  qpn := BitVec.ofNat 24 (s.local totalQps qpn)
  solicited := solicited
  responder := true
  immValid := false
  opcode := 0x02
  status := BitVec.ofNat 8 status
  flushed := true

def State.formRecvCqe (s : State) (q : Nat) (r : RecvE) (status bytes : Nat) (solicited : Bool)
    (placed : List (Nat × Nat)) : State :=
  match s.qp q with
  | none => s
  | some x => s.formCqe q (s.global totalCqs x.func x.rcqn) placed (s.recvCqe q r status bytes solicited)

/-! ## ABORT results (R133-R136) -/

/-- Table 05-11 as counted in ABORT_COUNT, and the ABORT's own CQE. -/
def State.abortCqe (s : State) (q : Nat) (own : RingIndex) (wrId : BitVec 64) (result : Nat) : State :=
  match s.qp q with
  | none => s
  | some x =>
    let s := s.bumpField Row.abortCount (4 * result) 4
    let s := if x.func = 0 then s else s.bumpField Row.vfAbortCount (4 * result) 4 1 (x.func * 65536)
    s.formCqe q (s.global totalCqs x.func x.sq.cqn) []
      { timestamp := 0, count := 1, index := own, imm := 0, byteCount := BitVec.ofNat 32 result, wrId := wrId
        qpn := BitVec.ofNat 24 (s.local totalQps q), solicited := false, responder := false, immValid := false
        opcode := 0x1F, status := 0, flushed := true }

/-- The target entry `k` of a waiting ABORT is consumed: each ABORT that waits for it is decided. The answer says
whether the entry is aborted. -/
def State.settleAborts (s : State) (id : RingId) (k : RingIndex) (wrId : BitVec 64) (committed : Bool) : State × Bool :=
  let mine := s.wq.aborts.filter fun a => a.ring == id && a.index == k
  let s := { s with wq := { s.wq with aborts := s.wq.aborts.filter fun a => !(a.ring == id && a.index == k) } }
  let result (a : AbortWait) : Nat := if a.wrId != wrId then 2 else if committed then 1 else 0
  (eachDo mine (fun a s => s.abortCqe a.qpn a.own a.ownWrId (result a)) s, mine.any fun a => result a == 0)

/-- The ring goes: an ABORT that waits for one of its entries finds it outside the range of Table 05-11. -/
def State.endAborts (s : State) (id : RingId) : State :=
  let mine := s.wq.aborts.filter fun a => a.ring == id
  let s := { s with wq := { s.wq with aborts := s.wq.aborts.filter fun a => a.ring != id } }
  eachDo mine (fun a s => s.abortCqe a.qpn a.own a.ownWrId 1) s

/-! ## QPs entering ERROR -/

/-- End a send-ring entry with a status, unless it has ended. -/
def Wqe.end (w : Wqe) (status : Nat) : Wqe :=
  match w.st with
  | .ended _ => w
  | _ => { w with st := .ended status }

/-- R130, R134: the ERROR flush. Entries not yet ended complete FLUSH_ERR, in ring order, and so do posted receives, of which an
aborted one completes ABORTED; a collective's own entry ends with its collective. -/
def State.flushQp (s : State) (q : Nat) (x : Qp) (cause : Nat) : State :=
  let recvs := x.resp.recvs
  let status (r : RecvE) : Nat := if r.aborted then 0x08 else r.fault.getD 0x07
  let live := x.resp.msgs.filterMap Msg.recv
  let s := s.setQp q { x with
    st := .error,
    wqes := x.wqes.map fun w => if w.coll.isSome then w else w.end 0x07,
    req := { x.req with resend := [], rnrFrom := none, parkFrom := none },
    resp := { x.resp with recvs := [], msgs := [], heldReqs := [] } }
  let s := s.report q
  let s := eachDo (live ++ recvs.filter fun r => !r.matched) (fun r s => s.formRecvCqe q r (status r) 0 false []) s
  { s with wq := { s.wq with erring := s.wq.erring ++ [(q, cause)] } }

/-- R147: the QP enters ERROR, and QP_ERROR is raised with the cause. -/
def State.qpError (s : State) (q cause : Nat) : State :=
  match s.qp q with
  | none => s
  | some x =>
    if x.st == .error || x.st == .reset || x.lost then s
    else (s.flushQp q x cause).raiseTo x.func 0x0301 (s.local totalQps q) cause

/-- End entry `k` of QP `q` with an error status; the QP enters ERROR (R130). -/
def State.failWqe (s : State) (q : Nat) (k : RingIndex) (status : Nat) : State :=
  let s := s.updQp q fun x => { x with wqes := x.wqes.map fun w => if w.index = k then w.end status else w }
  s.qpError q status

/-- QPs whose rings name CQ `c`. -/
def State.qpsOfCq (s : State) (c : Nat) : List Nat :=
  (s.wq.qps.filter fun p => s.global totalCqs p.2.func p.2.sq.cqn == c || s.global totalCqs p.2.func p.2.rcqn == c).map Prod.fst

/-- R114, R116: a CQE due to a full ring puts the CQ in ERROR, and every QP that names it; the CQEs that wait for it are
discarded. -/
def State.cqOverflow (s : State) (c : Nat) (cq : Cq) : State :=
  let s := s.updCq c fun x => { x with error := true }
  let s := { s with wq := { s.wq with cqWait := s.wq.cqWait.filter fun w => w.cqn != c } }
  let s := s.bumpBoth Row.cqOverflowCount Row.vfCqOverflowCount cq.func
  let s := s.raiseTo cq.func 0x0203 (s.local totalCqs c)
  eachDo (s.qpsOfCq c) (fun q s => s.qpError q 0x80) s

/-- Write a CQE into the ring of CQ `c`, discard it when the CQ is in ERROR, or overflow the CQ (R113, R114, R116). -/
def State.putCqe (s : State) (c : Nat) (e : Cqe) : State :=
  match tget s.wq.cqs c with
  | none => s
  | some cq =>
    if cq.error then s
    else if 2 ^ cq.log2 ≤ cq.used then s.cqOverflow c cq
    else
      let s := s.writeEntry cq.path (cq.addr cq.w) (cqeNat e)
      let s := if cq.armEvent then s.msix cq.func cq.vector else s
      s.updCq c fun x => { x with w := x.w + 1, used := x.used + 1, armEvent := false }

/-- The first waiting CQE that may be written: its data are visible, its CQ is not awaiting a takeover's first
doorbell, and no earlier CQE of the same ring waits; an ABORT's own CQE stands outside that order (R128, R129, R136). -/
def nextCqe (s : State) : List CqeWait → List (Nat × Bool) → Option CqeWait
  | [], _ => none
  | w :: ws, blocked =>
    let key := (w.qpn, w.cqe.responder)
    let own := w.cqe.opcode == 0x1F && w.cqe.status == 0
    let ready := w.needs.isEmpty && w.cmpNeeds.isEmpty && w.record.isNone && (own || !blocked.contains key) &&
      match tget s.wq.cqs w.cqn with
      | some cq => !cq.resync
      | none => true
    if ready then some w else nextCqe s ws (if own then blocked else key :: blocked)

/-- Write every CQE that may be written, oldest first. -/
def State.drainCqes : Nat → State → State
  | 0, s => s
  | fuel + 1, s =>
    match nextCqe s s.wq.cqWait [] with
    | none => s
    | some w => State.drainCqes fuel
        (State.putCqe { s with wq := { s.wq with cqWait := s.wq.cqWait.erase w } } w.cqn w.cqe)

/-- Enough rounds for the CQEs that wait and for those that overflows can add. -/
def State.cqeFuel (s : State) : Nat :=
  s.wq.cqWait.length + (s.wq.qps.map fun p => p.2.wqes.length + p.2.resp.recvs.length + p.2.resp.msgs.length).sum + 1

def State.settleCqes (s : State) : State := s.drainCqes s.cqeFuel

/-! ## Doorbells -/

/-- Per-share counts Q, C and S of R117. -/
def State.qCount (s : State) : Nat := s.perShare totalQps
def State.cCount (s : State) : Nat := s.perShare totalCqs
def State.sCount (s : State) : Nat := s.perShare totalSrqs

/-- What slot of function `f`'s aperture an offset names (R117). -/
inductive Slot where
  | ring (id : RingId)
  | cq (n : Nat)
  | none
  deriving DecidableEq, Repr

def State.slotOf (s : State) (f off : Nat) : Slot :=
  let i := off / 8
  let q := s.qCount
  let c := s.cCount
  if i < q then .ring (.send (s.global totalQps f i))
  else if i < 2 * q then .ring (.recv (s.global totalQps f (i - q)))
  else if i < 2 * q + c then .cq (s.global totalCqs f (i - 2 * q))
  else if i < 2 * q + c + s.sCount then .ring (.srq (s.global totalSrqs f (i - 2 * q - c)))
  else .none

/-- The least n with x ≤ 2 ^ n. -/
def ceilLog2 (x : Nat) : Nat := if x ≤ 1 then 0 else Nat.log2 (x - 1) + 1

/-- Size of BAR0/1: the smallest power of two that holds the slots, and at least 64 KiB (R117). -/
def State.apertureSize (s : State) : Nat :=
  let need := 16 * s.qCount + 8 * s.cCount + 8 * s.sCount
  max 65536 (2 ^ ceilLog2 need)

def State.doorbellDropped (s : State) (f : Nat) : State :=
  s.bumpBoth Row.doorbellInvalidCount Row.vfDoorbellInvalidCount f

/-- The number DOORBELL_INVALID and DOORBELL_AHEAD name: the local number of the ring's object. -/
def State.ringNumber (s : State) : RingId → Nat
  | .send q | .recv q => s.local totalQps q
  | .srq n => s.local totalSrqs n

/-- Arming starts the polling interval (notes/assumptions/69). -/
def State.armRing (s : State) (id : RingId) (on : Bool) : State :=
  s.updRing id fun r => { r with armed := on, due := if on && !r.armed then s.timer + r.interval else r.due }

/-- R120, R121, R124: a doorbell to a send, receive or SRQ ring. -/
def State.ringDoorbell (s : State) (f : Nat) (id : RingId) (v : Nat) : State :=
  match s.ring id with
  | none => s.doorbellDropped f
  | some r =>
    let t := BitVec.ofNat 16 v
    let s := s.bumpBoth Row.doorbellCount Row.vfDoorbellCount f
    let s := s.armRing id (v.testBit 31)
    let s :=
      if r.size - 1 < ahead r.h t then (s.doorbellDropped f).raiseTo f 0x0202 (s.ringNumber id)
      else if ahead r.h t < ahead r.h r.k then s
      else s.updRing id fun r => { r with k := t }
    match r.reread with
    | some rr => if rr.fallback && s.ringReadable id && s.ringHot id then s.readRing id r r.h else s
    | none => s.readHead id

/-- Table 06-9, R201: a QP in RESET or LOST ignores doorbells. -/
def State.ignoresDoorbells (s : State) : RingId → Bool
  | .send q | .recv q => match s.qp q with
    | some x => x.st == .reset || x.lost
    | none => false
  | .srq _ => false

/-- R120: a CQ doorbell. HEAD moves over CQEs written and not yet passed; the distance to the next write position is their
number, which on a ring of 65,536 can be 65,536 (notes/assumptions/70). -/
def State.cqDoorbell (s : State) (f c v : Nat) : State :=
  match tget s.wq.cqs c with
  | none => s.doorbellDropped f
  | some cq =>
    let h := BitVec.ofNat 16 v
    let s := s.bumpBoth Row.doorbellCount Row.vfDoorbellCount f
    let n := ahead cq.head h
    let ok := decide (n ≤ cq.used)
    let left := if ok then cq.used - n else cq.used
    let s := if ok then s.updCq c fun x => { x with head := h, used := left }
      else (s.doorbellDropped f).raiseTo f 0x0202 (s.local totalCqs c)
    if v.testBit 31 then
      if left != 0 then s.msix cq.func cq.vector
      else s.updCq c fun x => { x with armEvent := true }
    else s

end Sys2Proof.Machine
end

