-- ==== Sys2Proof/Machine/Protect.lean ====
section
/-! DEFINITION. The key store as the packet cipher uses it, and a protected packet enciphered on its way out and deciphered on its way
in (R406, R409-R413, R418). -/

namespace Sys2Proof.Machine

def totalSlots : Nat := 4096

def KeySlot.empty : KeySlot := ⟨0, 0, 0, 0⟩

def State.keySlot (s : State) (g : Nat) : KeySlot := (tget s.security.slots g).getD KeySlot.empty

/-- Global tenant slot of a QP's local KEY_SLOT. -/
def State.globalSlot (s : State) (f n : Nat) : Nat := s.shareOf f * s.perShare totalSlots + n

/-- The 40-bit value nearest `ref` with the low 24 bits `p` (R410). -/
def extendPsn (ref : Nat) (p : Psn) : Nat :=
  let d := ahead (BitVec.ofNat 24 ref) p
  if d < 2 ^ 23 then (ref + d) % 2 ^ 40 else (ref + d + 2 ^ 40 - 2 ^ 24) % 2 ^ 40

/-- The slot a QP sends under: the previous one until it switches (R418). -/
def Qp.sendSlot (x : Qp) : Nat := if x.cipher.useNew then x.attr.keySlot else x.cipher.prev.getD x.attr.keySlot

/-- EXT_PSN of a packet that the QP sends: requests by its own sequence, all else by what it has received (Table 18-4). -/
def Qp.sendExt (x : Qp) (p : Packet) : Nat :=
  extendPsn (if ivClass p.opcode = 0 then x.cipher.extNxt else x.cipher.extE) p.psn

/-- EXT_PSN of a packet that arrives: E is the reference for requests and NAKs, UNA for ACKs and responses (R410). -/
def Qp.arriveExt (x : Qp) (p : Packet) : Nat :=
  extendPsn (if ivClass p.opcode = 0 || ivClass p.opcode = 4 then x.cipher.extE else x.cipher.extUna) p.psn

/-- The payload in clear or in cipher, without bytes beyond PAYLOAD_LEN. -/
def payloadText (p : Packet) : List Byte := slice p.payload 0 p.payloadLen.toNat

/-- A packet enciphered under key `k`. -/
def sealUnder (k : KeySlot) (ext : Nat) (p : Packet) : Packet :=
  let ks := keySchedule k.key
  let h := gcmH ks
  let j := gcmJ0 h (packetIv p k.gen ext (if p.opcode = 0x30 then bitsSet (beNat (payloadText p)) else 0))
  let c := gcmText ks j (payloadText p)
  { p with payload := c, tag := gcmTag ks h j (packetAad p) c }

/-- A packet of QP `q` as it goes on the wire: one with ENC = 1 is enciphered under the slot the QP now sends under (R409-R411). -/
def State.sealed (s : State) (q : Nat) (p : Packet) : Packet :=
  match s.qp q with
  | some x => if p.flags.getLsbD 3 then sealUnder (s.keySlot (s.globalSlot x.func x.sendSlot)) (x.sendExt p) p else p
  | none => p

/-- Counts of HELD_MAP bits that an arriving packet may have: its vector names the count, which an ACK's header does not tell
(notes/assumptions/82). -/
def heldCounts (p : Packet) : List Nat := if p.opcode = 0x30 && p.aux.getLsbD 0 then List.range 256 else [0]

/-- A packet deciphered under key `k`, when its tag passes. -/
def openUnder (k : KeySlot) (ext : Nat) (p : Packet) : Option Packet :=
  let ks := keySchedule k.key
  let h := gcmH ks
  let c := payloadText p
  (heldCounts p).findSome? fun n =>
    let j := gcmJ0 h (packetIv p k.gen ext n)
    if gcmTag ks h j (packetAad p) c == p.tag then some { p with payload := gcmText ks j c } else none

/-- A packet deciphered under a local slot of its QP; an empty slot passes none. The DST_MODULE of one that was forwarded to a restored
share is its ALIAS again (R395). -/
def State.openSlot (s : State) (x : Qp) (slot : Nat) (p : Packet) : Option Packet :=
  let k := s.keySlot (s.globalSlot x.func slot)
  let al := ((tget s.tenant.funcs x.func).map FuncSt.alias_).getD 0
  let p := if al = 0 then p else { p with dstModule := BitVec.ofNat 20 al }
  if k.usage = 1 then openUnder k (x.arriveExt p) p else none

end Sys2Proof.Machine
end

