-- ==== Sys2Proof/Machine/Transport.lean ====
section
/-! DEFINITION. The requester side of reliable delivery: consumption of send-ring entries, packets with new PSNs,
acknowledgments, retransmission and receiver credit (R125, R131, R152-R155, R161-R173, R178, R212-R215). -/

namespace Sys2Proof

def Packet.first (p : Packet) : Bool := p.flags.getLsbD 7
def Packet.last (p : Packet) : Bool := p.flags.getLsbD 6
def Packet.solicited (p : Packet) : Bool := p.flags.getLsbD 5
def Packet.ackReq (p : Packet) : Bool := p.flags.getLsbD 4
def Packet.enc (p : Packet) : Bool := p.flags.getLsbD 3
def Packet.retx (p : Packet) : Bool := p.flags.getLsbD 2

end Sys2Proof

namespace Sys2Proof.Machine

/-! ## Packets -/

/-- SRC_MODULE of a QP's packets: the alias of a restored share (R395), the pair address of a mirrored QP (R361), else
the module's own address. -/
def State.sourceOf (s : State) (x : Qp) : ModAddr :=
  let al := match tget s.tenant.funcs x.func with
    | some f => f.alias_
    | none => 0
  if al ≠ 0 then BitVec.ofNat 20 al
  else if x.mirrorable && s.obj Row.pairAddress != 0 then BitVec.ofNat 20 (s.obj Row.pairAddress)
  else s.ownAddress

/-- A packet of QP `q` to its remote, with the fields Table 06-15 marks zero left zero (R155). -/
def State.basePacket (s : State) (q : Nat) (x : Qp) (opcode : Byte) : Packet where
  version := 1
  dstModule := x.attr.remoteModule
  srcModule := s.sourceOf x
  dstQpn := x.attr.remoteQpn
  srcQpn := BitVec.ofNat 24 q
  opcode := opcode
  flags := flagBits false false false false x.attr.cipherOn false
  psn := 0
  msgId := 0
  remoteAddr := 0
  key := 0
  payloadLen := 0
  pktOffset := 0
  aux := 0
  payload := []

/-- Hand a formed packet to the traffic manager. -/
def State.post (s : State) (q : Nat) (p : Packet) : State :=
  let f := match s.qp q with
    | some x => x.func
    | none => 0
  { s with wq := { s.wq with outbox := s.wq.outbox ++ [QPkt.made p f q s.timer] } }

/-! ## Consumption of send-ring entries -/

def isAtomicOp (o : Byte) : Bool := o == 0x06 || o == 0x07
def isReadOrAtomic (o : Byte) : Bool := o == 0x05 || isAtomicOp o

/-- Opcodes a QP type's send ring accepts (R144). -/
def QpType.accepts (t : QpType) (o : Byte) : Bool :=
  let data := o == 0x01 || o == 0x03 || o == 0x04 || isReadOrAtomic o
  match t with
  | .rc | .roceRc => o == 0x00 || o == 0x1F || data
  | .ud => o == 0x00 || o == 0x1F || o == 0x01
  | .coll => o == 0x00 || o == 0x1F || o == 0x10

/-- R125: whether an entry read from a send ring is malformed. -/
def badSqe (t : QpType) (e : Sqe) : Bool :=
  !t.accepts e.opcode || !e.reservedZero || decide (2 ^ 31 < e.length.toNat) ||
  (e.x && (decide (e.length.toNat < 1) || decide (4096 < e.length.toNat))) ||
  (e.x && (e.opcode == 0x00 || e.opcode == 0x1F || isAtomicOp e.opcode)) ||
  (isAtomicOp e.opcode && (e.length != 8 || e.localAddr.toNat % 8 != 0 || e.remoteAddr.toNat % 8 != 0)) ||
  (e.opcode == 0x1F && (e.remoteAddr.toNat / 2 ^ 24 % 4 == 3 ||
    e.remoteAddr.toNat / 2 ^ 26 % 64 != 0 || e.remoteAddr.toNat / 2 ^ 48 != 0))

/-- Whether an entry's local side is written. -/
def writesLocal (o : Byte) : Bool := o == 0x02 || isReadOrAtomic o

/-- Whether an entry uses a local side at all. -/
def usesLocal (o : Byte) : Bool := o == 0x01 || o == 0x02 || o == 0x03 || o == 0x04 || isReadOrAtomic o

def Wqe.new (e : Sqe) (k : RingIndex) : Wqe where
  index := k
  sqe := e
  st := .queued
  segs := if usesLocal e.opcode && !e.x then [⟨e.localKey, e.localAddr.toNat, e.length.toNat⟩] else []
  length := if usesLocal e.opcode && !e.x then e.length.toNat else 0
  sent := 0
  msgId := 0
  sendCount := 0
  firstPsn := 0
  lastPsn := 0
  allSent := false
  coverage := 0
  placed := []
  credited := false
  coll := none
  mirrored := true
  mirrorSent := false
  counted := false
  internal := false
  body := []
  mtu := 4096

/-- Append a consumed entry to its QP's list. -/
def State.pushWqe (s : State) (q : Nat) (w : Wqe) : State :=
  s.updQp q fun x => { x with wqes := x.wqes ++ [{ w with mirrored := !s.mirrors q x }] }

def State.setWqe (s : State) (q : Nat) (w : Wqe) : State :=
  s.updQp q fun x => { x with wqes := x.wqes.map fun v => if v.index = w.index then w else v }

/-- R131: the token history after an entry is consumed. -/
def pushToken (h : List (Option (BitVec 32))) (t : Option (BitVec 32)) : List (Option (BitVec 32)) := (t :: h).take 4096

/-- What consumption finds about an entry, in the order of R125, R131 and R152. -/
inductive Consumed where
  | flushed | bad | duplicate | protection | fragments | good
  deriving DecidableEq, Repr

def State.judge (s : State) (x : Qp) (e : Sqe) : Consumed :=
  let w := Wqe.new e 0
  if x.st == .error then .flushed
  else if badSqe x.type e then .bad
  else if x.tokens && e.t && x.history.contains (some e.token) then .duplicate
  else if e.x && usesLocal e.opcode then
    if s.segOk x.func false ⟨e.localKey, e.localAddr.toNat, 16 * e.length.toNat⟩ then .fragments else .protection
  else if w.segs.all (s.segOk x.func (writesLocal e.opcode)) then .good
  else .protection

/-- Take an entry from QP `q`'s send ring: H moves on, OWN is cleared, the token history grows, and the next entry
is read (R111, R120, R131). -/
def State.takeSqe (s : State) (q : Nat) (x : Qp) (e : Sqe) (fresh : Bool) : State :=
  let s := s.takeEntry (.send q)
  let s := s.updQp q fun y =>
    if x.tokens then { y with history := pushToken y.history (if fresh && e.t then some e.token else none) } else y
  let s := if s.mirrors q x then s else s.clearTaken (.send q)
  s.readHead (.send q)

/-- An entry whose token the history holds completes DUPLICATE_TOKEN (R131). -/
def State.refuseToken (s : State) (q : Nat) (x : Qp) (w : Wqe) : State :=
  ((s.bumpBoth Row.tokenRefusedCount Row.vfTokenRefusedCount x.func).pushWqe q (w.end 0x09)).report q

/-- Consume a send-ring entry. `ok` says what a good entry becomes. -/
def State.consume (s : State) (q : Nat) (e : Sqe) (ok : Nat → Qp → Wqe → State → State) : State :=
  if !s.mayConsume (.send q) then s
  else match s.qp q with
    | none => s
    | some x =>
      let k := x.sq.h
      let w := Wqe.new e k
      let j := s.judge x e
      let s := s.useKeys (if j == .flushed || j == .bad || j == .duplicate then []
        else if e.x && usesLocal e.opcode then [fragSeg e 0] else w.segs)
      let s := s.takeSqe q x e (j != .duplicate)
      let plain := e.opcode != 0x00 && e.opcode != 0x1F && (j == .good || j == .fragments)
      let r := s.settleAborts (.send q) k e.wrId (!plain)
      let s := r.1
      if r.2 then (s.pushWqe q (w.end 0x08)).report q
      else match j with
      | .flushed => (s.pushWqe q (w.end 0x07)).report q
      | .bad => (s.pushWqe q w).failWqe q k 0x0A
      | .duplicate => s.refuseToken q x w
      | .protection => (s.pushWqe q w).failWqe q k 0x02
      | .fragments =>
        let s := match s.regionOf e.localKey with
          | none => s
          | some r => eachDo (r.bus e.localAddr.toNat (16 * e.length.toNat)) (fun p s => s.readBus r.path p.1 p.2) s
        s.pushWqe q { w with st := .frags }
      | .good => ok q x w s

/-- Packets of an entry that a survivor finds again below its NXT, from its first PSN on, without payload (R370). -/
def regainPackets (base : Packet) (w : Wqe) (mtu : Nat) (firstPsn : Psn) : List Packet :=
  let o := w.sqe.opcode
  let n := if isReadOrAtomic o then 1 else max 1 (ceilDiv w.length mtu)
  let target := o != 0x01
  (List.range n).map fun i =>
    let off := i * mtu
    { base with
      flags := flagBits (i == 0) (i + 1 == n) w.sqe.s (i + 1 == n) base.enc false
      psn := firstPsn + BitVec.ofNat 24 i
      msgId := w.msgId
      remoteAddr := if target then w.sqe.remoteAddr + BitVec.ofNat 64 off else 0
      key := if target then w.sqe.remoteKey else 0
      payloadLen := BitVec.ofNat 13 (if isAtomicOp o then 16 else if o = 0x05 then 0 else min mtu (w.length - off))
      pktOffset := BitVec.ofNat 31 off
      aux := if o = 0x01 then w.sendCount else if o = 0x04 then w.sqe.imm
        else if o = 0x05 then BitVec.ofNat 32 w.length else 0
      payload := if isAtomicOp o then beBytes 8 w.sqe.operandA.toNat ++
        beBytes 8 (if o = 0x07 then w.sqe.operandB.toNat else 0) else [] }

/-- R182, R370: an entry below the WQE mirrored last has its packets from the mirrored first PSN; those from UNA on are
resent. -/
def State.regainWqe (s : State) (q : Nat) (x : Qp) (w : Wqe) (psn : Psn) : State :=
  let w := { w with msgId := x.req.msgId, sendCount := x.req.sendCount }
  let ps := regainPackets (s.basePacket q x w.sqe.opcode) w x.mtu psn
  let last := psn + BitVec.ofNat 24 (ps.length - 1)
  let acked (p : Psn) : Bool := psnPrecedes p x.req.una
  let done := acked last && !isReadOrAtomic w.sqe.opcode
  let w := { w with
    st := if done then .ended 0 else .started, sent := w.length, firstPsn := psn, lastPsn := last, allSent := true
    credited := true, counted := true, mirrored := true }
  let live := ps.filter fun p => !acked p.psn || isReadOrAtomic w.sqe.opcode
  s.updQp q fun x => { x with
    wqes := x.wqes ++ [w]
    req := { x.req with
      flight := x.req.flight ++ live.map fun p => ⟨p.psn, p, w.index, s.timer, p.ackReq, true, false, 0, 0⟩
      resend := x.req.resend ++ live.map Packet.psn
      msgId := x.req.msgId + 1
      sendCount := if w.sqe.opcode = (0x01 : Byte) then x.req.sendCount + 1 else x.req.sendCount } }

/-- A data operation: it is queued, and starts in ring order. One that a survivor finds again may already have its
packets; the WQE mirrored last starts at NXT. -/
def queueWqe (q : Nat) (x : Qp) (w : Wqe) (s : State) : State :=
  match x.regain.find? fun r => r.1 == w.index with
  | some (_, psn) => if psnPrecedes psn x.req.nxt then (s.regainWqe q x w psn).report q else s.pushWqe q w
  | none => s.pushWqe q w

/-- A NOP completes in ring order without sending anything. -/
def endNop (q : Nat) (_x : Qp) (w : Wqe) (s : State) : State := (s.pushWqe q (w.end 0)).report q

/-- R126, R127: the fragments of a WQE in order; one of length 0 holds no byte and checks no key. -/
def fragSegs (fs : List Frag) : List Seg := fs.map fun f => ⟨f.key, f.addr.toNat, f.len.toNat⟩

def State.fragsDone (s : State) (q : Nat) (k : RingIndex) (fs : List Frag) : State :=
  match s.qp q with
  | none => s
  | some x =>
    match x.wqes.find? fun w => w.index == k && w.st == .frags with
    | none => s
    | some w =>
      let segs := fragSegs fs
      let len := (segs.map Seg.len).sum
      if 2 ^ 31 < len || fs.any (fun f => decide (2 ^ 31 < f.len.toNat)) then s.failWqe q k 0x01
      else if !(segs.all (s.segOk x.func (writesLocal w.sqe.opcode))) then (s.useKeys segs).failWqe q k 0x02
      else (s.useKeys segs).setWqe q { w with st := .queued, segs := segs, length := len }

/-! ## Credit (R213-R215) -/

/-- Drop expired credit entries, counting what lapses (R214). -/
def State.lapse (s : State) (q : Nat) : State :=
  match s.qp q with
  | none => s
  | some x =>
    let dead := (x.req.credits.filter fun c => decide (c.2 ≤ s.timer)).map Prod.fst
    let s := s.bump Row.grantLapsed dead.sum
    s.updQp q fun x => { x with req := { x.req with
      credits := x.req.credits.filter fun c => !decide (c.2 ≤ s.timer), balance := x.req.balance - dead.sum } }

/-- Draw `n` bytes, oldest entry first; the balance falls by `n` whatever the entries hold. -/
def drawCredits : List (Nat × Nat) → Nat → List (Nat × Nat)
  | [], _ => []
  | (b, t) :: cs, n => if n < b then (b - n, t) :: cs else drawCredits cs (n - b)

/-- A grant of `bytes`: a negative balance is repaid first, and the rest becomes an entry that lives 100 µs; with
eight entries held it joins the newest. -/
def Requester.grant (r : Requester) (bytes now : Nat) : Requester :=
  let debt := if r.balance < 0 then (-r.balance).toNat else 0
  let rest := bytes - debt
  let credits :=
    if rest = 0 then r.credits
    else if 8 ≤ r.credits.length then
      match r.credits.reverse with
      | (b, t) :: cs => (((b + rest, t)) :: cs).reverse
      | [] => []
    else r.credits ++ [(rest, now + 100000)]
  { r with balance := r.balance + bytes, credits := credits }

/-- A grant that arrived at its ingress bridge at instant `at0` (R214); what is left of its 100 µs has begun there. -/
def State.applyGrant (s : State) (q units at0 : Nat) : State :=
  if units = 0 then s else (s.updQp q fun x => { x with req := x.req.grant (units * 4096) at0 }).lapse q

/-- A message whose packets need credit (R212). -/
def needsCredit (t : QpType) (o : Byte) : Bool :=
  t != .ud && t != .roceRc && (o == 0x01 || o == 0x03 || o == 0x04 || o == 0x10)

/-- A GRANT packet of kind 1, with NEED (Table 09-3). -/
def State.demandPacket (s : State) (q : Nat) (x : Qp) : Packet :=
  { s.basePacket q x 0x32 with
    flags := 0, payloadLen := 8, aux := 1, payload := beBytes 8 x.req.need }

/-- When the next demand report may leave: at most one per QP per µs (R215). -/
def Requester.reportFrom (r : Requester) : Nat :=
  match r.lastReport with
  | some t => t + 1000
  | none => 0

/-- R215: a demand report is due; it leaves now, or as soon as a µs has passed since the last (notes/assumptions/81). -/
def State.demandReport (s : State) (q : Nat) : State :=
  match s.qp q with
  | none => s
  | some x =>
    if s.timer < x.req.reportFrom then s.updQp q fun x => { x with req := { x.req with reportDue := true } }
    else
      let s := s.bump Row.demandSent
      let s := s.post q (s.demandPacket q x)
      s.updQp q fun x => { x with req := { x.req with reported := x.req.need, lastReport := some s.timer, reportDue := false } }

/-- A demand report that waited for its µs. -/
def State.lateReport (s : State) (q : Nat) : State :=
  match s.qp q with
  | some x => if x.req.reportDue && x.st == .rts then s.demandReport q else s
  | none => s

/-! ## The next packet of a QP -/

def Wqe.ended (w : Wqe) : Bool :=
  match w.st with
  | .ended _ => true
  | _ => false

/-- READs and atomics of the list that are started and not ended. -/
def outstandingReads (ws : List Wqe) : Nat :=
  (ws.filter fun w => isReadOrAtomic w.sqe.opcode && w.st == .started).length

/-- The first entry that has packets left to send, with the entries before it. -/
def firstUnsent : List Wqe → List Wqe → Option (Wqe × List Wqe)
  | _, [] => none
  | before, w :: ws =>
    if w.ended || w.allSent || w.coll.isSome then firstUnsent (before ++ [w]) ws else some (w, before)

/-- R154: an entry may start: its fragments are checked, it is mirrored, a fence is satisfied, and at most 16 READs
and atomics are outstanding. -/
def Wqe.mayStart (w : Wqe) (before : List Wqe) : Bool :=
  w.st != .frags && w.mirrored &&
  (!w.sqe.f || !(before.any fun v => isReadOrAtomic v.sqe.opcode && !v.ended)) &&
  (!isReadOrAtomic w.sqe.opcode || decide (outstandingReads before < 16))

/-- R213: the credit rule for the next `b` bytes of an entry. -/
def State.creditOk (s : State) (x : Qp) (w : Wqe) (b : Nat) : Bool :=
  let u := s.obj Row.unschedBytes
  if !needsCredit x.type w.sqe.opcode || w.credited then true
  else if w.length ≤ u then decide (-(u : Int) ≤ x.req.balance - w.length)
  else decide ((b : Int) ≤ x.req.balance)

/-- The transport engine may send on the QP: RTS, and no RNR or PARK_FULL wait runs. -/
def Qp.maySend (x : Qp) : Bool := x.st == .rts && !x.lost && x.req.rnrFrom.isNone && x.req.parkFrom.isNone

/-- Payload bytes of the next packet of an entry. -/
def Wqe.nextLen (w : Wqe) (mtu : Nat) : Nat :=
  if isAtomicOp w.sqe.opcode then 16 else if w.sqe.opcode = 0x05 then 0 else min mtu (w.length - w.sent)

/-- The next packet with a new PSN that QP `q` may send, without its payload bytes, and its entry. -/
def State.newPacket (s : State) (q : Nat) (x : Qp) : Option (Packet × Wqe) :=
  if !x.maySend || 256 ≤ ahead x.req.una x.req.nxt then none
  else match firstUnsent [] x.wqes with
    | none => none
    | some (w, before) =>
      let o := w.sqe.opcode
      let b := w.nextLen (min x.mtu w.mtu)
      if !w.mayStart before || !s.creditOk x w b then none
      else
        let isRead := o == 0x05
        let atomic := isAtomicOp o
        let last := isRead || atomic || decide (w.length ≤ w.sent + b)
        let msgId := if w.sent = 0 then x.req.msgId else w.msgId
        let count := if w.sent = 0 then x.req.sendCount else w.sendCount
        let ackReq := last || isReadOrAtomic o ||
          (x.req.newPackets + 1) % max 1 (s.obj Row.ackReqInterval) == 0
        let p := s.basePacket q x o
        let target := o != 0x01 && o != 0x11
        some ({ p with
          flags := flagBits (w.sent == 0) last w.sqe.s ackReq x.attr.cipherOn false
          psn := x.req.nxt
          msgId := msgId
          remoteAddr := if target then w.sqe.remoteAddr + BitVec.ofNat 64 w.sent else 0
          key := if target then w.sqe.remoteKey else 0
          payloadLen := BitVec.ofNat 13 b
          pktOffset := BitVec.ofNat 31 w.sent
          aux := if o = 0x01 then count else if o = 0x04 || o = 0x10 then w.sqe.imm
            else if isRead then BitVec.ofNat 32 w.length else 0
          payload := if atomic then beBytes 8 w.sqe.operandA.toNat ++
              beBytes 8 (if o = 0x07 then w.sqe.operandB.toNat else 0) else [] }, w)

/-- A UD SEND: one packet to the destination its REMOTE_ADDR names, Q_KEY in KEY (R144, Table 06-15). -/
def State.udPacket (s : State) (q : Nat) (x : Qp) : Option (Packet × Wqe) :=
  if !x.maySend then none
  else match firstUnsent [] x.wqes with
    | none => none
    | some (w, before) =>
      if !w.mayStart before then none
      else
        let a := w.sqe.remoteAddr.toNat
        some ({ s.basePacket q x 0x01 with
          dstModule := BitVec.ofNat 20 a
          dstQpn := BitVec.ofNat 24 (a / 2 ^ 24)
          flags := flagBits true true w.sqe.s false x.attr.cipherOn false
          msgId := x.req.msgId
          key := w.sqe.remoteKey
          payloadLen := BitVec.ofNat 13 (min w.length 4080) }, w)

/-- A packet to send again (R172): same fields, with RETX and ACK_REQ; a READ asks from its first missing offset on
(R173): FIRST marks PKT_OFFSET 0 (R155). -/
def firstMissing : Nat → Nat → Nat → Nat
  | 0, _, u => u
  | fuel + 1, cov, u => if cov.testBit u then firstMissing fuel cov (u + 1) else u

def retxPacket (mtu : Nat) (f : Flight) (w : Wqe) : Packet :=
  let p := f.pkt
  let p := { p with flags := flagBits p.first p.last p.solicited true p.enc true }
  if p.opcode = 0x05 then
    let k := mtu * firstMissing (w.length / mtu + 1) w.coverage 0
    { p with
      flags := flagBits (k == 0) p.last p.solicited true p.enc true
      pktOffset := BitVec.ofNat 31 k
      remoteAddr := w.sqe.remoteAddr + BitVec.ofNat 64 k
      aux := BitVec.ofNat 32 (w.length - k) }
  else p

/-- The packet of the flight with a PSN, when it may be resent now (R171). -/
def Requester.mayGo (r : Requester) (now : Nat) (p : Psn) : Option Flight :=
  r.flight.find? fun f => f.psn == p && decide (f.notBefore ≤ now)

def State.resendPacket (s : State) (x : Qp) : Option (Packet × Wqe) :=
  if !x.maySend then none
  else match x.req.resend.findSome? (x.req.mayGo s.timer) with
    | none => none
    | some f => (x.wqes.find? fun w => w.index == f.wqe).map fun w => (retxPacket x.mtu f w, w)

/-- What QP `q` would send next, if anything: a retransmission before a new packet. -/
def State.nextPacket (s : State) (q : Nat) (x : Qp) : Option (Packet × Wqe) :=
  match s.resendPacket x with
  | some p => some p
  | none => if x.type == .ud then s.udPacket q x else s.newPacket q x

/-! ## A requester packet presented at the egress bridge -/

/-- The keys of the part of the local side that the packet's payload is read from still pass (R127, R172). -/
def State.payloadOk (s : State) (x : Qp) (w : Wqe) (p : Packet) : Bool :=
  isReadOrAtomic p.opcode || w.internal || s.sideOk x.func false w.sqe w.segs p.pktOffset.toNat p.payloadLen.toNat

/-- R213: credit drawn as a message starts, or per packet of a long one. -/
def State.drawFor (s : State) (q : Nat) (x : Qp) (w : Wqe) (b : Nat) : State :=
  if !needsCredit x.type w.sqe.opcode || w.credited then s
  else
    let short := decide (w.length ≤ s.obj Row.unschedBytes)
    let n := if short then w.length else b
    s.updQp q fun x => { x with req := { x.req with
      balance := x.req.balance - n
      credits := drawCredits x.req.credits n
      need := if w.counted then x.req.need else x.req.need + w.length
      waitSince := none } }

/-- A new packet leaves: it takes its PSN, its entry passes its commit point, and the entry's books move on
(R134, R162). -/
def State.sentNew (s : State) (q : Nat) (x : Qp) (p : Packet) (w : Wqe) : State :=
  let b := p.payloadLen.toNat
  let first := w.sent == 0
  let short := decide (w.length ≤ s.obj Row.unschedBytes)
  let s := s.drawFor q x w b
  let data := if isReadOrAtomic w.sqe.opcode then 0 else b
  let w' := { w with
    st := .started, sent := if isReadOrAtomic w.sqe.opcode then w.length else w.sent + data
    msgId := p.msgId
    sendCount := if first then x.req.sendCount else w.sendCount
    firstPsn := if first then p.psn else w.firstPsn
    lastPsn := p.psn, allSent := p.last, credited := w.credited || short
    counted := w.counted || needsCredit x.type w.sqe.opcode }
  let s := s.setWqe q w'
  let s := s.updQp q fun x => { x with req := { x.req with
    nxt := x.req.nxt + 1
    flight := x.req.flight ++ [⟨p.psn, p, w.index, s.timer, p.ackReq, false, false, 0, 0⟩]
    msgId := if p.last then x.req.msgId + 1 else x.req.msgId
    sendCount := if p.last && w.sqe.opcode == 0x01 then x.req.sendCount + 1 else x.req.sendCount
    newPackets := x.req.newPackets + 1 } }
  match s.qp q with
  | none => s
  | some y => if !w.counted && needsCredit x.type w.sqe.opcode && s.obj Row.unschedBytes ≤ y.req.need - y.req.reported
      then s.demandReport q else s

/-- A UD SEND completes once its packet has left the egress bridge (R154). -/
def State.sentUd (s : State) (q : Nat) (w : Wqe) : State :=
  let s := s.updQp q fun x => { x with req := { x.req with msgId := x.req.msgId + 1 } }
  (s.setWqe q (w.end 0)).report q

/-- A retransmission leaves. -/
def State.sentAgain (s : State) (q : Nat) (p : Packet) : State :=
  s.updQp q fun x => { x with req := { x.req with
    resend := x.req.resend.erase p.psn
    flight := x.req.flight.map fun f => if f.psn = p.psn then { f with
      lastSend := s.timer, retx := true, notBefore := s.timer + x.req.rtoCur } else f } }

/-- The packet `p` of entry `w` is presented; a local key that no longer passes ends the entry instead (R172). -/
def State.presentRequest (s : State) (q : Nat) (x : Qp) (p : Packet) (w : Wqe) (payload : List Byte)
    (send : Packet → State → State) : State :=
  if !s.payloadOk x w p then s.failWqe q w.index 0x02
  else
    let s := if isReadOrAtomic p.opcode || w.internal then s
      else (s.rereadFrags w.sqe w.segs p.pktOffset.toNat p.payloadLen.toNat).translateSide w.segs p.pktOffset.toNat
        p.payloadLen.toNat
    let src := if w.internal then w.body.drop p.pktOffset.toNat else payload
    let p := { p with payload := if isAtomicOp p.opcode then p.payload else slice src 0 p.payloadLen.toNat }
    let s := send p s
    if p.retx then s.sentAgain q p
    else if x.type == .ud then s.sentUd q w
    else s.sentNew q x p w

/-! ## Waiting for credit -/

/-- R215: a long message of QP `q` that has begun to wait for credit adds to NEED and sends a report. -/
def State.noteWait (s : State) (q : Nat) : State :=
  match s.qp q with
  | none => s
  | some x =>
    if !x.maySend || x.req.waitSince.isSome then s
    else match firstUnsent [] x.wqes with
      | none => s
      | some (w, before) =>
        if !w.mayStart before || s.creditOk x w (w.nextLen (min x.mtu w.mtu)) then s
        else
          let begins := decide (s.obj Row.unschedBytes < w.length) && !w.counted
          let s := s.updQp q fun x => { x with req := { x.req with
            waitSince := some s.timer
            need := if begins then x.req.need + w.length else x.req.need } }
          if begins then (s.setWqe q { w with counted := true }).demandReport q else s

/-- R363: the mirror record of an entry that is ready to send its first packet. -/
def State.mirrorStart (s : State) (q : Nat) : State :=
  match s.qp q with
  | none => s
  | some x =>
    match firstUnsent [] x.wqes with
    | none => s
    | some (w, before) =>
      if w.mirrored || w.mirrorSent || !{ w with mirrored := true }.mayStart before then s
      else
        let s := s.sendRecord { s.blankRecord 1 q x with
          psnA := x.req.nxt, psnB := BitVec.ofNat 32 x.req.una.toNat, index := w.index
          token := if w.sqe.t then w.sqe.token else 0 }
        (s.setWqe q { w with mirrorSent := true }).hold (.start q w.index)

/-! ## Acknowledgments -/

def u24 (n : Nat) : BitVec 24 := BitVec.ofNat 24 n

/-- `p` is in [a, b) modulo 2^24. -/
def psnIn (a b p : Psn) : Bool := decide (ahead a p < ahead a b)

/-- R170: an RTT sample. -/
def Requester.sample (r : Requester) (t lo hi : Nat) : Requester :=
  let r := if r.haveSample then
      let d := if r.srtt ≤ t then t - r.srtt else r.srtt - t
      { r with rttvar := (3 * r.rttvar + d) / 4, srtt := (7 * r.srtt + t) / 8 }
    else { r with srtt := t, rttvar := t / 2, haveSample := true }
  let rto := clampNat (r.srtt + 4 * r.rttvar) lo hi
  { r with rto := rto, rtoCur := rto }

def State.rtoMin (s : State) : Nat := s.obj Row.rtoMin * 1000

/-- rto_max_eff of R170. -/
def State.rtoMax (s : State) : Nat := max (s.obj Row.rtoMax * 1000000) (s.obj Row.rtoMin * 1000)

/-- A sample from each eligible packet that this acknowledgment is the first to acknowledge, in PSN order. -/
def State.takeSample (s : State) (q : Nat) (acked : List Flight) : State :=
  eachDo (acked.filter fun f => f.ackReq && !f.retx && !f.acked) (fun f s =>
    s.updQp q fun x => { x with req := x.req.sample (s.timer - f.lastSend) s.rtoMin s.rtoMax }) s

/-- R178: SEND, WRITE and WRITE_IMM entries whose LAST packet UNA has passed end OK. -/
def Qp.endAcked (x : Qp) : Qp :=
  { x with wqes := x.wqes.map fun w =>
      if w.st == .started && w.allSent && !isReadOrAtomic w.sqe.opcode && psnPrecedes w.lastPsn x.req.una then w.end 0
      else w }

/-- Flights still needed: above UNA, or of a READ or atomic not yet ended. -/
def Qp.pruneFlight (x : Qp) : Qp :=
  let keep (f : Flight) : Bool :=
    !psnPrecedes f.psn x.req.una || x.wqes.any fun w => w.index == f.wqe && isReadOrAtomic w.sqe.opcode && !w.ended
  { x with req := { x.req with flight := x.req.flight.filter keep } }

/-- Progress: the retry counter and the PARK_FULL count return to 0 (R171). -/
def Requester.progress (r : Requester) : Requester := { r with retries := 0, parkCount := 0 }

/-- UNA becomes `e`. -/
def State.advanceUna (s : State) (q : Nat) (e : Psn) : State :=
  match s.qp q with
  | none => s
  | some x =>
    let acked := x.req.flight.filter fun f => psnIn x.req.una e f.psn
    let s := s.takeSample q acked
    let s := s.updQp q fun x =>
      let r := if e != x.req.una then { x.req.progress with una := e } else x.req
      let r := { r with flight := r.flight.map fun (f : Flight) => if psnPrecedes f.psn e then { f with acked := true } else f }
      Qp.pruneFlight (Qp.endAcked { x with req := { r with
        resend := r.resend.filter fun p => !psnPrecedes p e || x.wqes.any fun w =>
          isReadOrAtomic w.sqe.opcode && !w.ended && w.firstPsn == p } })
    s.report q

/-- R168: mark what HELD_MAP reports, bit i being PSN e + 1 + i. -/
def State.applySack (s : State) (q : Nat) (e : Psn) (map : Nat) : State :=
  match s.qp q with
  | none => s
  | some x =>
    let hit (f : Flight) : Bool := decide (1 ≤ ahead e f.psn) && decide (ahead e f.psn ≤ 255) && map.testBit (ahead e f.psn - 1)
    let s := s.takeSample q (x.req.flight.filter hit)
    s.updQp q fun x => { x with req := { x.req with
      flight := x.req.flight.map fun f => if hit f then { f with acked := true } else f
      resend := x.req.resend.filter fun p => !(x.req.flight.any fun f => f.psn == p && hit f &&
        !(isReadOrAtomic f.pkt.opcode)) } }

/-- R171: a resend is due at most once per rto_cur after the packet's last one. -/
def Requester.mayResend (r : Requester) (f : Flight) (now : Nat) : Bool :=
  !r.resend.contains f.psn && decide (f.notBefore ≤ now)

def insertPsn (base p : Psn) : List Psn → List Psn
  | [] => [p]
  | r :: rs => if p = r then r :: rs else if ahead base p < ahead base r then p :: r :: rs else r :: insertPsn base p rs

/-- Queue packets for resending, oldest first. -/
def Requester.queueResend (r : Requester) (ps : List Psn) : Requester :=
  { r with resend := ps.foldl (fun l p => insertPsn r.una p l) r.resend }

/-- R171: unacknowledged packets below an acknowledged one that have outlived srtt and REORDER_WINDOW. -/
def Requester.sackLost (r : Requester) (now reorder : Nat) : List Psn :=
  let top := (r.flight.filter Flight.acked).foldl (fun m f => max m (ahead r.una f.psn + 1)) 0
  (r.flight.filter fun f => !f.acked && decide (ahead r.una f.psn + 1 < top) &&
    decide (f.lastSend + r.srtt + reorder < now) && r.mayResend f now).map Flight.psn

def State.sackResend (s : State) (q : Nat) : State :=
  match s.qp q with
  | none => s
  | some x =>
    let lost := x.req.sackLost s.timer (s.obj Row.reorderWindow * 250)
    let s := s.bump Row.retxSack lost.length
    s.updQp q fun x => { x with req := x.req.queueResend lost }

/-- PSNs that an entry has still to take. -/
def Wqe.psnsLeft (w : Wqe) (mtu : Nat) : Nat :=
  if w.ended || w.allSent || w.coll.isSome then 0
  else if isReadOrAtomic w.sqe.opcode || w.length = 0 then 1
  else ceilDiv (w.length - w.sent) mtu

/-- R182: E lies beyond NXT, within the PSNs of entries that the survivor has taken from the ring, and the survivor has not sent
all of the entry mirrored last. -/
def Qp.regainAck (x : Qp) (e : Psn) : Bool :=
  (match x.regain.getLast? with
    | none => false
    | some r => x.wqes.any fun w => w.index == r.1 && !w.allSent && !w.ended) &&
  decide (ahead x.req.nxt e ≤ (x.wqes.map fun w => w.psnsLeft x.mtu).sum)

/-- R182: NXT passes packets of the next entry, at most up to `e`, without sending them. A READ or atomic passed so is
acknowledged and has still to be asked for again, its response having gone to the lost twin. -/
def State.skipOne (s : State) (q : Nat) (x : Qp) (w : Wqe) (e : Psn) : State :=
  let n := min (ahead x.req.nxt e) (w.psnsLeft x.mtu)
  let ask := isReadOrAtomic w.sqe.opcode
  let sent := if ask then w.length else min w.length (w.sent + n * x.mtu)
  let all := ask || decide (w.length ≤ sent)
  let w' := { w with
    st := .started, sent := sent, allSent := all, lastPsn := x.req.nxt + BitVec.ofNat 24 n - 1
    msgId := if w.sent = 0 then x.req.msgId else w.msgId
    sendCount := if w.sent = 0 then x.req.sendCount else w.sendCount
    firstPsn := if w.sent = 0 then x.req.nxt else w.firstPsn }
  let ps := if ask then regainPackets (s.basePacket q x w.sqe.opcode) w' x.mtu x.req.nxt else []
  (s.setWqe q w').updQp q fun x => { x with req := { x.req with
    nxt := x.req.nxt + BitVec.ofNat 24 n
    flight := x.req.flight ++ ps.map fun p => ⟨p.psn, p, w.index, s.timer, p.ackReq, true, true, 0, 0⟩
    msgId := if all then x.req.msgId + 1 else x.req.msgId
    sendCount := if all && w.sqe.opcode == 0x01 then x.req.sendCount + 1 else x.req.sendCount } }

/-- NXT reaches `e`, entry by entry. -/
def State.skipTo : Nat → State → Nat → Psn → State
  | 0, s, _, _ => s
  | fuel + 1, s, q, e =>
    match s.qp q with
    | none => s
    | some x =>
      match firstUnsent [] x.wqes with
      | none => s
      | some (w, _) => if x.req.nxt = e then s else State.skipTo fuel (s.skipOne q x w e) q e

/-- R168: an arriving ACK of an RC QP. -/
def State.handleAck (s : State) (q : Nat) (x : Qp) (p : Packet) (at0 : Nat) : State :=
  let units := p.aux.toNat / 2 ^ 16
  if psnPrecedes p.psn x.req.una then s.applyGrant q units at0
  else if psnPrecedes x.req.nxt p.psn && !x.regainAck p.psn then s.bump Row.ackInvalid
  else
    let s := s.applyGrant q units at0
    let s := if psnPrecedes x.req.nxt p.psn then s.skipTo (x.wqes.length + 1) q p.psn else s
    let s := s.advanceUna q p.psn
    let s := if p.aux.toNat.testBit 0 then s.applySack q p.psn (beNat (p.payload.take 32)) else s
    s.sackResend q

/-! ## Resending -/

/-- Every unacknowledged packet from `from` up to NXT. -/
def Qp.unackedFrom (x : Qp) (from_ : Psn) : List Psn :=
  (x.req.flight.filter fun f => !f.acked && psnIn from_ x.req.nxt f.psn).map Flight.psn

/-- A READ or atomic that has no complete response. -/
def Qp.awaits (x : Qp) (f : Flight) : Bool :=
  isReadOrAtomic f.pkt.opcode && x.wqes.any fun w => w.index == f.wqe && !w.ended

/-- What a timeout resends: every unacknowledged packet, and every READ and atomic without a complete response. -/
def Qp.timedOut (x : Qp) : List Psn :=
  (x.req.flight.filter fun f => (!f.acked && psnIn x.req.una x.req.nxt f.psn) || x.awaits f).map Flight.psn

/-- The oldest entry that is started and not ended. -/
def Qp.oldest (x : Qp) : Option Wqe := x.wqes.find? fun w => !w.ended && w.coll.isNone

/-- R171: one more on the retry counter; past 7 the oldest incomplete entry ends RETRY_EXCEEDED. -/
def State.addRetry (s : State) (q : Nat) (go : State → State) : State :=
  match s.qp q with
  | none => s
  | some x =>
    if 7 < x.req.retries + 1 then
      let s := s.bump Row.retryExceededCount
      match x.oldest with
      | some w => s.failWqe q w.index 0x06
      | none => s.qpError q 0x06
    else go (s.updQp q fun x => { x with req := { x.req with retries := x.req.retries + 1 } })

/-- R171: the retransmit timer fell due. -/
def State.retransmitTimeout (s : State) (q : Nat) : State :=
  match s.qp q with
  | none => s
  | some x =>
    let waiting := x.timedOut
    if !x.maySend || waiting.isEmpty then s
    else
      s.addRetry q fun s =>
        let s := s.updQp q fun x => { x with req := { x.req with rtoCur := min (2 * x.req.rtoCur) s.rtoMax } }
        let s := s.bump Row.retxTimeout waiting.length
        s.updQp q fun x => { x with req := x.req.queueResend waiting }

/-- When the QP's timer falls due, if it runs: last send of UNA plus rto_cur, and of a READ or atomic without a complete response
its last send, or its last new response byte, plus rto_cur (R170). -/
def Qp.timerDue (x : Qp) : Option Nat :=
  let dues := (x.req.flight.filter fun f => (f.psn == x.req.una && !f.acked) || x.awaits f).map fun f =>
    max f.lastSend f.progress + x.req.rtoCur
  dues.foldl (fun m d => some (match m with
    | none => d
    | some n => min n d)) none

/-! ## NAKs -/

/-- The entry not ended whose packets hold PSN `p`, also once UNA has passed it. -/
def Qp.wqeOf (x : Qp) (p : Psn) : Option Wqe :=
  x.wqes.find? fun w => (w.sent != 0 || w.allSent) && !w.ended && decide (ahead w.firstPsn p ≤ ahead w.firstPsn w.lastPsn)

/-- The lower of a PSN and the one a wait will resend from, if one runs. -/
def lowerPsn (una p : Psn) : Option Psn → Psn
  | none => p
  | some o => if ahead una p < ahead una o then p else o

/-- R157, Tables 06-16 and 07-5: the requester's outcome of a NAK. A NO_RECV during the wait of another counts only for a lower
PSN, from which the wait then resends. -/
def State.handleNak (s : State) (q : Nat) (x : Qp) (p : Packet) : State :=
  let syn := p.aux.toNat % 256
  let hint := p.aux.toNat / 2 ^ 16
  if syn = 0x20 then
    let s := s.bump Row.parkFullReceived
    let from_ := lowerPsn x.req.una p.psn x.req.parkFrom
    let pause (s : State) : State := s.updQp q fun x => { x with req := { x.req with
      parkFrom := some from_, parkUntil := max (s.timer + hint * 1000) (if x.req.parkFrom.isSome then x.req.parkUntil else 0) } }
    let s := s.updQp q fun x => { x with req := { x.req with parkCount := x.req.parkCount + 1 } }
    if (x.req.parkCount + 1) % 16 = 0 then s.addRetry q pause else pause s
  else if syn = 0x60 && x.type == .roceRc then
    (s.advanceUna q p.psn).updQp q fun x => { x with req := x.req.queueResend (x.unackedFrom p.psn) }
  else match x.wqeOf p.psn with
    | none => s
    | some w =>
      if syn = 0x10 then
        let spent := if x.req.rnrOf = some w.index then x.req.rnrRetries else 0
        if x.req.rnrFrom = some (lowerPsn x.req.una p.psn x.req.rnrFrom) then s
        else if x.attr.rnrRetry ≠ 7 && x.attr.rnrRetry ≤ spent then s.failWqe q w.index 0x05
        else
          let again := ((x.req.flight.filter fun f => f.psn == p.psn).map Flight.notBefore).foldl max 0
          s.updQp q fun x => { x with req := { x.req with
            rnrFrom := some p.psn, rnrUntil := max (s.timer + x.attr.rnrDelay * 10000) again
            rnrRetries := spent + 1, rnrOf := some w.index } }
      else if 1 ≤ syn && syn ≤ 4 then s.failWqe q w.index 0x04
      else s.failWqe q w.index 0x05

/-- One of the two waits of R171 ends, as `wait` says: every unacknowledged packet from the NAK'd PSN is to be resent, which the other
wait may still put off. -/
def State.resumeFrom (s : State) (q : Nat) (p : Psn) (wait : Requester → Requester) : State :=
  s.updQp q fun x =>
    let x := { x with req := wait x.req }
    { x with req := x.req.queueResend (x.unackedFrom p) }

/-! ## Responses -/

/-- A complete response acknowledges its PSN (R163): it gives a sample if it is the first to, and UNA passes every PSN that is
acknowledged. -/
def Qp.passAcked : Nat → Qp → Qp
  | 0, x => x
  | fuel + 1, x =>
    if x.req.flight.any fun f => f.psn == x.req.una && f.acked && x.req.una != x.req.nxt then
      Qp.passAcked fuel { x with req := { x.req with una := x.req.una + 1 } }
    else x

def State.responseDone (s : State) (q : Nat) (x : Qp) (psn : Psn) : State :=
  let s := s.takeSample q (x.req.flight.filter fun f => f.psn == psn)
  let s := s.updQp q fun x =>
    let y := { x with req := { x.req with
      flight := x.req.flight.map fun (f : Flight) => if f.psn = psn then { f with acked := true } else f
      resend := x.req.resend.erase psn } }
    Qp.pruneFlight (Qp.endAcked (y.passAcked 256))
  s.report q

/-- R173, R178: response bytes are placed by PKT_OFFSET in units of a packet's payload, 4 KiB on a native QP; covered units are
dropped. -/
def State.handleReadResp (s : State) (q : Nat) (x : Qp) (p : Packet) : State :=
  match x.wqeOf p.psn with
  | none => s.bump Row.dupDrop
  | some w =>
    let unit := p.pktOffset.toNat / x.mtu
    if w.sqe.opcode != 0x05 || w.coverage.testBit unit then s.bump Row.dupDrop
    else if (s.segPaths w.segs p.pktOffset.toNat p.payload.length).any fun h => !(s.hp h).up then s
    else if !s.sideOk x.func true w.sqe w.segs p.pktOffset.toNat p.payload.length then s.failWqe q w.index 0x02
    else
      let s := s.rereadFrags w.sqe w.segs p.pktOffset.toNat p.payload.length
      let (s, ws) := s.placeSegs w.segs p.pktOffset.toNat p.payload
      let w := { w with coverage := w.coverage ||| 2 ^ unit, placed := w.placed ++ ws }
      let full := (List.range (max 1 (ceilDiv w.length x.mtu))).all w.coverage.testBit
      let s := s.updQp q fun x => { x with req := { x.req.progress with
        flight := x.req.flight.map fun f => if f.psn = p.psn then { f with progress := s.timer } else f } }
      if full then (s.setWqe q (w.end 0)).responseDone q x p.psn else s.setWqe q w

/-- R178: the original value is placed at LOCAL_ADDR, least significant byte first (R8). -/
def State.handleAtomicResp (s : State) (q : Nat) (x : Qp) (p : Packet) : State :=
  match x.wqeOf p.psn with
  | none => s.bump Row.dupDrop
  | some w =>
    if !isAtomicOp w.sqe.opcode then s.bump Row.dupDrop
    else if (s.segPaths w.segs 0 8).any fun h => !(s.hp h).up then s
    else if !s.sideOk x.func true w.sqe w.segs 0 8 then s.failWqe q w.index 0x02
    else
      let (s, ws) := s.placeSegs w.segs 0 (leBytes 8 (beNat (p.payload.take 8)))
      let s := s.updQp q fun x => { x with req := x.req.progress }
      (s.setWqe q ({ w with placed := w.placed ++ ws }.end 0)).responseDone q x p.psn

end Sys2Proof.Machine
end

