-- ==== Sys2Proof/Machine/Responder.lean ====
section
/-! DEFINITION. The responder side of reliable delivery: the checks of R156, placement, messages, acknowledgments,
duplicates, READs and atomics (R153-R157, R164-R167, R175-R180), UD receives, and RoCE v2 mode (R158). -/

namespace Sys2Proof.Machine

/-! ## The security log (R421, Table 18-6) -/

/-- Append a 32 B entry, newest last, and raise SEC_LOG_ENTRY to the PF. -/
def State.secLog (s : State) (type detail func qpn peer key addr : Nat) : State :=
  let entry := type + detail * 2 ^ 8 + func * 2 ^ 16 + qpn * 2 ^ 32 + peer * 2 ^ 64 + key * 2 ^ 96 +
    addr * 2 ^ 128 + s.timer % 2 ^ 64 * 2 ^ 192
  let s := s.setObj Row.secLog (s.obj Row.secLog / 2 ^ 256 + entry * 2 ^ 7936)
  let s := s.bump Row.secLogCount
  s.raisePf 0x0A01 0 type detail

/-! ## Acknowledgments -/

/-- HELD_MAP: bit i set when PSN E + 1 + i is DONE or REPORTED (Table 07-3). -/
def Responder.heldMap (r : Responder) : Nat :=
  (r.window.filter fun p => p.2.st != .held).foldl (fun m p =>
    let d := ahead r.e (BitVec.ofNat 24 p.1)
    if 1 ≤ d && d ≤ 255 then m ||| 2 ^ (d - 1) else m) 0

/-- PSNs DONE and not yet reported. -/
def Responder.unreported (r : Responder) : Nat :=
  ahead r.re r.e + (r.window.filter fun p => p.2.st == .done).length

/-- Everything the ACK reports becomes REPORTED, and RE its E (R166). -/
def Responder.reportAll (r : Responder) : Responder :=
  { r with
    re := r.e, grantOut := r.grantOut - min r.grantOut 65535, doneSince := none
    window := r.window.map fun p => if p.2.st == .done then (p.1, { p.2 with st := .reported }) else p }

/-- The ACK of Table 07-2 as it stands now. -/
def State.ackPacket (s : State) (q : Nat) (x : Qp) : Packet :=
  let map := x.resp.heldMap
  let sack := map != 0
  { s.basePacket q x 0x30 with
    psn := x.resp.e
    payloadLen := if sack then 32 else 0
    aux := BitVec.ofNat 32 (min x.resp.grantOut 65535 * 2 ^ 16 + sack.toNat)
    payload := if sack then beBytes 32 map else [] }

/-- Post a formed packet, or hold it behind a RESPONDER record on a paired module (Table 16-5a). -/
def State.postHeld (s : State) (q : Nat) (x : Qp) (kind : Byte) (p : Packet) (data : BitVec 256) : State :=
  if s.mirrors q x then
    let s := s.sendRecord { s.blankRecord kind q x with
      psnA := if kind = 2 then x.resp.e else p.psn, psnB := x.resp.recvBase, data := data }
    s.hold (.post (QPkt.made p x.func q s.timer))
  else s.post q p

/-- R165, R166: form an ACK. -/
def State.formAck (s : State) (q : Nat) : State :=
  match s.qp q with
  | none => s
  | some x =>
    let s := s.bump Row.ackSent
    let s := s.postHeld q x 2 (s.ackPacket q x) (BitVec.ofNat 256 x.resp.heldMap)
    s.updQp q fun x => { x with resp := x.resp.reportAll }

/-- A NAK of Table 07-4; one with a syndrome 0x01-0x04 is counted (Table 06-19). -/
def State.sendNak (s : State) (q : Nat) (p : Packet) (syn hint : Nat) : State :=
  match s.qp q with
  | none => s
  | some x =>
    let s := if 1 ≤ syn && syn ≤ 4 then s.bump Row.accessViolationCount else s
    s.postHeld q x 2 { s.basePacket q x 0x31 with
      dstModule := p.srcModule, dstQpn := p.srcQpn, psn := p.psn
      aux := BitVec.ofNat 32 (hint * 2 ^ 16 + syn) } (BitVec.ofNat 256 x.resp.heldMap)

/-! ## Classification (R164, R179) -/

inductive PsnClass where
  | new | outside | acked | unacked
  deriving DecidableEq, Repr

def Responder.classify (r : Responder) (p : Psn) : PsnClass :=
  let d := ahead r.e p
  if d < 256 then
    match tget r.window p.toNat with
    | none => .new
    | some ⟨.reported, _, _⟩ => .acked
    | some _ => .unacked
  else if d < 2 ^ 23 then .outside
  else if psnPrecedes p r.re then .acked
  else .unacked

/-! ## Receive entries -/

/-- Pop aborted entries off the front of the receive list, each with its ABORTED CQE (R136). -/
def State.popAborted : Nat → State → Nat → State
  | 0, s, _ => s
  | fuel + 1, s, q =>
    match s.qp q with
    | none => s
    | some x =>
      match x.resp.recvs with
      | r :: rest =>
        if r.aborted then
          State.popAborted fuel ((s.formRecvCqe q r 0x08 0 false []).updQp q fun x =>
            { x with resp := { x.resp with recvs := rest } }) q
        else s
      | [] => s

/-- The receive entry that SEND number `k` matches (R153), if one is posted. -/
def Qp.recvFor (x : Qp) (k : BitVec 32) : Option RecvE :=
  (x.resp.recvs.filter fun r => !r.aborted)[ahead x.resp.recvBase k]?

/-- The next unmatched entry of a ROCE_RC or UD QP's receive ring. -/
def Qp.nextRecv (x : Qp) : Option RecvE := x.resp.recvs.find? fun r => !r.aborted && !r.matched

/-- The next entry of an SRQ not aborted. -/
def State.nextSrq (s : State) (n : Nat) : Option RecvE :=
  (tget s.wq.srqs n).bind fun y => y.entries.find? fun r => !r.aborted

def State.markMatched (s : State) (q : Nat) (k : RingIndex) : State :=
  s.updQp q fun x => { x with resp := { x.resp with
    recvs := x.resp.recvs.map fun r => if r.index = k then { r with matched := true } else r } }

/-- The receive entry for a message of QP `q`: by SEND count on a receive ring, in arrival order on an SRQ. -/
def State.recvEntry (s : State) (x : Qp) (count : BitVec 32) (inOrder : Bool) : Option RecvE :=
  match x.srqn with
  | some n => s.nextSrq n
  | none => if inOrder then x.nextRecv else x.recvFor count

/-- The entry is matched. -/
def State.takeEntryFor (s : State) (q : Nat) (x : Qp) (r : RecvE) : State :=
  match x.srqn with
  | some n => s.updSrq n fun y => { y with entries := y.entries.erase r }
  | none => s.markMatched q r.index

/-! ## Messages -/

def Responder.msg (r : Responder) (id : BitVec 16) : Option Msg := r.msgs.find? fun m => m.msgId == id

def State.setMsg (s : State) (q : Nat) (m : Msg) : State :=
  s.updQp q fun x => { x with resp := { x.resp with
    msgs := if x.resp.msgs.any (fun n => n.msgId == m.msgId)
      then x.resp.msgs.map fun n => if n.msgId = m.msgId then m else n
      else x.resp.msgs ++ [m] } }

def Msg.new (p : Packet) : Msg where
  msgId := p.msgId
  opcode := p.opcode
  lastPsn := none
  length := 0
  imm := 0
  immValid := false
  solicited := false
  recv := none
  placed := []
  failed := []
  violation := false
  bytes := 0

/-- A message as one more of its packets is accepted. -/
def Msg.add (m : Msg) (p : Packet) (ws : List (Nat × Nat)) : Msg :=
  { m with
    lastPsn := if p.last then some p.psn else m.lastPsn
    length := if p.last then p.pktOffset.toNat + p.payloadLen.toNat else m.length
    imm := if p.opcode = 0x04 then p.aux else m.imm
    immValid := m.immValid || p.opcode == 0x04
    solicited := m.solicited || p.solicited
    placed := m.placed ++ ws
    bytes := m.bytes + p.payloadLen.toNat }

/-- The notification CQE of a WRITE_IMM at its target (R129, Table 06-18). -/
def State.notifyCqe (s : State) (q : Nat) (m : Msg) : Cqe where
  timestamp := 0
  count := if m.recv.isSome then 1 else 0
  index := match m.recv with
    | some r => r.index
    | none => 0
  imm := m.imm
  byteCount := BitVec.ofNat 32 m.length
  wrId := match m.recv with
    | some r => r.sqe.wrId
    | none => 0
  qpn := BitVec.ofNat 24 (s.local totalQps q)
  solicited := m.solicited
  responder := true
  immValid := true
  opcode := 0x04
  status := 0
  flushed := true

/-- R176: what the completion of a message writes. -/
def State.completeMsg (s : State) (q : Nat) (m : Msg) : State :=
  match s.qp q with
  | none => s
  | some x =>
    let cq := s.global totalCqs x.func x.rcqn
    let drop (r : RecvE) (s : State) : State := s.updQp q fun x => { x with resp := { x.resp with
      recvs := x.resp.recvs.filter fun v => v.index != r.index
      recvBase := x.resp.recvBase + 1 } }
    if m.opcode = 0x01 then
      match m.recv with
      | none => s
      | some r =>
        let s := s.formCqe q cq m.placed { s.recvCqe q r 0 m.length m.solicited with imm := m.imm, immValid := m.immValid }
        let s := if x.srqn.isSome then s else drop r s
        s.popAborted (x.resp.recvs.length + 1) q
    else if m.opcode = 0x04 then
      let s := s.formCqe q cq m.placed (s.notifyCqe q m)
      match m.recv with
      | some r => if x.srqn.isSome then s else drop r s
      | none => s
    else s

/-- The earliest message whose LAST PSN E has passed and that no refused packet precedes (R176, R177). -/
def Responder.nextComplete (r : Responder) : Option Msg :=
  let ok (m : Msg) : Bool := match m.lastPsn with
    | none => false
    | some l => m.failed.isEmpty && psnPrecedes l r.e && match r.failed with
      | none => true
      | some f => psnPrecedes l f
  (r.msgs.filter ok).foldl (fun best m =>
    match best, m.lastPsn with
    | some b, some l => if ahead l r.e > ahead (b.lastPsn.getD r.e) r.e then some m else some b
    | none, some _ => some m
    | b, none => b) none

def State.completeMsgs : Nat → State → Nat → State
  | 0, s, _ => s
  | fuel + 1, s, q =>
    match (s.qp q).bind fun x => x.resp.nextComplete with
    | none => s
    | some m =>
      State.completeMsgs fuel ((s.completeMsg q m).updQp q fun x => { x with resp := { x.resp with
        msgs := x.resp.msgs.filter fun n => n.msgId != m.msgId } }) q

/-! ## E -/

/-- E passes every PSN that is DONE or REPORTED (R164). -/
def Responder.advance : Nat → Responder → Responder
  | 0, r => r
  | fuel + 1, r =>
    match tget r.window r.e.toNat with
    | some ⟨.held, _, _⟩ => r
    | some _ => Responder.advance fuel { r with e := r.e + 1, window := tdel r.window r.e.toNat }
    | none => r

/-- Set the state of a PSN, keeping the highest PSN held. -/
def Responder.setPsn (r : Responder) (p : Packet) (st : PsnSt) : Responder :=
  { r with
    window := tput r.window p.psn.toNat ⟨st, p.opcode, p.msgId⟩
    highest := match r.highest with
      | none => some p.psn
      | some h => if psnPrecedes h p.psn then some p.psn else some h }

/-! ## READs and atomics at the responder -/

/-- READ_RESP packets over the bytes read, in pieces of the QP's packet size (R155). -/
def readResponses (base : Packet) (mtu : Nat) : Nat → Nat → List Byte → List Packet
  | 0, _, _ => []
  | fuel + 1, off, bytes =>
    let n := min mtu bytes.length
    let last := decide (bytes.length ≤ mtu)
    let p := { base with
      flags := flagBits (off == 0) last false false base.enc false
      payloadLen := BitVec.ofNat 13 n
      pktOffset := BitVec.ofNat 31 off
      payload := bytes.take n }
    if last then [p] else p :: readResponses base mtu fuel (off + n) (bytes.drop n)

/-- R414: a protected QP notes when it executes a READ, for the 16 most recent PSNs. -/
def State.noteRead (s : State) (q : Nat) (x : Qp) (p : Packet) : State :=
  if !x.attr.cipherOn then s
  else s.updQp q fun x => { x with cipher := { x.cipher with
    reads := ((p.psn, s.timer) :: x.cipher.reads.filter fun r => r.1 != p.psn).take 16 } }

/-- Answer a READ_REQ with the bytes its read returned; the read length is AUX. -/
def State.answerRead (s : State) (q : Nat) (x : Qp) (a : Arrival) (bytes : List Byte) : State :=
  let p := a.pkt
  let s := (s.noteRead q x p).translate p.key p.remoteAddr.toNat (min bytes.length p.aux.toNat)
  let len := p.aux.toNat
  let base := { s.basePacket q x 0x20 with psn := p.psn, msgId := p.msgId, dstModule := p.srcModule, dstQpn := p.srcQpn }
  eachDo (readResponses base x.mtu (len / x.mtu + 1) p.pktOffset.toNat (slice bytes 0 len)) (fun r s => s.post q r) s

/-- Mark a PSN DONE; `since` starts ACK_DELAY (R166). -/
def State.markDone (s : State) (q : Nat) (p : Packet) : State :=
  s.updQp q fun x => { x with resp := { x.resp.setPsn p .done with
    doneSince := match x.resp.doneSince with
      | some t => some t
      | none => some s.timer } }

def State.markIssued (s : State) (q : Nat) (psn : Psn) : State :=
  s.updQp q fun x => { x with resp := { x.resp with
    heldReqs := x.resp.heldReqs.map fun h => if h.arrival.pkt.psn = psn then { h with issued := true } else h } }

/-- The AtomicOp of a request on the half-port and address its check gave it (R149, R150). -/
def State.issueAtomic (s : State) (q : Nat) (h : HeldReq) : State :=
  let p := h.arrival.pkt
  (s.emit (.atomicOp h.path h.addr (p.opcode == 0x07)
    (BitVec.ofNat 64 (beNat (p.payload.take 8))) (BitVec.ofNat 64 (beNat ((p.payload.drop 8).take 8))))).markIssued q p.psn

/-- R367: on a paired module the AtomicOp waits for its ATOMIC_INTENT record. -/
def State.startAtomic (s : State) (q : Nat) (x : Qp) (h : HeldReq) : State :=
  let psn := h.arrival.pkt.psn
  if s.mirrors q x then
    ((s.sendRecord { s.blankRecord 4 q x with psnA := psn }).hold (.atomic q psn)).markIssued q psn
  else s.issueAtomic q h

/-- The message of a refused packet is failed: neither it nor a later message of the QP completes (R177). -/
def State.failMsg (s : State) (q : Nat) (p : Packet) (m : Msg) (syn : Nat) : State :=
  let s := s.setMsg q { m with failed := m.failed ++ [(p.psn, syn)] }
  s.updQp q fun x => { x with resp := { x.resp with
    failed := match x.resp.failed with
      | some f => if psnPrecedes p.psn f then some p.psn else some f
      | none => some p.psn } }

/-- The message of a packet as the responder keeps it, or a new one. -/
def Responder.msgOf (r : Responder) (p : Packet) : Msg := (r.msg p.msgId).getD (Msg.new p)

/-- A packet is refused: its PSN is DONE and its message failed (R177). -/
def State.refuse (s : State) (q : Nat) (p : Packet) (syn : Nat) : State :=
  let s := (s.sendNak q p syn 0).markDone q p
  match s.qp q with
  | none => s
  | some x => s.failMsg q p ((x.resp.msgOf p).add p []) syn

/-- Execute the READ or atomic that E has reached (R154 items 4 and 5). -/
def State.runHeld (s : State) (q : Nat) : State :=
  match s.qp q with
  | none => s
  | some x =>
    match x.resp.heldReqs.find? fun h => h.arrival.pkt.psn == x.resp.e && !h.issued with
    | none => s
    | some h =>
      let p := h.arrival.pkt
      let drop (s : State) : State := s.updQp q fun x => { x with resp := { x.resp with
        heldReqs := x.resp.heldReqs.filter fun g => g.arrival.pkt.psn != p.psn } }
      if p.opcode = 0x05 then
        match h.arrival.data with
        | none => (drop s).refuse q p 0x13
        | some bytes =>
          (s.markIssued q p.psn).answerRead q x h.arrival bytes
      else s.startAtomic q x h

/-- After PSNs became DONE: E advances, messages complete, and the next READ or atomic executes. Refusals in that
can advance E again. -/
def State.settleResp : Nat → State → Nat → State
  | 0, s, _ => s
  | fuel + 1, s, q =>
    let e0 := (s.qp q).map fun x => x.resp.e
    let s := s.updQp q fun x => { x with resp := x.resp.advance 256 }
    let s := s.completeMsgs 257 q
    let s := s.runHeld q
    let again : Bool := match s.qp q with
      | some x => (tget x.resp.window x.resp.e.toNat).any (fun r => r.st != .held) && !(decide (some x.resp.e = e0))
      | none => false
    if again then State.settleResp fuel s q else s

/-- Trigger 4 of R166. -/
def State.coalesce (s : State) (q : Nat) : State :=
  match s.qp q with
  | none => s
  | some x => if s.obj Row.ackCoalesce ≤ x.resp.unreported then s.formAck q else s

/-- The first READ_RESP of a READ_REQ is presented: its PSN is DONE (Table 07-1). -/
def State.respPresented (s : State) (q : Nat) (p : Packet) : State :=
  match (s.qp q).bind fun x => x.resp.heldReqs.find? fun h => h.arrival.pkt.psn == p.psn && h.issued with
  | none => s
  | some h =>
    let s := s.updQp q fun x => { x with resp := { x.resp with
      heldReqs := x.resp.heldReqs.filter fun g => g.arrival.pkt.psn != p.psn } }
    (((s.markDone q h.arrival.pkt)).settleResp 17 q).coalesce q

/-! ## The checks of R156 -/

/-- ACCESS bit an opcode needs. -/
def neededRight (o : Byte) : Nat :=
  if o = 0x05 then 1 else if o = 0x03 || o = 0x04 then 2 else 3

def usesRegion (o : Byte) : Bool := o == 0x03 || o == 0x04 || isReadOrAtomic o

/-- The syndrome a new request is refused with, none when it passes. RoCE peers' generations are not checked. -/
def State.check (s : State) (q : Nat) (x : Qp) (p : Packet) : Option Nat :=
  let allowed := match x.type with
    | .rc | .roceRc => p.opcode == 0x01 || usesRegion p.opcode
    | .ud => p.opcode == 0x01
    | .coll => p.opcode == 0x10 || p.opcode == 0x11
  if !allowed then some 0x12
  else if !usesRegion p.opcode then none
  else
    let found := tget s.wq.regions (p.key.toNat / 256)
    match found with
    | none => some 0x01
    | some r =>
      let len := if p.opcode = 0x05 then p.aux.toNat else if isAtomicOp p.opcode then 8 else p.payloadLen.toNat
      if !r.valid || r.poisoned || (x.type != .roceRc && r.gen != BitVec.ofNat 8 p.key.toNat) || r.func != x.func then some 0x01
      else if r.bindQpn != 0 && r.bindQpn != s.local totalQps q then some 0x02
      else if p.remoteAddr.toNat < r.va || r.va + r.length < p.remoteAddr.toNat + len then some 0x03
      else if !r.access.testBit (neededRight p.opcode) then some 0x04
      else if isAtomicOp p.opcode && p.remoteAddr.toNat % 8 != 0 then some 0x12
      else none

/-- R157: the violation event and log entry, once per QP and message. -/
def State.violation (s : State) (q : Nat) (x : Qp) (p : Packet) (syn : Nat) : State :=
  let told := match x.resp.msg p.msgId with
    | some m => m.violation
    | none => false
  if told then s
  else
    let s := s.raiseTo x.func 0x0302 (s.local totalQps q) p.remoteAddr.toNat
      (p.key.toNat * 2 ^ 32 + syn * 2 ^ 24 + p.srcModule.toNat)
    s.secLog 1 syn x.func (s.local totalQps q) p.srcModule.toNat p.key.toNat p.remoteAddr.toNat

/-- A refused packet's message has had its violation told (R157). -/
def State.tellViolation (s : State) (q : Nat) (x : Qp) (p : Packet) (syn : Nat) (refuse_ : State → State) : State :=
  if 1 ≤ syn && syn ≤ 4 then
    let s := refuse_ (s.violation q x p syn)
    match (s.qp q).bind fun x => x.resp.msg p.msgId with
    | some m => s.setMsg q { m with violation := true }
    | none => s
  else refuse_ s

/-- Refuse a new packet with a syndrome of Table 06-16. -/
def State.refuseNew (s : State) (q : Nat) (x : Qp) (p : Packet) (syn : Nat) : State :=
  let s := s.tellViolation q x p syn fun s => s.refuse q p syn
  (s.settleResp 17 q).coalesce q

/-! ## Accepting a new packet -/

/-- Triggers 1 and 2 of R166, judged before the packet itself is DONE (R17). -/
def State.ackOnArrival (s : State) (q : Nat) (x : Qp) (p : Packet) : State :=
  let gap := match x.resp.highest with
    | some h => psnPrecedes (h + 1) p.psn
    | none => p.psn != x.resp.e
  if p.ackReq || gap then s.formAck q else s

/-- R216, R218: bytes of new packets that need credit, and overrun. -/
def State.countArrived (s : State) (q : Nat) (p : Packet) : State :=
  match s.qp q with
  | none => s
  | some x =>
    if !(needsCredit x.type p.opcode || p.opcode == 0x10) then s
    else
      let a := x.resp.arrived + p.payloadLen.toNat
      let limit := x.resp.granted + s.obj Row.unschedBytes
      let s := s.bump Row.grantOverrun (a - max limit (min a x.resp.arrived) )
      s.updQp q fun x => { x with resp := { x.resp with arrived := a } }

/-- On a paired module a placed PSN waits for its TLPs to be acknowledged (R366); otherwise it is DONE now (R17). -/
def State.placedPsn (s : State) (q : Nat) (x : Qp) (p : Packet) : State :=
  if s.mirrors q x && p.payloadLen != 0 then
    s.updQp q fun x => { x with resp := x.resp.setPsn p .held }
  else ((s.markDone q p).settleResp 17 q).coalesce q

/-- Whether any half-port the bytes fall on is down (R105). -/
def State.anyDown (s : State) (hs : List Nat) : Bool := hs.any fun h => !(s.hp h).up

/-- A WRITE or WRITE_IMM packet that passed R156: placed at its REMOTE_ADDR (R175). -/
def State.acceptWrite (s : State) (q : Nat) (x : Qp) (p : Packet) : State :=
  match tget s.wq.regions (p.key.toNat / 256) with
  | none => s
  | some r =>
    if p.payloadLen != 0 && !(s.hp r.path).up then s
    else
      let s := s.ackOnArrival q x p
      let s := s.countArrived q p
      let (s, ws) := s.placeRegion r p.remoteAddr.toNat (slice p.payload 0 p.payloadLen.toNat)
      let s := s.setMsg q ((x.resp.msgOf p).add p ws)
      let s := s.updQp q fun x => { x with resp := { x.resp with lastHp := some r.path } }
      s.placedPsn q x p

/-- An SRQ entry that failed its check completes with the status of that check on the QP whose message takes it
(notes/assumptions/48). -/
def State.faultyRecv (s : State) (q : Nat) (p : Packet) (r : RecvE) : State :=
  (s.formRecvCqe q r (r.fault.getD 0x0A) 0 p.solicited []).qpError q (r.fault.getD 0x0A)

/-- Half-ports that a message's bytes fall on in its receive entry. -/
def State.recvDown (s : State) (r : RecvE) (off len : Nat) : Bool := s.anyDown (s.segPaths r.segs off len)

/-- A receive entry whose message cannot go on: its CQE carries the status and the QP enters ERROR. -/
def State.failRecv (s : State) (q : Nat) (p : Packet) (r : RecvE) (status : Nat) : State :=
  let s := s.formRecvCqe q r status 0 p.solicited []
  let s := s.updQp q fun x => { x with resp := { x.resp with
    recvs := x.resp.recvs.filter fun v => v.index != r.index
    msgs := x.resp.msgs.filter fun m => m.msgId != p.msgId } }
  s.qpError q status

/-- Place a SEND packet into its matched entry; one too long for it is refused, the RECV completes LOCAL_LENGTH and
the QP enters ERROR (R153). A key that no longer passes at its use ends the RECV with LOCAL_PROTECTION (R127). -/
def State.placeSend (s : State) (q : Nat) (x : Qp) (p : Packet) (r : RecvE) : State :=
  let endOff := p.pktOffset.toNat + p.payloadLen.toNat
  if r.fault.isSome then s.faultyRecv q p r
  else if r.length < endOff then
    (((s.refuse q p 0x11).settleResp 17 q).coalesce q).failRecv q p r 0x01
  else if !s.sideOk x.func true r.sqe r.segs p.pktOffset.toNat p.payloadLen.toNat then s.failRecv q p r 0x02
  else
    let s := s.ackOnArrival q x p
    let s := s.countArrived q p
    let s := s.rereadFrags r.sqe r.segs p.pktOffset.toNat p.payloadLen.toNat
    let (s, ws) := s.placeSegs r.segs p.pktOffset.toNat (slice p.payload 0 p.payloadLen.toNat)
    let m := { (x.resp.msgOf p).add p ws with recv := some r }
    let m := if x.type == .roceRc && p.flags.getLsbD 1 then { m with imm := p.aux, immValid := true } else m
    let s := s.setMsg q m
    let s := s.updQp q fun x => { x with resp := { x.resp with lastHp := (ws.getLast?).map Prod.fst } }
    s.placedPsn q x p

/-- A SEND packet: matched to its receive entry, or answered NO_RECV (R153). It takes no entry while the entry's fragments are
being read or its half-port is down: the packet stays ABSENT and is sent again (R105, notes/assumptions/73). -/
def State.acceptSend (s : State) (q : Nat) (x : Qp) (p : Packet) : State :=
  let off := p.pktOffset.toNat
  let len := p.payloadLen.toNat
  match (x.resp.msg p.msgId).bind Msg.recv with
  | some r => if s.recvDown r off len then s else s.placeSend q x p r
  | none =>
    match s.recvEntry x p.aux (x.type == .roceRc) with
    | some r => if !r.ready || s.recvDown r off len then s else (s.takeEntryFor q x r).placeSend q x p r
    | none => (s.bump Row.rnrNakCount).sendNak q p 0x10 0

/-- A READ_REQ or atomic request: held until every lower PSN is placed. An atomic takes a response-cache block for
its QP, or is refused NO_ATOMIC_CACHE (R180). -/
def State.acceptHeld (s : State) (q : Nat) (x : Qp) (a : Arrival) : State :=
  let p := a.pkt
  let share := s.shareOf x.func
  let used := (tget s.wq.cacheUsed share).getD 0
  let atomic := isAtomicOp p.opcode
  if atomic && !x.resp.cacheBlock && s.perShare 2097152 ≤ used then
    ((((s.bump Row.noAtomicCacheCount).refuse q p 0x21).settleResp 17 q)).coalesce q
  else
    let s := s.ackOnArrival q x p
    let s := if atomic && !x.resp.cacheBlock then
        { s with wq := { s.wq with cacheUsed := tput s.wq.cacheUsed share (used + 1) } } else s
    let place := match tget s.wq.regions (p.key.toNat / 256) with
      | some r => (r.path, ((r.bus p.remoteAddr.toNat 8).headD (0, 0)).1)
      | none => (0, 0)
    let s := s.updQp q fun x => { x with resp := { x.resp.setPsn p .held with
      cacheBlock := x.resp.cacheBlock || atomic
      heldReqs := x.resp.heldReqs ++ [⟨a, false, p.key.toNat / 256, place.1, place.2⟩] } }
    (s.settleResp 17 q).coalesce q

/-- An AtomicOp completed (R180): its value enters the cache, then the ATOMIC_RESP is formed. A failed one is
answered RESP_PATH. -/
def State.atomicDone (s : State) (q : Nat) (psn : Psn) (original : Option (BitVec 64)) : State :=
  match s.qp q with
  | none => s
  | some x =>
    match x.resp.heldReqs.find? fun h => h.arrival.pkt.psn == psn && h.issued && isAtomicOp h.arrival.pkt.opcode with
    | none => s
    | some h =>
      let p := h.arrival.pkt
      let s := s.updQp q fun x => { x with resp := { x.resp with
        heldReqs := x.resp.heldReqs.filter fun g => g.arrival.pkt.psn != psn } }
      match original with
      | none => ((s.refuse q p 0x13).settleResp 17 q).coalesce q
      | some v =>
        let s := s.updQp q fun x => { x with resp := { x.resp with
          cache := (x.resp.cache ++ [(psn, v)]).drop (x.resp.cache.length + 1 - 16) } }
        let resp := { s.basePacket q x 0x21 with
          psn := psn, msgId := p.msgId, flags := flagBits true true false false x.attr.cipherOn false
          payloadLen := 8, payload := beBytes 8 v.toNat }
        let s := s.postHeld q x 5 resp (BitVec.ofNat 256 v.toNat)
        ((s.markDone q p).settleResp 17 q).coalesce q

/-- A new request of an RC QP, by opcode. -/
def State.acceptNew (s : State) (q : Nat) (x : Qp) (a : Arrival) : State :=
  let p := a.pkt
  match s.check q x p with
  | some syn => s.refuseNew q x p syn
  | none =>
    if p.opcode = 0x01 then s.acceptSend q x p
    else if p.opcode = 0x03 || p.opcode = 0x04 then s.acceptWrite q x p
    else s.acceptHeld q x a

/-! ## Duplicates (Table 07-6) -/

/-- R166 trigger 3: at most one re-ACK per QP per ACK_DELAY. -/
def State.reAck (s : State) (q : Nat) (x : Qp) : State :=
  let soon := match x.resp.lastReAck with
    | some t => decide (s.timer < t + s.obj Row.ackDelay * 250)
    | none => false
  if soon then s
  else (s.formAck q).updQp q fun x => { x with resp := { x.resp with lastReAck := some s.timer } }

/-- R414: on a protected QP a READ is executed again only within READ_LIVE of its last execution. -/
def State.reexecRefused (s : State) (x : Qp) (p : Packet) : Bool :=
  x.attr.cipherOn && !x.cipher.reads.any fun r => r.1 == p.psn && decide (s.timer ≤ r.2 + s.obj Row.readLive * 1000000)

/-- The original syndrome of a packet of a failed message: its own where it was refused, else that of the packet refused
first (R179). -/
def Msg.syndrome (m : Msg) (psn : Psn) : Option Nat :=
  match m.failed.find? fun f => f.1 == psn with
  | some f => some f.2
  | none => m.failed.head?.map Prod.snd

/-- A READ refused at its re-execution: the NAK, the violation where it is one, and the failed message (R157, R177). -/
def State.refuseAgain (s : State) (q : Nat) (x : Qp) (p : Packet) (syn : Nat) : State :=
  s.tellViolation q x p syn fun s => (s.sendNak q p syn 0).failMsg q p (x.resp.msgOf p) syn

/-- Table 07-6. Trigger 1 of R166 applies to a duplicate that is not dropped or re-ACKed. -/
def State.duplicate (s : State) (q : Nat) (x : Qp) (a : Arrival) (acked : Bool) : State :=
  let p := a.pkt
  let s := if p.ackReq && (!acked || isReadOrAtomic p.opcode) then s.formAck q else s
  match (x.resp.msg p.msgId).bind fun m => m.syndrome p.psn with
  | some syn => s.sendNak q p syn 0
  | none =>
    let held := match tget x.resp.window p.psn.toNat with
      | some ⟨.held, _, _⟩ => true
      | _ => false
    if p.opcode = 0x05 then
      if held then s
      else match s.check q x p with
        | some syn => s.refuseAgain q x p syn
        | none =>
          match a.data with
          | none => s.refuseAgain q x p 0x13
          | some bytes =>
            if s.reexecRefused x p then s.bump Row.reexecRefused else (s.bump Row.readReexec).answerRead q x a bytes
    else if isAtomicOp p.opcode then
      if held then s
      else match x.resp.cache.find? fun c => c.1 == p.psn with
        | none => s.bump Row.atomicCacheMiss
        | some (_, v) =>
          (s.bump Row.atomicCacheHit).post q { s.basePacket q x 0x21 with
            psn := p.psn, msgId := p.msgId, flags := flagBits true true false false x.attr.cipherOn false
            payloadLen := 8, payload := beBytes 8 v.toNat }
    else if acked then (s.bump Row.dupReack).reAck q x
    else s.bump Row.dupDrop

/-- R164, R179: a request of an RC QP. -/
def State.rcRequest (s : State) (q : Nat) (x : Qp) (a : Arrival) : State :=
  match x.resp.classify a.pkt.psn with
  | .outside => s.bump Row.outOfWindowDrop
  | .acked => s.duplicate q x a true
  | .unacked => s.duplicate q x a false
  | .new => s.acceptNew q x a

/-! ## RoCE v2 (R158, Table 06-18) -/

/-- PSN order only: a PSN after E is answered with a sequence-error NAK (0x60 in the model's AUX), one before E is a
duplicate. A WRITE_IMM takes a receive entry. -/
def State.roceRequest (s : State) (q : Nat) (x : Qp) (a : Arrival) : State :=
  let p := a.pkt
  if p.psn = x.resp.e && (tget x.resp.window p.psn.toNat).isNone then
    if p.opcode = 0x04 && ((x.resp.msg p.msgId).bind Msg.recv).isNone then
      match s.check q x p with
      | some syn => s.refuseNew q x p syn
      | none =>
        match s.recvEntry x 0 true with
        | none => (s.bump Row.rnrNakCount).sendNak q p 0x10 0
        | some r =>
          if !r.ready then s
          else if r.fault.isSome then (s.takeEntryFor q x r).faultyRecv q p r else
          let s := (s.takeEntryFor q x r).setMsg q { x.resp.msgOf p with recv := some r }
          match s.qp q with
          | some y => s.acceptWrite q y p
          | none => s
    else s.acceptNew q x a
  else if psnPrecedes x.resp.e p.psn then s.sendNak q { p with psn := x.resp.e } 0x60 0
  else s.duplicate q x a true

/-! ## UD receives (R144) -/

/-- A UD SEND: Q_KEY must match, the next receive entry takes the 16 B prefix and the payload. -/
def State.udReceive (s : State) (q : Nat) (x : Qp) (p : Packet) : State :=
  if p.opcode != 0x01 || p.key != x.attr.qKey then s
  else match s.recvEntry x 0 true with
    | none => s
    | some r =>
      let bytes := leBytes 4 p.srcModule.toNat ++ leBytes 4 p.srcQpn.toNat ++ List.replicate 8 0 ++
        slice p.payload 0 p.payloadLen.toNat
      let drop (s : State) : State := if x.srqn.isSome then s else
        (s.updQp q fun x => { x with resp := { x.resp with
          recvs := x.resp.recvs.filter (fun v => v.index != r.index), recvBase := x.resp.recvBase + 1 } }).popAborted
            (x.resp.recvs.length + 1) q
      if !r.ready || s.recvDown r 0 bytes.length then s
      else
      let s := s.takeEntryFor q x r
      if r.fault.isSome then s.faultyRecv q p r
      else if r.length < bytes.length then
        (drop (s.formRecvCqe q r 0x01 0 p.solicited [])).qpError q 0x01
      else if !s.sideOk x.func true r.sqe r.segs 0 bytes.length then
        (drop (s.formRecvCqe q r 0x02 0 p.solicited [])).qpError q 0x02
      else
        let s := s.rereadFrags r.sqe r.segs 0 bytes.length
        let (s, ws) := s.placeSegs r.segs 0 bytes
        drop (s.formRecvCqe q r 0 bytes.length p.solicited ws)

end Sys2Proof.Machine
end

