-- ==== Sys2Proof/Machine/Fabric.lean ====
section
/-! DEFINITION. Network ports, the native link layer and the router (chapter 10). -/

namespace Sys2Proof.Machine

/-! ## Links and ports -/

def State.link (s : State) (l : Nat) : LinkSt := s.fabric.links.getD l LinkSt.idle

def State.setLink (s : State) (l : Nat) (x : LinkSt) : State :=
  { s with fabric := { s.fabric with links := s.fabric.links.set l x } }

def State.updLink (s : State) (l : Nat) (f : LinkSt → LinkSt) : State := s.setLink l (f (s.link l))

def LinkSt.up (x : LinkSt) : Bool := x.st == 2

/-- PORT_MODE of network port `p`; G0 and G1 always run native mode (R221). -/
def State.portMode (s : State) (l : Nat) : Nat := if l < 4 then s.obj Row.portMode l else 1

def State.native (s : State) (l : Nat) : Bool := s.portMode l == 1

def State.ethernet (s : State) (l : Nat) : Bool := decide (2 ≤ s.portMode l)

/-- ETH_800G: N0/N1 and N2/N3 are one interface, which the lower port stands for (R221, Table 10-1). -/
def State.paired800 (s : State) (l : Nat) : Bool := l < 4 && s.portMode l == 4

def State.iface (s : State) (l : Nat) : Nat := if s.paired800 l then l / 2 * 2 else l

/-- The ports whose lanes an interface runs over. -/
def State.portsOf (s : State) (l : Nat) : List Nat := if s.paired800 l then [l / 2 * 2, l / 2 * 2 + 1] else [l]

def State.torusX (s : State) : Nat := s.obj Row.torusX
def State.torusY (s : State) : Nat := s.obj Row.torusY

/-- R221: N0 and N1 are torus ports when TORUS_X > 1, N2 and N3 when TORUS_Y > 1. -/
def State.torusPort (s : State) (p : Nat) : Bool :=
  if p < 2 then decide (1 < s.torusX) else p < 4 && decide (1 < s.torusY)

/-- The PORT_STATUS word (Table 10-9). A mode is in force while subsystem 5 runs (notes/assumptions/83). -/
def State.portStatus (s : State) (p : Nat) : Nat :=
  let x := s.link p
  let n := ((List.range 4).filter x.lanes.testBit).length
  x.st + (if x.st = 2 && n < 4 then 8 else 0) + (if s.torusPort p then 16 else 0) +
    (if x.paused = 0 then 0 else 32) + (if s.enabled 5 then s.portMode p * 2 ^ 16 else 0) + x.lanes % 16 * 2 ^ 20

/-- The ROUTE_STATUS word (Table 10-11). -/
def State.bankLoaded (s : State) : Bool :=
  let b := s.blob (if s.obj Row.udBank = 0 then Row.udTable0 else Row.udTable1)
  !b.isEmpty && b.length == s.torusX * s.torusY

/-- PAIR_BASE gives pair addresses (R231); 0 gives none. -/
def State.pairsValid (s : State) : Bool :=
  let b := s.obj Row.pairBase
  b != 0 && decide (s.torusX * s.torusY ≤ b) && decide (b + s.torusY * (s.torusX / 2) ≤ 1048576)

def State.routeStatus (s : State) : Nat :=
  (if s.fabric.split then 1 else 0) + (if s.fabric.broken then 2 else 0) +
    (if s.obj Row.pairBase != 0 && !s.pairsValid then 4 else 0) + (if s.bankLoaded then 0 else 8)

/-! ## Frame sizes -/

/-- Bytes of a packet's native frame from link header to tag (R207, Table 10-3). -/
def Packet.bytes (p : Packet) : Nat := 48 + roundUp p.payloadLen.toNat 8 + (if p.flags.getLsbD 3 then 16 else 0)

/-- Credit units of the whole frame, trailer included (R225). -/
def frameUnits (p : Packet) : Nat := ceilDiv (Packet.bytes p + 8) 64

/-- Bytes of a RoCE v2 packet after the UDP header, up to its payload's last byte: the base transport header, its extension
headers, and the payload (Table 06-18; the header lengths are the RoCE v2 standard's, notes/assumptions/80). -/
def roceBytes (p : Packet) : Nat :=
  let n := p.payloadLen.toNat
  12 + (match p.opcode.toNat with
    | 0x01 => n
    | 0x03 => (if p.first then 16 else 0) + n
    | 0x04 => (if p.first then 16 else 0) + (if p.last then 4 else 0) + n
    | 0x05 => 16
    | 0x06 | 0x07 => 28
    | 0x20 => (if p.first || p.last then 4 else 0) + n
    | 0x21 => 12
    | 0x81 => 16
    | _ => 4)

/-- Bytes of a packet's Ethernet frame from the Ethernet header to the tag (R207, R238). -/
def State.ethBytes (s : State) (port : Nat) (roce : Bool) (p : Packet) : Nat :=
  14 + (if s.obj Row.ethVlan port = 0 then 0 else 4) + (if s.obj Row.ethIpVersion = 4 then 20 else 40) + 8 +
    (if roce then roceBytes p else 40 + p.payloadLen.toNat + (if p.flags.getLsbD 3 then 16 else 0))

/-- A packet's length on a port (R207). -/
def State.packetBytes (s : State) (port : Nat) (roce : Bool) (p : Packet) : Nat :=
  if s.ethernet port then s.ethBytes port roce p else Packet.bytes p

/-- A queued packet of a ROCE_RC QP of this module. -/
def State.roceOut (s : State) (k : QPkt) : Bool := !k.transit && (s.qp k.qpn).any fun x => x.type == .roceRc

def State.queuedBytes (s : State) (port : Nat) (k : QPkt) : Nat := s.packetBytes port (s.roceOut k) k.pkt

/-! ## Addresses (R230, R231) -/

/-- The pair an address names, and its members A and B. -/
def State.pairOf (s : State) (a : Nat) : Option (Nat × Nat × Nat) :=
  let b := s.obj Row.pairBase
  let w := s.torusX / 2
  if s.pairsValid && decide (b ≤ a) && decide (a < b + s.torusY * w) then
    let j := a - b
    let y := j / max 1 w
    let k := j % max 1 w
    some (j, y * s.torusX + 2 * k, y * s.torusX + 2 * k + 1)
  else none

def State.liveBit (s : State) (j m : Nat) : Bool := !s.fabric.pairDead.contains (2 * j + m)

/-- The pair this module is a member of, with its position (1 A, 2 B). -/
def State.ownPair (s : State) : Option (Nat × Nat) :=
  let a := s.ownAddress.toNat
  let x := a % max 1 s.torusX
  let y := a / max 1 s.torusX
  let w := s.torusX / 2
  if s.pairsValid && decide (x / 2 < w) && decide (a < s.torusX * s.torusY) then
    some (y * w + x / 2, x % 2 + 1)
  else none

/-- The address of this module's pair, PAIR_BASE as it is. -/
def State.ownPairWord (s : State) : Nat :=
  let a := s.ownAddress.toNat
  s.obj Row.pairBase + a / max 1 s.torusX * (s.torusX / 2) + a % max 1 s.torusX / 2

/-- The address of pair `j`. -/
def State.pairAddress (s : State) (j : Nat) : Nat := s.obj Row.pairBase + j

/-- R231: a pair address resolves to one live member; none when both LIVE bits are clear. -/
def State.resolve (s : State) (dst : Nat) (qpn : Nat) : Option Nat :=
  match s.pairOf dst with
  | none => some dst
  | some (j, a, b) =>
    let first := qpn % 2
    if s.liveBit j first then some (if first = 0 then a else b)
    else if s.liveBit j (1 - first) then some (if first = 0 then b else a)
    else none

/-! ## Credit -/

/-- Link credit in units on VC `v` of link `l` (R225); always held in Ethernet mode but for a paused priority (R240). -/
def State.linkCredit (s : State) (l v : Nat) : Nat :=
  let x := s.link l
  if l < 4 && s.ethernet l then (if x.paused.testBit v then 0 else 1048576)
  else 1024 - (x.sent.getD v 0 + 65536 - x.granted.getD v 0) % 65536

def State.egressVc (s : State) (p v : Nat) : EgressVc :=
  (tget s.traffic.egress (p * 8 + v)).getD ⟨[], 0, 0, 0, []⟩

def State.setEgress (s : State) (p v : Nat) (e : EgressVc) : State :=
  { s with traffic := { s.traffic with egress := tput s.traffic.egress (p * 8 + v) e } }

/-- Available credit: link credit less the frames already queued on that port and VC (R233). -/
def State.available (s : State) (p v : Nat) : Nat :=
  s.linkCredit p v - ((s.egressVc p v).queue.map fun k => frameUnits k.pkt).sum

/-! ## Classes and VCs -/

/-- The VCs a packet of a QP may be injected on (Table 06-15, R145): requests by VC_CLASS, replies VC3-VC4, collectives VC5. -/
def vcsOfOpcode (o : Byte) (bulk : Bool) : List Nat :=
  if o = 0x10 || o = 0x11 then [5]
  else if 0x20 ≤ o.toNat then [3, 4]
  else if bulk then [6] else [1, 2]

/-- The adaptive VCs of a CLASS (R233). -/
def vcsOfClass (c : Nat) : List Nat :=
  if c = 1 || c = 2 then [1, 2] else if c = 3 || c = 4 then [3, 4] else [c]

/-- A packet of the management QP (R60). -/
def isQp0 (p : Packet) : Bool := p.opcode == 0x01 && (p.dstQpn == 0 || p.srcQpn == 0)

def QPkt.vcs (s : State) (k : QPkt) : List Nat :=
  if k.cls = 0 && isQp0 k.pkt then [7]
  else if k.cls = 0 then vcsOfOpcode k.pkt.opcode (match s.qp k.qpn with
    | some x => x.attr.bulk
    | none => false)
  else vcsOfClass k.cls

/-! ## The route decision (R233-R240) -/

/-- What the router decides of a packet. -/
inductive Route where
  | deliver
  /-- Port, VC, MODE and DOWN. -/
  | port (p v : Nat) (mode down : Bool)
  /-- Held back by link credit only. -/
  | wait
  | noRoute
  deriving DecidableEq, Repr

/-- A port carries traffic: every port of its interface is up. -/
def State.portUp (s : State) (p : Nat) : Bool := (s.portsOf p).all fun l => (s.link l).up

/-- A port of that number takes and gives packets: the lower one of an ETH_800G pair. -/
def State.ifaceUp (s : State) (p : Nat) : Bool := s.iface p == p && s.portUp p

/-- Directions that shorten the way in one ring of size `n` from `a` to `b`: minus and plus. -/
def ringWays (n a b : Nat) : Bool × Bool :=
  if n = 0 || a = b then (false, false)
  else
    let d := (b + n - a) % n
    (decide (n ≤ 2 * d), decide (2 * d ≤ n))

/-- Productive ports toward a torus address, live or not. -/
def State.productive (s : State) (d : Nat) : List Nat :=
  let a := s.ownAddress.toNat
  let nx := max 1 s.torusX
  let wx := ringWays nx (a % nx) (d % nx)
  let wy := ringWays s.torusY (a / nx) (d / nx)
  (if wx.1 then [0] else []) ++ (if wx.2 then [1] else []) ++ (if wy.1 then [2] else []) ++ (if wy.2 then [3] else [])

/-- The dimension-order port: X first, the + direction at half-ring distance. -/
def State.orderPort (s : State) (d : Nat) : Nat :=
  let ps := s.productive d
  if ps.contains 1 then 1 else if ps.contains 0 then 0 else if ps.contains 3 then 3 else 2

/-- The candidate with most available credit; ties by lower port, then lower VC. -/
def State.bestOf (s : State) (ps vs : List Nat) : Option (Nat × Nat) :=
  (ps.flatMap fun p => vs.map fun v => (p, v)).foldl (fun best c =>
    match best with
    | none => some c
    | some b => if s.available b.1 b.2 < s.available c.1 c.2 then some c else best) none

/-- Whether a packet on VC `v` bound for port `p` continues in the same dimension and direction. -/
def continues (came : Option (Nat × Nat)) (p v : Nat) : Bool :=
  match came with
  | some (l, w) => w == v && (l + p == 1 || l + p == 5) && l != p && l / 2 == p / 2
  | none => false

/-- The bubble rule on VC0 and VC7 (R233). -/
def State.bubble (s : State) (k : QPkt) (p v : Nat) : Bool :=
  decide ((if continues k.came p v then frameUnits k.pkt else 132) ≤ s.available p v)

/-- Split rules (R235). -/
def State.splitRoute (s : State) (k : QPkt) (d : Nat) (down : Bool) : Route :=
  let table := s.blob (if s.obj Row.udBank = 0 then Row.udTable0 else Row.udTable1)
  let set := (table.getD d 0).toNat % 16
  let up := s.obj Row.upLinks
  let ps := (List.range 4).filter fun p => set.testBit p && s.portUp p && !(down && up.testBit p)
  match s.bestOf ps (k.vcs s) with
  | none => .noRoute
  | some (p, v) =>
    if frameUnits k.pkt ≤ s.available p v then .port p v true (down || !up.testBit p) else .wait

/-- Torus rules (R233). -/
def State.torusRoute (s : State) (k : QPkt) (d : Nat) : Route :=
  let live := (s.productive d).filter s.portUp
  let op := s.orderPort d
  if k.vcs s = [7] then
    if !s.portUp op then .noRoute else if s.bubble k op 7 then .port op 7 false false else .wait
  else
    match (s.bestOf live (k.vcs s)).filter fun c => decide (frameUnits k.pkt ≤ s.available c.1 c.2) with
    | some (p, v) => .port p v false false
    | none =>
      if s.portUp op && s.bubble k op 0 then .port op 0 false false
      else if live.isEmpty && !s.portUp op then .noRoute else .wait

/-- R240: the Ethernet-mode port of a flow, among the live ones. -/
def State.ethRoute (s : State) (k : QPkt) : Route :=
  let ps := (List.range 4).filter fun p => s.ethernet p && s.ifaceUp p
  let all := (List.range 4).any s.ethernet
  if ps.isEmpty then (if all then .wait else .noRoute)
  else
    let h := Config.portHash k.pkt.dstModule.toNat k.pkt.dstQpn.toNat ps.length 0
    let p := ps.getD (h % ps.length) 0
    .port p ((k.vcs s).headD 1) false false

/-- R158: a ROCE_RC QP's port is the one ROCE_PEERS gives its peer. -/
def State.rocePeer (s : State) (x : Qp) : List Byte :=
  slice (s.blob Row.rocePeers) (32 * x.attr.remoteModule.toNat) 32

def State.roceRoute (s : State) (k : QPkt) (x : Qp) : Route :=
  let p := s.iface (((s.rocePeer x).getD 22 0).toNat % 4)
  if s.portUp p then .port p ((k.vcs s).headD 1) false false else .wait

def State.route (s : State) (k : QPkt) : Route :=
  let roce := if k.transit then none else (s.qp k.qpn).filter fun x => x.type == .roceRc
  match roce with
  | some x => s.roceRoute k x
  | none =>
    let dst := k.pkt.dstModule.toNat
    match s.resolve dst k.pkt.dstQpn.toNat with
    | none => .noRoute
    | some d =>
      if d = s.ownAddress.toNat then .deliver
      else if d < s.torusX * s.torusY then
        let onVc0 := match k.came with
          | some (_, 0) => true
          | _ => false
        if k.mode && s.bankLoaded then s.splitRoute k d k.down
        else if s.fabric.split && s.bankLoaded && !(onVc0 && s.portUp (s.orderPort d)) then s.splitRoute k d false
        else if s.fabric.split && s.bankLoaded then
          (if s.bubble k (s.orderPort d) 0 then .port (s.orderPort d) 0 false false else .wait)
        else s.torusRoute k d
      -- with PAIR_INVALID set, the module's own address in the pairs reaches no member (R234)
      else if s.obj Row.pairBase != 0 && !s.pairsValid && dst == s.ownPairWord then .noRoute
      else s.ethRoute k

/-! ## Queueing -/

/-- Count a drop of R234 on VC `v` of port `p`: NO_ROUTE or STUCK. -/
def State.dropOn (s : State) (p v : Nat) (stuck : Bool) : State :=
  s.bumpField Row.vcDrop (if stuck then 4 else 0) 4 1 p v

/-- Queue a packet on a port and VC. -/
def State.enqueue (s : State) (k : QPkt) (p v : Nat) (mode down : Bool) : State :=
  let e := s.egressVc p v
  let cls := if k.cls ≠ 0 then k.cls else if v = 0 then (k.vcs s).headD 1 else v
  s.setEgress p v { e with queue := e.queue ++ [{ k with cls := cls, mode := mode, down := down, since := s.timer }] }

/-- A packet of this module's as it leaves: enciphered once, when it is to be (R411). -/
def State.wire (s : State) (k : QPkt) : QPkt := if k.transit || k.wired then k else { k with pkt := s.sealed k.qpn k.pkt, wired := true }

/-- Decide the packets waiting in the outbox, in order. One addressed to this module is delivered to it (notes/assumptions/17). -/
def State.routeOut : List QPkt → State → State
  | [], s => s
  | k :: ks, s =>
    match s.route k with
    | .port p v m d => State.routeOut ks (s.enqueue (s.wire k) p v m d)
    | .deliver =>
      let s := s.emit (.loopback (s.wire k).pkt)
      State.routeOut ks (if !k.transit && k.pkt.opcode == 0x20 then s.respPresented k.qpn k.pkt else s)
    | .noRoute => State.routeOut ks (s.dropOn 0 ((k.vcs s).headD 0) false)
    | .wait => State.routeOut ks { s with wq := { s.wq with outbox := s.wq.outbox ++ [k] } }

/-- Decide every packet of the outbox afresh. -/
def State.routeOutbox (s : State) : State := State.routeOut s.wq.outbox { s with wq := { s.wq with outbox := [] } }

/-- Units freed in the ingress buffer of VC `v` of link `l` (R224). -/
def State.freeUnits (s : State) (l v n : Nat) : State :=
  s.updLink l fun x => { x with freed := x.freed.set v ((x.freed.getD v 0 + n) % 65536) }

def State.setIngress (s : State) (l v : Nat) (q : List QPkt) : State :=
  s.updLink l fun x => { x with ingress := tput x.ingress v q }

/-- Move transit packets from the head of one ingress VC buffer into egress queues, until one must wait. -/
def State.drainIngress : List QPkt → Nat → Nat → State → State
  | [], l, v, s => s.setIngress l v []
  | k :: ks, l, v, s =>
    match s.route k with
    | .port p w m d => State.drainIngress ks l v ((s.enqueue k p w m d).freeUnits l v (frameUnits k.pkt))
    | .noRoute => State.drainIngress ks l v ((s.dropOn l v false).freeUnits l v (frameUnits k.pkt))
    | _ => s.setIngress l v (k :: ks)

def State.drainAll (s : State) : State :=
  eachDo (List.range 4) (fun l s => eachDo (List.range 8) (fun v s =>
    match tget (s.link l).ingress v with
    | some (k :: ks) => s.drainIngress (k :: ks) l v
    | _ => s) s) s

/-! ## Control frames -/

/-- A control frame of link `l`: cumulative credits and LACK go with every one (Table 10-5). -/
def State.control (s : State) (l ctype replayFrom pair live : Nat) : State :=
  let x := s.link l
  let s := s.emit (.frame l (controlBytes ctype x.freed x.expect replayFrom pair live))
  s.updLink l fun x => { x with reported := x.freed }

/-- R224: report credit at once when 32 units or more on a VC are unreported. -/
def State.reportCredit (s : State) : State :=
  eachDo (List.range 6) (fun l s =>
    let x := s.link l
    let due := (List.range 8).any fun v => decide (32 ≤ (x.freed.getD v 0 + 65536 - x.reported.getD v 0) % 65536)
    if x.up && due && s.native l then s.control l 0 0 0 0 else s) s

/-- Live torus ports other than `l`. -/
def State.otherPorts (s : State) (l : Nat) : List Nat :=
  (List.range 4).filter fun p => p != l && s.portUp p && s.torusPort p

/-! ## Replay -/

/-- R226: resend every held frame from `from_` on; LACK is the current one. -/
def State.replay (s : State) (l : Nat) (from_ : Option Nat) : State :=
  let x := s.link l
  let fs := match from_ with
    | none => x.held
    | some n => x.held.dropWhile fun f => f.lseq != n
  let s := if fs.isEmpty then s else if l < 4 then s.bump Row.replayCount 1 l else s
  (eachDo fs (fun f s => s.emit (.frame l { f with lack := x.expect : LinkFrame }.bytes)) s).updLink l fun x => { x with lackAt := s.timer }

/-- A LACK passes frames in the replay buffer: those before it are released. -/
def ackHeld (held : List LinkFrame) (lack : Nat) : List LinkFrame :=
  match held with
  | [] => []
  | f :: fs => if (lack + 4096 - f.lseq) % 4096 ≤ fs.length + 1 then held.drop ((lack + 4096 - f.lseq) % 4096) else held

def State.takeLack (s : State) (l lack : Nat) : State :=
  s.updLink l fun x =>
    let held := ackHeld x.held lack
    { x with held := held, lackAt := if held.length = x.held.length then x.lackAt else s.timer }

/-- R226: ask for a replay, once per expected LSEQ and 2 µs. -/
def State.askReplay (s : State) (l : Nat) : State :=
  let x := s.link l
  let soon := match x.reqAt with
    | some t => decide (s.timer < t + 2000)
    | none => false
  if soon then s else (s.control l 1 x.expect 0 0).updLink l fun x => { x with reqAt := some s.timer }

/-! ## Frames received -/

def State.countCrc (s : State) (l : Nat) : State := if l < 4 then s.bump Row.crcFail 1 l else s

/-- The packet of an accepted frame, as transit. -/
def frameTransit (f : Frame) (l : Nat) (now : Nat) : QPkt :=
  ⟨f.pkt, true, 0, 0, now, f.cls, f.mode, f.down, false, some (l, f.vc), true⟩

/-- R227: cut-through had begun when the route is decided and nothing waits before the packet; the outgoing copy then
ends stomped. Forwarding waits for the whole frame when the ingress port runs fewer lanes. -/
def State.stompCopy (s : State) (l : Nat) (k : QPkt) : State :=
  match s.route k with
  | .port p v m d =>
    let lanes (n : Nat) : Nat := ((List.range 4).filter (s.link n).lanes.testBit).length
    if (s.egressVc p v).queue.isEmpty && decide (lanes p ≤ lanes l) then s.enqueue { k with stomp := true } p v m d else s
  | _ => s

/-- R226, R227: what the link layer does with a packet frame, and the packet it hands to this module, if any. A control frame comes as
the command of its CTYPE (notes/assumptions/84). -/
def State.acceptFrame (s : State) (l : Nat) (f : Frame) (fecBad : Bool) : State × Option Packet :=
  let x := s.link l
  if !x.up || !s.native l || f.kind = 1 then (s, none)
  else if f.kind ≠ 0 then (s.countCrc l, none)
  else if !f.hcrcOk || fecBad || f.trailer == Trailer.bad then
    let s := s.countCrc l
    let s := if fecBad && l < 4 then s.bump Row.fecUncorrected 1 l else s
    let s := if f.hcrcOk && !fecBad && l < 4 && f.lseq == x.expect then s.stompCopy l (frameTransit f l s.timer) else s
    (s.askReplay l, none)
  else
    let s := s.takeLack l f.lack
    if f.lseq ≠ x.expect then (s.askReplay l, none)
    else
      let units := frameUnits f.pkt
      let s := s.updLink l fun x => { x with expect := (x.expect + 1) % 4096, reqAt := none }
      if f.trailer == Trailer.stomped then
        ((if l < 4 then s.bump Row.stompDrop 1 l else s).freeUnits l f.vc units, none)
      else if 4 ≤ l then (s.freeUnits l f.vc units, some f.pkt)
      else
        let s := s.bumpField Row.vcRx 0 8 1 l f.vc
        let s := s.bumpField Row.vcRx 8 8 (Packet.bytes f.pkt) l f.vc
        let k := frameTransit f l s.timer
        if s.route k == .deliver then (s.freeUnits l f.vc units, some f.pkt)
        else
          let waiting := (tget (s.link l).ingress f.vc).getD []
          (s.setIngress l f.vc (waiting ++ [k]), none)

/-! ## Lanes (R228) -/

/-- The widest set among {0-3}, {0-1}, {2-3} and single lanes that locks. -/
def widest (lock : Nat) : Nat :=
  match ([15, 3, 12, 1, 2, 4, 8] : List Nat).find? fun m => lock &&& m == m with
  | some m => m
  | none => 0

def laneObj (l k : Nat) : Nat := l * 4 + k

/-- Note the lanes in use in LANE_STATUS. -/
def State.noteLanes (s : State) (l lock use : Nat) : State :=
  eachDo (List.range 4) (fun k s =>
    let i := laneObj l k
    let s := s.setObjBit Row.laneStatus 0 (lock.testBit k) i
    s.setObjBit Row.laneStatus 1 (use.testBit k) i) s

/-- A lane is lost or retired: it is out of lock or use until a retrain restores it. -/
def State.loseLane (s : State) (lane : Nat) (retired : Bool) : State :=
  let s := s.bump Row.laneRetireCount 1 lane
  if retired then s.setObjBit Row.laneStatus 2 true lane else s

/-- Event records the manual names without a code: the code is a free value (notes/assumptions/9). -/
def State.raisePfUncoded (s : State) (object : Nat) : State :=
  (s.raisePf (s.nextFree % 65536) object).useFree

/-- Empty a link's sender and receiver state. -/
def LinkSt.stop (_x : LinkSt) (st : Nat) : LinkSt := { LinkSt.idle with st := st }

/-- Change to split rules, or set ESCAPE_BROKEN without a loaded bank (R236). -/
def State.toSplit (s : State) (from_ : Nat) : State :=
  if s.obj Row.routingMode ≠ 2 || s.fabric.split then s
  else if s.bankLoaded then
    let s := { s with fabric := { s.fabric with split := true } }
    eachDo (s.otherPorts from_) (fun p s => s.control p 3 0 0 0) s
  else { s with fabric := { s.fabric with broken := true } }

/-- R229, R183: one port goes down. Frames in its replay buffer are lost; every packet queued for it is decided again. -/
def State.onePortDown (s : State) (l : Nat) : State :=
  if (s.link l).st ≠ 2 then s
  else
    let waiting := (s.link l).ingress.flatMap Prod.snd
    let s := s.updLink l fun x => x.stop 3
    let s := s.noteLanes l 0 0
    if 4 ≤ l then s
    else
      let s := s.bump Row.portDownCount 1 l
      let s := (s.telemetry Row.portDownCount l 0).raisePfUncoded l
      let queued := (List.range 8).flatMap fun v => (s.egressVc l v).queue
      let s := eachDo (List.range 8) (fun v s => s.setEgress l v { s.egressVc l v with queue := [], deficit := 0 }) s
      let again := (queued.filter fun k => !k.stomp).map fun k =>
        { k with cls := if k.transit then k.cls else 0, came := none }
      let s := { s with wq := { s.wq with outbox := s.wq.outbox ++ waiting ++ again } }
      if s.torusPort l then s.toSplit l else s

/-- A port is declared down, and with it the other one of an ETH_800G pair (notes/assumptions/83). -/
def State.portDown (s : State) (l : Nat) : State := eachDo (s.portsOf l) (fun p s => s.onePortDown p) s

/-- A retrain ends with the lanes that lock (R228): frames held are replayed; with none the port is down. -/
def State.retrain (s : State) (l lock : Nat) : State :=
  if (s.link l).st ≠ 2 then s
  else
    let use := widest lock
    let s := if l < 4 then s.bump Row.widthChanges 1 l else s
    if use = 0 then s.portDown l
    else
      let s := s.noteLanes l lock use
      (s.updLink l fun x => { x with lanes := use }).replay l none

def State.laneFault (s : State) (lane lock : Nat) : State :=
  let l := lane / 4
  if (s.link l).st ≠ 2 then s
  else
    let s := s.loseLane lane false
    s.retrain l (setBit (lock % 16) (lane % 4) false)

/-- Lanes of port `l` retired earlier do not come back before a full retrain. -/
def State.notRetired (s : State) (l lock : Nat) : Nat :=
  (List.range 4).foldl (fun m k => if s.objBit Row.laneStatus 2 (laneObj l k) then setBit m k false else m) (lock % 16)

/-- A 10 µs window of lane `lane`: three in a row above LANE_SER_LIMIT retire it. -/
def State.laneSerWindow (s : State) (lane errors lock : Nat) : State :=
  let l := lane / 4
  if (s.link l).st ≠ 2 then s
  else
    let s := s.bump Row.laneSymbolErrors errors lane
    let limit := s.obj Row.laneSerLimit lane
    let run := if limit ≠ 0 && limit < errors then (tget s.fabric.laneRuns lane).getD 0 + 1 else 0
    let s := { s with fabric := { s.fabric with laneRuns := tput s.fabric.laneRuns lane run } }
    if run < 3 || s.objBit Row.laneStatus 2 lane then s
    else
      let s := s.loseLane lane true
      s.retrain l (s.notRetired l lock)

/-- R228: a full retrain of a degraded port restores every lane that passes. -/
def State.laneRetry (s : State) (l lock : Nat) : State :=
  if (s.link l).st ≠ 2 || (s.link l).lanes = 15 then s
  else
    let s := eachDo (List.range 4) (fun k s =>
      if lock.testBit k then
        { s.setObjBit Row.laneStatus 2 false (laneObj l k) with
          fabric := { s.fabric with laneRuns := tput s.fabric.laneRuns (laneObj l k) 0 } }
      else s) s
    s.retrain l lock

/-- A port starts to train: down or idle ports of a running subsystem. -/
def State.startTraining (s : State) (l : Nat) : State :=
  if s.portMode l = 0 || (s.link l).st = 2 then s else s.updLink l fun x => x.stop 1

/-- A port completes training: sequence numbers start at 0 and the partner's buffer is empty. -/
def State.portUpNow (s : State) (l lock : Nat) : State :=
  let use := widest (s.notRetired l lock)
  if (s.link l).st ≠ 1 || use = 0 then s
  else
    let s := s.noteLanes l lock use
    s.setLink l { LinkSt.idle with st := 2, lanes := use }

/-! ## Notices -/

def State.setLive (s : State) (j m : Nat) (live : Bool) : State :=
  let b := 2 * j + m
  { s with fabric := { s.fabric with
      pairDead := if live then s.fabric.pairDead.erase b else insertUnique b s.fabric.pairDead } }

/-- The LIVE field of a PAIR_NOTICE for pair `j`: [1] member B, [0] member A. -/
def State.liveWord (s : State) (j : Nat) : Nat := (if s.liveBit j 0 then 1 else 0) + (if s.liveBit j 1 then 2 else 0)

/-- Send a PAIR_NOTICE for pair `j` on the given ports. -/
def State.sendPairNotice (s : State) (j : Nat) (ports : List Nat) : State :=
  eachDo ports (fun p s => s.control p 4 0 (s.pairAddress j) (s.liveWord j)) s

/-- R232: adopt new LIVE bits and pass the notice on; tells whether anything changed. -/
def State.pairNotice (s : State) (l : Nat) (pair : Nat) (a b : Bool) : State :=
  match s.pairOf pair with
  | none => s
  | some (j, _, _) =>
    if s.liveBit j 0 == a && s.liveBit j 1 == b then s
    else
      let s := (s.setLive j 0 a).setLive j 1 b
      let s := s.bumpField Row.noticeCount 4 4
      s.sendPairNotice j (s.otherPorts l)

def State.splitNotice (s : State) (l : Nat) : State :=
  if s.obj Row.routingMode ≠ 2 || s.fabric.split then s
  else (s.bumpField Row.noticeCount 0 4).toSplit l

/-! ## Leaving a port -/

/-- Whether the native port can accept another frame: its replay buffer has room (R226). -/
def LinkSt.room (x : LinkSt) (p : Packet) : Bool :=
  decide (x.held.length < 2047) &&
    decide ((x.held.map fun f => Packet.bytes f.pkt + 8).sum + Packet.bytes p + 8 ≤ 262144)

/-- The Ethernet encapsulation of R238, or of a RoCE v2 QP (Table 06-18). -/
def State.ethHdr (s : State) (port v : Nat) (k : QPkt) : EthHdr :=
  let roce := (s.qp k.qpn).filter fun x => x.type == .roceRc && !k.transit
  let v4 := s.obj Row.ethIpVersion == 4
  let pre := if v4 then s.obj Row.ethIpv4Prefix
    else beNat (leBytes 16 (s.obj Row.ethIpv6Prefix))
  let src := Config.udpHash k.pkt.srcQpn.toNat 0 0 0 % 65536
  { srcMac := leBytes 6 (Config.ethMac port)
    dstMac := match roce with
      | some x => slice (s.rocePeer x) 16 6
      | none => leBytes 6 (s.obj Row.ethGatewayMac port)
    tag := if s.obj Row.ethVlan port = 0 then none else some (s.obj Row.ethVlan port, v)
    ipVersion := s.obj Row.ethIpVersion
    dscp := 8 * v
    srcIp := pre + k.pkt.srcModule.toNat
    dstIp := match roce with
      | some x => beNat (slice (s.rocePeer x) 0 16)
      | none => pre + k.pkt.dstModule.toNat
    srcPort := src
    dstPort := match roce with
      | some _ => 4791
      | none => s.obj Row.nativeUdpPort }

/-- A frame leaves on a link: it is held until a LACK passes it, and takes its VC's credit (R225, R226). -/
def State.sendFrame (s : State) (l : Nat) (f : LinkFrame) : State :=
  (s.emit (.frame l f.bytes)).updLink l fun x => { x with
    nextLseq := (x.nextLseq + 1) % 4096, held := x.held ++ [f], lackAt := if x.held.isEmpty then s.timer else x.lackAt
    sent := x.sent.set f.vc ((x.sent.getD f.vc 0 + frameUnits f.pkt) % 65536) }

/-- A packet leaves port `p` on VC `v`: a link frame with the next LSEQ, or an Ethernet frame. -/
def State.leave (s : State) (p v : Nat) (k : QPkt) : State :=
  let s := s.bumpField Row.vcTx 0 8 1 p v
  let s := s.bumpField Row.vcTx 8 8 (s.queuedBytes p k) p v
  if s.ethernet p then s.emit (.ethernet p (s.ethHdr p v k) k.pkt)
  else
    let x := s.link p
    let f : LinkFrame := ⟨x.nextLseq, x.expect, v, k.cls, k.mode, k.down, k.stomp, k.pkt⟩
    let s := if k.stomp then s.bump Row.stompSent 1 p else s
    s.sendFrame p f

/-! ## Stall time (R234) -/

/-- Add `ns` to VC_STALL_NS of every VC whose head frame lacked credit. -/
def State.countStall (s : State) (before : State) : State :=
  let ns := s.timer - before.timer
  if ns = 0 then s
  else eachDo (List.range 4) (fun p s => eachDo (List.range 8) (fun v s =>
    match (before.egressVc p v).queue with
    | k :: _ => if before.linkCredit p v < frameUnits k.pkt then s.bump Row.vcStallNs ns p v else s
    | [] => s) s) s

end Sys2Proof.Machine
end

