-- ==== Sys2Proof/Machine/Record.lean ====
section
/-! DEFINITION. Records on their way to the patina log: the CPER form of patina records and of memory records
(R347, R248, Tables 15-5 and 15-6; the CPER layout is the UEFI Specification's, notes/assumptions/36). -/

namespace Sys2Proof.Machine

/-- A GUID's bytes: the first three fields least significant byte first. -/
def guidBytes (a b c : Nat) (rest : Nat) : List Byte := leBytes 4 a ++ leBytes 2 b ++ leBytes 2 c ++ beBytes 8 rest

def lyandezGuid (k : Nat) : List Byte := guidBytes (0x5C1E9A40 + k) 0x73B2 0x4F0D 0x8E612A94D7C3B018

/-- Section type of the standard Memory Error section. -/
def memoryGuid : List Byte := guidBytes 0xA5BC1114 0x6F64 0x4EDE 0xB8633E83ED7C83B1

/-- The 128 B CPER header, with Record ID zero (Table 15-5). -/
def cperHeader (severity length : Nat) : List Byte :=
  [0x43, 0x50, 0x45, 0x52] ++ leBytes 2 0x0101 ++ leBytes 4 0xFFFFFFFF ++ leBytes 2 1 ++ leBytes 4 severity ++
    leBytes 4 0 ++ leBytes 4 length ++ leBytes 8 0 ++ leBytes 16 0 ++ leBytes 16 0 ++ lyandezGuid 0 ++ lyandezGuid 1 ++
    leBytes 8 0 ++ leBytes 4 0 ++ leBytes 8 0 ++ leBytes 12 0

/-- The decimal digits of a number below 100. -/
def digits (n : Nat) : List Byte := [BitVec.ofNat 8 (48 + n / 10 % 10), BitVec.ofNat 8 (48 + n % 10)]

/-- "NK24 RAU nn", in the 20 B of FRU Text. -/
def fruText (unit : Nat) : List Byte :=
  [0x4E, 0x4B, 0x32, 0x34, 0x20, 0x52, 0x41, 0x55, 0x20] ++ digits unit ++ leBytes 9 0

/-- The 72 B section descriptor. -/
def cperDescriptor (length : Nat) (type : List Byte) (severity : Nat) (fru : Option (List Byte)) : List Byte :=
  leBytes 4 200 ++ leBytes 4 length ++ leBytes 2 0x0100 ++ leBytes 1 (if fru.isSome then 2 else 0) ++ leBytes 1 0 ++
    leBytes 4 1 ++ type ++ leBytes 16 0 ++ leBytes 4 severity ++ fru.getD (leBytes 20 0)

/-- The fields of Table 15-6 that differ from record to record. -/
structure Section where
  cause : Nat
  action : Nat
  unit : Nat
  logical : Nat
  replay1 : Nat
  replay2 : Nat
  op : Nat
  format : Nat
  round : Nat
  word : Nat
  lane : Nat
  imm : Nat
  mask : Nat
  a : Nat
  b : Nat
  c : Nat
  result : Nat
  replay : Nat
  replayB : Nat
  residues : List Nat
  pattern : Nat
  seq : Nat
  deriving DecidableEq, Repr

/-- A section with no operands: a stall, a scan, or a retirement. -/
def Section.plain (cause action unit logical : Nat) : Section :=
  ⟨cause, action, unit, logical, 0xFF, 0xFF, 0, 0, 0, 0xFF, 0, 0, 0, 0, 0, 0, 0, 0, 0, [], 0xFFFFFFFF, 0⟩

def Section.bytes (s : State) (x : Section) (tj : Nat) : List Byte :=
  leBytes 2 1 ++ leBytes 1 x.cause ++ leBytes 1 x.action ++ leBytes 1 x.unit ++ leBytes 1 x.logical ++
    leBytes 1 x.replay1 ++ leBytes 1 x.replay2 ++ leBytes 2 x.op ++ leBytes 1 x.format ++ leBytes 1 x.round ++
    leBytes 1 x.word ++ leBytes 1 x.lane ++ leBytes 1 x.imm ++ leBytes 1 0 ++ leBytes 16 x.mask ++
    leBytes 8 x.a ++ leBytes 8 x.b ++ leBytes 8 x.c ++ leBytes 8 x.result ++ leBytes 8 x.replay ++ leBytes 8 x.replayB ++
    (List.range 6).map (fun k => BitVec.ofNat 8 (x.residues.getD k 0)) ++
    leBytes 2 (s.obj Row.paceLive) ++ leBytes 2 (s.obj Row.vcoreSet) ++ leBytes 2 tj ++ leBytes 4 (s.obj Row.fwVersion) ++
    leBytes 8 s.timer ++ leBytes 4 x.pattern ++ leBytes 2 x.seq ++ leBytes 18 0

/-- Error Severity of a patina record: Recoverable for INTEGRITY, else Corrected. -/
def severityOf (cause : Nat) : Nat := if cause = 3 then 0 else 2

/-- Queue a patina record, and the pattern derived with it. The junction temperature nearest the unit is not stated:
a free value. -/
def State.patina (s : State) (x : Section) (p : Option Pattern) : State :=
  let sev := severityOf x.cause
  let body := cperHeader sev 328 ++ cperDescriptor 128 (lyandezGuid 2) sev (some (fruText x.unit)) ++ x.bytes s (s.nextFree % 65536)
  let s := s.useFree
  { s with reliab := { s.reliab with jobs := s.reliab.jobs ++ [⟨x.cause, body, p⟩] } }

/-- Queue the CPER record of an uncorrectable read (R248). Its severity is not stated: a free value. -/
def State.memoryRecord (s : State) (addr : Nat) : State :=
  let sev := s.nextFree % 4
  let section_ := leBytes 8 2 ++ leBytes 8 0 ++ leBytes 8 addr ++ leBytes 56 0
  let body := cperHeader sev 280 ++ cperDescriptor 80 memoryGuid sev none ++ section_
  let s := s.useFree
  { s with reliab := { s.reliab with jobs := s.reliab.jobs ++ [⟨0, body, none⟩] } }

end Sys2Proof.Machine
end

