-- ==== Sys2Proof/Machine/Memory.lean ====
section
/-! DEFINITION. Module memory: bytes, the layout, initialisation, errors, scrub, and casts (chapter 11). -/

namespace Sys2Proof.Machine

/-! ## Bytes -/

/-- Canonical form of the listed bytes: addresses strictly rising, no byte equal to 0. -/
def cellsWfFrom : Nat → List Host.Cell → Bool
  | _, [] => true
  | lo, (a, b) :: cs => decide (lo ≤ a) && b != 0 && cellsWfFrom (a + 1) cs

def Undef.has (u : Undef) (a : Nat) : Bool := decide (u.lo ≤ a) && decide (a < u.hi)

/-- Undefined ranges are not empty, share no address and hold no listed byte. -/
def looseWf (cs : List Host.Cell) : List Undef → Bool
  | [] => true
  | u :: us => decide (u.lo < u.hi) && us.all (fun v => decide (v.hi ≤ u.lo) || decide (u.hi ≤ v.lo)) &&
      cs.all (fun c => !u.has c.1) && looseWf cs us

/-- Canonical form of a memory. -/
def Mem.wf (m : Mem) : Bool := cellsWfFrom 0 m.cells && looseWf m.cells m.loose

/-- Listed byte `a`, and 0 where none is listed (R251). -/
def cellRead : List Host.Cell → Nat → Byte
  | [], _ => 0
  | (k, b) :: cs, a => if k = a then b else cellRead cs a

/-- What an unlisted address reads as: the free byte of its undefined range (R260), and 0 outside every range (R251). -/
def Mem.unlisted (m : Mem) (a : Nat) : Byte :=
  match m.loose.find? fun u => u.has a with
  | some u => Config.outsideByte u.stamp (u.off + (a - u.lo))
  | none => 0

/-- Byte `a` of a memory. -/
def Mem.byte (m : Mem) (a : Nat) : Byte :=
  if m.loose.any fun u => u.has a then m.unlisted a else cellRead m.cells a

/-- Write byte `a`. -/
def cellWrite : List Host.Cell → Nat → Byte → List Host.Cell
  | [], a, b => if b = 0 then [] else [(a, b)]
  | (k, v) :: cs, a, b =>
    if a < k then (if b = 0 then (k, v) :: cs else (a, b) :: (k, v) :: cs)
    else if a = k then (if b = 0 then cs else (a, b) :: cs)
    else (k, v) :: cellWrite cs a b

def cellsWrite (cs : List Host.Cell) : Nat → List Byte → List Host.Cell
  | _, [] => cs
  | a, b :: bs => cellsWrite (cellWrite cs a b) (a + 1) bs

/-- Zero the bytes [lo, hi). -/
def cellsClear (cs : List Host.Cell) (lo hi : Nat) : List Host.Cell :=
  cs.filter fun c => decide (c.1 < lo) || decide (hi ≤ c.1)

/-- Copy `len` bytes from `src` to `dst`, as they stood before. -/
def cellsCopy (cs : List Host.Cell) (src dst len : Nat) : List Host.Cell :=
  (cs.filter fun c => decide (src ≤ c.1) && decide (c.1 < src + len)).foldl
    (fun acc c => cellWrite acc (c.1 - src + dst) c.2) (cellsClear cs dst (dst + len))

/-- The part of an undefined range within [lo, hi). -/
def Undef.part (u : Undef) (lo hi : Nat) : List Undef :=
  if max u.lo lo < min u.hi hi then [⟨max u.lo lo, min u.hi hi, u.off + (max u.lo lo - u.lo), u.stamp⟩] else []

/-- Undefined ranges without the addresses [lo, hi). -/
def looseCut (us : List Undef) (lo hi : Nat) : List Undef :=
  if hi ≤ lo then us else us.flatMap fun u => u.part 0 lo ++ u.part hi (max u.hi hi)

/-- The undefined ranges of [src, src + len), moved to `dst`. -/
def looseMove (us : List Undef) (src dst len : Nat) : List Undef :=
  us.flatMap fun u => (u.part src (src + len)).map fun v => { v with lo := v.lo - src + dst, hi := v.hi - src + dst }

def State.setCells (s : State) (cs : List Host.Cell) (us : List Undef) : State :=
  { s with mem := { s.mem with cells := cs, loose := us } }

def State.memRead (s : State) (a n : Nat) : List Byte := (List.range n).map fun i => s.mem.byte (a + i)

def State.memWrite (s : State) (a : Nat) (bs : List Byte) : State :=
  s.setCells (cellsWrite s.mem.cells a bs) (looseCut s.mem.loose a (a + bs.length))

def State.memClear (s : State) (lo hi : Nat) : State :=
  s.setCells (cellsClear s.mem.cells lo hi) (looseCut s.mem.loose lo hi)

def State.memCopy (s : State) (src dst len : Nat) : State :=
  s.setCells (cellsCopy s.mem.cells src dst len)
    (looseMove s.mem.loose src dst len ++ looseCut s.mem.loose dst (dst + len))

/-- `len` bytes from `lo` on become undefined: free values, under one use of the counter. -/
def State.memFree (s : State) (lo len : Nat) : State :=
  if len = 0 then s
  else (s.setCells (cellsClear s.mem.cells lo (lo + len))
    (⟨lo, lo + len, 0, s.freeCount⟩ :: looseCut s.mem.loose lo (lo + len))).useFree

/-! ## Layout (R244, R250) -/

def gib : Nat := 1073741824

def Layout.sizes (l : Layout) : List Nat := [l.context, l.cast, l.state, l.stage, l.hdm]

/-- First GiB of partition `k` (0 CONTEXT, 1 CAST, 2 STATE, 3 STAGE, 4 HDM). -/
def Layout.base (l : Layout) (k : Nat) : Nat := (l.sizes.take k).sum

def Layout.size (l : Layout) (k : Nat) : Nat := l.sizes.getD k 0

/-- The partition a data address lies in; 5 is the rest. -/
def Layout.partition (l : Layout) (a : Nat) : Nat :=
  ((List.range 5).find? fun k => decide (l.base k * gib ≤ a) && decide (a < (l.base k + l.size k) * gib)).getD 5

/-- LAYOUT (Table 11-10). -/
def Layout.bytes (l : Layout) : List Byte :=
  (List.range 5).flatMap fun k => leBytes 4 (l.base k) ++ leBytes 4 (l.size k)

/-- The written sizes. -/
def State.writtenLayout (s : State) : Layout :=
  ⟨s.obj Row.sizeContext, s.obj Row.sizeCast, s.obj Row.sizeState, s.obj Row.sizeStage, s.obj Row.sizeHdm⟩

/-- PRESERVE bits by partition: STATE, STAGE, HDM. -/
def preserveBit (flags k : Nat) : Bool := decide (2 ≤ k) && flags.testBit (k - 2)

/-- Rule 0x0904_0001: a partition whose flag is 1 in force and as written, resized or moved. -/
def State.preserveBreak (s : State) (k : Nat) : Bool :=
  let w := s.writtenLayout
  preserveBit s.mem.preserve k && preserveBit (s.obj Row.preserve) k &&
    (w.base k != s.mem.layout.base k || w.size k != s.mem.layout.size k)

/-- Rules 0x0901_0001, 0x0902_0001 and 0x0904_0001 hold of the written values. -/
def State.layoutOk (s : State) : Bool :=
  let w := s.writtenLayout
  w.context == 8 && decide (w.sizes.sum ≤ 1430) && !(List.range 5).any s.preserveBreak

/-- Which partition a GiB unit is assigned to. -/
def Layout.unitOf (l : Layout) (u : Nat) : Nat := l.partition (u * gib)

def CastEntry.empty : CastEntry := ⟨0, false, 0, 0, 0, 0, 0⟩

/-- Every directory entry cleared (R260). -/
def State.clearDir (s : State) : State :=
  { s with mem := { s.mem with dir := List.replicate 4 CastEntry.empty } }

/-- Start background initialisation over `n` more GiB, in the units of `map` (R251). The bytes are zero from here on. -/
def State.startInit (s : State) (n map : Nat) : State :=
  let s := { s with mem := { s.mem with
    initMap := s.mem.initMap ||| map, initLeft := s.mem.initLeft + n, initActive := true
    initTotal := (if s.mem.initActive then s.mem.initTotal else 0) + n } }
  s.setObjBit Row.memStatus 0 true

/-- Zero the units for which `p` holds, and count them. -/
def State.initUnits (s : State) (p : Nat → Bool) : State :=
  let us := (List.range 1430).filter p
  let s := eachDo us (fun u s => s.memClear (u * gib) ((u + 1) * gib)) s
  if us.isEmpty then s else s.startInit us.length (us.map (2 ^ ·)).sum

/-- A layout comes into force. Units whose assignment changed are initialised; one that moves or resizes CAST
discards every cast. -/
def State.applyLayout (s : State) : State :=
  let old := s.mem.layout
  let new := s.writtenLayout
  let s := { s with mem := { s.mem with layout := new, preserve := s.obj Row.preserve } }
  let moved := old.cast != new.cast || old.base 1 != new.base 1
  let s := if moved then s.clearDir else s
  let s := s.initUnits fun u =>
    old.unitOf u != new.unitOf u || (moved && new.unitOf u == 1) ||
    (old.unitOf u == new.unitOf u && u - old.base (old.unitOf u) != u - new.base (new.unitOf u))
  let s := if old.state != new.state || old.base 2 != new.base 2 then s.setObjBit Row.memStatus 2 false else s
  s.setObjBit Row.memStatus 1 false

/-- R250: in CONFIG the layout in force follows the written values whenever they pass; else LAYOUT_PENDING is set. -/
def State.followLayout (s : State) : State :=
  if s.mode != .config then s
  else if s.layoutOk then
    (if s.writtenLayout = s.mem.layout && s.obj Row.preserve = s.mem.preserve then s.setObjBit Row.memStatus 1 false
     else s.applyLayout)
  else s.setObjBit Row.memStatus 1 true

/-- Initialisation of every unit but those `keep` names by partition (Table 11-4); the response-cache pool is cleared. -/
def State.initAll (s : State) (keep : Nat → Bool) : State :=
  let l := s.mem.layout
  let s := s.memClear (0x1658000 * 65536) (0x165A000 * 65536)
  let s := { s with wq := { s.wq with cacheUsed := [] } }
  let s := if keep 2 then s else s.setObjBit Row.memStatus 2 false
  s.initUnits fun u => !keep (l.unitOf u)

/-- HOLD to CONFIG: preserved partitions and CAST are kept. -/
def State.initFromHold (s : State) : State :=
  let p := s.mem.preserve
  s.initAll fun k => k == 1 || (k != 5 && preserveBit p k)

/-- Initialisation ends (R251). -/
def State.initDone (s : State) : State :=
  if !s.mem.initActive then s
  else
    let n := s.mem.initTotal
    let s := { s with mem := { s.mem with initLeft := 0, initActive := false, initTotal := 0, initMap := 0 } }
    (s.setObjBit Row.memStatus 0 false).raisePf 0x0904 0 n 0

/-! ## Requests to the channels (R13, R245) -/

def channelOf (a : Nat) : Nat := a / 256 % 96

/-- Channel `c` leaves self-refresh (R262). -/
def State.wakeChannel (s : State) (c : Nat) : State :=
  if s.mem.asleep.contains c then
    let rest := s.mem.asleep.erase c
    ({ s with mem := { s.mem with asleep := rest } }).setObjBit Row.memStatus 6 (!rest.isEmpty)
  else s

/-- A request of a class arrives at the channel of its address, and wakes it (R262). -/
def State.memAsk (s : State) (cls a : Nat) (act : MemAct := .access) : State :=
  let c := channelOf a
  let s := s.wakeChannel c
  { s with mem := { s.mem with queues := tput s.mem.queues c ((tget s.mem.queues c).getD [] ++ [⟨cls, a, act⟩]) } }

/-- Requests for the granules of `n` bytes from `a` on. -/
def State.memAskRange (s : State) (cls a n : Nat) : State :=
  if n = 0 then s
  else eachDo (List.range ((a + n - 1) / 256 + 1 - a / 256)) (fun i s => s.memAsk cls ((a / 256 + i) * 256)) s

/-! ## A function's share of STATE -/

/-- Bytes of STATE in a share (Table 17-1). -/
def State.stateShare (s : State) : Nat := s.mem.layout.state * gib / s.obj Row.shareCount

/-- Data address of offset `off` of function `f`'s share of STATE. -/
def State.stateAddr (s : State) (f off : Nat) : Nat :=
  s.mem.layout.base 2 * gib + f % s.obj Row.shareCount * s.stateShare + off

def State.stateRead (s : State) (f off n : Nat) : List Byte := s.memRead (s.stateAddr f off) n

def State.stateWrite (s : State) (f off : Nat) (bs : List Byte) : State := s.memWrite (s.stateAddr f off) bs

/-! ## Errors (R248, R254) -/

def packageOf (c : Nat) : Nat := c / 4

/-- Append to the 64 entries of UE_LOG. -/
def State.logUe (s : State) (a part : Nat) : State :=
  let entry := a % 2 ^ 64 + part * 2 ^ 64 + s.timer % 2 ^ 32 * 2 ^ 96
  s.setObj Row.ueLog (s.obj Row.ueLog / 2 ^ 128 + entry * 2 ^ (8 * 1024 - 128))

/-- An uncorrectable read at `a`: counted, logged and raised; its consumer's outcome is apart. -/
def State.memUe (s : State) (a : Nat) : State :=
  let part := s.mem.layout.partition a
  let c := channelOf a
  let s := (s.bump Row.ueTotal).bump Row.chUe 1 c
  let s := (s.bump Row.pkgUe 1 (packageOf c)).setObjBit Row.memStatus 5 true
  ((s.logUe a part).raisePf 0x0901 0 a part).memoryRecord a

def day : Nat := 86400000000000

/-- A correction on channel `c`, DQ pin `pin` (R248, R254). -/
def State.correction (s : State) (c pin : Nat) : State :=
  let s := (s.bump Row.ceTotal).bump Row.chCe 1 c
  let s := s.bumpField Row.chDqCe (4 * pin) 4 1 c
  let s := s.bump Row.pkgCe 1 (packageOf c)
  let recent := s.timer :: ((tget s.mem.ces c).getD []).filter fun t => decide (s.timer < t + day)
  let s := { s with mem := { s.mem with ces := tput s.mem.ces c recent } }
  let limit := s.obj Row.ceLimit
  if limit = 0 || recent.length ≤ limit then s
  else
    let s := s.setObjBit Row.memStatus 4 true
    let told := match tget s.mem.ceRaised c with
      | some t => decide (s.timer < t + day)
      | none => false
    if told then s
    else ({ s with mem := { s.mem with ceRaised := tput s.mem.ceRaised c s.timer } }).raisePf 0x0902 0 c recent.length

def granules : Nat := 62500000

/-- R254: the scrubber's next granule on channel `c`. -/
def State.scrubMove (s : State) (c : Nat) : State :=
  let o := s.obj Row.chScrubOffset c
  if o + 1 < granules then s.setObj Row.chScrubOffset (o + 1) c
  else
    let s := s.setObj Row.chScrubOffset 0 c
    let ps := tput s.mem.passes c ((tget s.mem.passes c).getD 0 + 1)
    let s := { s with mem := { s.mem with passes := ps } }
    s.setObj Row.scrubPasses
      ((List.range 96).foldl (fun m k => min m ((tget ps k).getD 0)) ((tget ps c).getD 0) % 2 ^ 32)

/-- The scrubber asks for its next granule, in class 6 (R254). -/
def State.scrubRead (s : State) (c : Nat) (r : ScrubResult) : State :=
  if !s.firmwareRuns || s.mem.initActive then s
  else s.memAsk 6 ((s.obj Row.chScrubOffset c * 96 + c) * 256) (.scrub r)

/-- The scrubber's read of the granule at `a`; a corrected one is written back, in class 6 (R248). -/
def State.scrubbed (s : State) (a : Nat) (r : ScrubResult) : State :=
  let c := channelOf a
  let s := match r with
    | .clean => s
    | .corrected pin => (s.correction c pin.val).memAsk 6 a
    | .uncorrectable => s.memUe a
  s.scrubMove c

/-! ## Service of the channels (R13, Table 01-3) -/

/-- The enabled bytes of a 64 B write. -/
def State.hdmBytes (s : State) (a : Nat) : List (Option Byte) → State
  | [] => s
  | some b :: bs => State.hdmBytes (s.memWrite a [b]) (a + 1) bs
  | none :: bs => State.hdmBytes s (a + 1) bs

/-- A request has its access. The bytes of an uncorrectable read are not stated: free values. -/
def State.memServed (s : State) (r : MemReq) : State :=
  match r.act with
  | .access => s
  | .hdmRead true => (s.emit (.hostData (outsideBytes s.freeCount 64) true)).useFree
  | .hdmRead false => s.emit (.hostData (s.memRead r.addr 64) false)
  | .hdmWrite bytes => s.hdmBytes r.addr bytes
  | .scrub result => s.scrubbed r.addr result

/-- A cast copy or its mirroring runs: class 5 waits on every channel (Table 01-3). -/
def State.castWaits (s : State) : Bool := s.mem.cast.any fun r => r.phase != .waiting

def memClasses : List Nat := [1, 2, 3, 4, 5, 6]

/-- The class a channel serves next: the lowest-numbered starved one, one that has waited for 26 accesses; with none starved the
lowest-numbered that waits. -/
def nextClass (waits : Nat → Bool) (waited : List Nat) : Option Nat :=
  match memClasses.find? fun k => waits k && decide (26 ≤ waited.getD (k - 1) 0) with
  | some k => some k
  | none => memClasses.find? waits

/-- How long each class has waited after an access of class `k`. -/
def waitedAfter (waits : Nat → Bool) (waited : List Nat) (k : Nat) : List Nat :=
  memClasses.map fun j => if j = k || !waits j then 0 else waited.getD (j - 1) 0 + 1

/-- The check line of a data address, within its channel (R247). -/
def checkLine (a : Nat) : Nat := (a / 256 / 96 * 256 + a % 256) / 512

/-- The channel looks for the check line of a request: it caches 512, and replaces the one least recently used (R247). Hits and misses
are counted once per request (notes/assumptions/79). -/
def State.lookCheck (s : State) (a : Nat) : State :=
  let c := channelOf a
  let l := checkLine a
  let held := (tget s.mem.checks c).getD []
  let s := { s with mem := { s.mem with checks := tput s.mem.checks c ((l :: held.erase l).take 512) } }
  s.bump (if held.contains l then Row.chCheckHit else Row.chCheckMiss) 1 c

/-- A host request to a unit still being initialised waits (R251). -/
def State.initWaits (s : State) (r : MemReq) : Bool := r.cls == 3 && s.mem.initMap.testBit (r.addr / gib)

/-- Channel `c` gives one access: to the first request of the class it serves, or to the cast. -/
def State.channelAccess (s : State) (c : Nat) : State :=
  let q := (tget s.mem.queues c).getD []
  let w := (tget s.mem.waited c).getD []
  let ready := q.filter fun r => !s.initWaits r
  let waits (k : Nat) : Bool := (k == 5 && s.castWaits) || ready.any fun r => r.cls == k
  match nextClass waits w with
  | none => s
  | some k =>
    let r := ready.find? fun r => r.cls == k
    let s := { s with mem := { s.mem with
      queues := tput s.mem.queues c (match r with
        | some r => q.erase r
        | none => q)
      waited := tput s.mem.waited c (waitedAfter waits w k)
      accesses := tput s.mem.accesses c ((tget s.mem.accesses c).getD [] ++ [k]) } }
    match r with
    | some r => (s.lookCheck r.addr).memServed r
    | none => s

/-- Channel `c` serves what waits, at most `n` accesses. -/
def State.channelRun : Nat → State → Nat → State
  | 0, s, _ => s
  | n + 1, s, c =>
    let q := (tget s.mem.queues c).getD []
    if q.isEmpty then { s with mem := { s.mem with queues := tdel s.mem.queues c } }
    else if q.all s.initWaits then s
    else State.channelRun n (s.channelAccess c) c

/-- Every channel with requests serves them, in the order of R13; a correction adds one write to its channel
(notes/assumptions/79). -/
def State.serveChannels (s : State) : State :=
  eachDo s.mem.queues (fun p s =>
    let s := { s with mem := { s.mem with accesses := tdel s.mem.accesses p.1 } }
    State.channelRun (4 * p.2.length + 8) s p.1) s

def State.channelIdle (s : State) (c : Nat) : State :=
  if s.mode != .hold then s
  else
    let s := { s with mem := { s.mem with asleep := if s.mem.asleep.contains c then s.mem.asleep else s.mem.asleep ++ [c] } }
    s.setObjBit Row.memStatus 6 true

/-! ## Casts (R255-R260) -/

def State.entry (s : State) (k : Nat) : CastEntry := s.mem.dir.getD k CastEntry.empty

def State.setEntry (s : State) (k : Nat) (e : CastEntry) : State :=
  { s with mem := { s.mem with dir := s.mem.dir.set k e } }

/-- Slot size in GiB times 4, to keep quarters exact; offsets of slots 0-3 (R255). -/
def State.slotQuarters (s : State) : Nat := if s.mem.paired then s.mem.layout.cast else 2 * s.mem.layout.cast

/-- Data address of slot `k`. -/
def State.slotAddr (s : State) (k : Nat) : Nat :=
  let c := s.mem.layout.cast * gib
  s.mem.layout.base 1 * gib + (match k with
    | 0 => 0
    | 1 => c / 2
    | 2 => c / 4
    | _ => 3 * c / 4)

def CastEntry.isCast (e : CastEntry) : Bool := e.slotState == 2 || e.slotState == 3

/-- Cast N: the own slot LOCAL or MIRRORED with the higher GEN. -/
def State.castN (s : State) : Option Nat :=
  let a := s.entry 0
  let b := s.entry 1
  if a.isCast && (!b.isCast || decide (b.gen < a.gen)) then some 0
  else if b.isCast then some 1
  else none

/-- Extent of a TAKE or RESTORE in GiB. -/
def State.castExtent (s : State) : Nat :=
  if s.obj Row.castExtent = 0 then s.mem.layout.state else s.obj Row.castExtent

def State.castResult (s : State) (op result slot : Nat) : State :=
  s.setObj Row.castResult (op * 2 ^ 24 + result * 2 ^ 16 + slot * 2 ^ 8)

/-- CAST_DONE: INFO_A is CAST_RESULT, INFO_B the GEN of the slot. -/
def State.castDone (s : State) (op result slot : Nat) : State :=
  let s := s.castResult op result slot
  s.raisePf 0x0903 0 (s.obj Row.castResult) (s.entry slot).gen

/-- Table 11-7a, in its order; 0 when the command is taken. -/
def State.castRefusal (s : State) (op : Nat) (f : CastFields) : Nat :=
  let slot := f.slot.toNat
  let uses := op == 2 || op == 3
  let x := s.castExtent
  if op < 1 || 3 < op || (uses && decide (3 < slot)) || !f.reservedZero ||
      decide (s.mem.layout.state < s.obj Row.castExtent) ||
      (op == 2 && decide (s.mem.layout.state < f.dest.toNat + x)) then 9
  else if s.mode != .operational then 5
  else if s.mem.cast.isSome || (op == 3 && (s.entry slot).slotState == 1) then 2
  else if s.mem.layout.cast = 0 then 3
  else if op != 3 && decide (s.slotQuarters < 4 * x) then 4
  else if op == 2 && !((s.entry slot).isCast || (s.entry slot).slotState == 5) then 8
  else 0

/-- An end of a cast command. -/
def State.endCast (s : State) : State :=
  ({ s with mem := { s.mem with cast := none } }).setObjBit Row.memStatus 3 false

def State.beginCast (s : State) (r : CastRun) : State :=
  ({ s with mem := { s.mem with cast := some r } }).setObjBit Row.memStatus 3 true

/-- A cast command that Table 11-7a refuses. -/
def State.castRefused (s : State) (op : Nat) (f : CastFields) (result : Nat) : State := s.castDone op result f.slot.toNat

/-- TAKE step 1. -/
def State.castTake (s : State) (f : CastFields) : State :=
  match s.castRefusal 1 f with
  | 0 =>
    let slot := if s.castN = some 0 then 1 else 0
    let gen := (max (s.entry 0).gen (s.entry 1).gen + 1) % 2 ^ 32
    let s := s.setEntry slot ⟨1, false, gen, f.step.toNat, s.castExtent, 0, 0⟩
    (s.castResult 1 1 slot).beginCast ⟨1, slot, 0, s.castExtent, .waiting, 0⟩
  | r => s.castRefused 1 f r

def State.castRestore (s : State) (f : CastFields) : State :=
  match s.castRefusal 2 f with
  | 0 => (s.castResult 2 1 f.slot.toNat).beginCast ⟨2, f.slot.toNat, f.dest.toNat, s.castExtent, .waiting, 0⟩
  | r => s.castRefused 2 f r

def State.castDiscard (s : State) (f : CastFields) : State :=
  match s.castRefusal 3 f with
  | 0 =>
    let e := s.entry f.slot.toNat
    let s := s.setEntry f.slot.toNat { e with slotState := 0, latest := false }
    s.castDone 3 0 f.slot.toNat
  | r => s.castRefused 3 f r

/-- New apply phases are held while a TAKE or RESTORE has not ended its copy (R324). -/
def State.applyHeld (s : State) : Bool :=
  match s.mem.cast with
  | some r => r.phase != .mirroring
  | none => false

/-- Collectives whose apply phase runs. -/
def State.applyRunning (s : State) : Bool := s.colls.comms.any fun p => p.2.colls.any fun c => c.st == .apply

/-- R258 step 2, R260: the copy starts once running apply phases have ended. -/
def State.castCopyStart (s : State) : State :=
  match s.mem.cast with
  | some r =>
    if r.phase == .waiting && !s.applyRunning then { s with mem := { s.mem with cast := some { r with phase := .copying } } }
    else s
  | none => s

/-- The pieces of a cast: address in STATE, offset in the slot and length, share by share (R384); with one share, the
whole extent. `dest` is the GiB offset of a RESTORE. -/
def State.castPieces (s : State) (dest extent : Nat) : List (Nat × Nat × Nat) :=
  let part (n : Nat) : Nat := n * gib / s.shares
  (List.range s.shares).map fun sh =>
    (s.mem.layout.base 2 * gib + sh * part s.mem.layout.state + part dest, sh * part extent, part extent)

/-- The copy of a TAKE, STATE to slot. -/
def State.copyOut (s : State) (slot extent : Nat) : State :=
  eachDo (s.castPieces 0 extent) (fun t s => s.memCopy t.1 (s.slotAddr slot + t.2.1) t.2.2) s

/-- The copy of a RESTORE, slot to STATE. -/
def State.copyBack (s : State) (slot dest extent : Nat) : State :=
  eachDo (s.castPieces dest extent) (fun t s => s.memCopy (s.slotAddr slot + t.2.1) t.1 t.2.2) s

/-- A RESTORE that fails leaves its destination range undefined (R260, R469). -/
def State.loseDest (s : State) (r : CastRun) : State :=
  if r.op = 2 then eachDo (s.castPieces r.dest r.extent) (fun t s => s.memFree t.1 t.2.2) s else s

/-- The TAKE copy ends: bytes stand in the slot, which becomes LOCAL. -/
def State.castCopyDone (s : State) (crc : Nat) (mirror : Bool) : State :=
  match s.mem.cast with
  | some r =>
    if r.phase != .copying || r.op != 1 then s
    else
      let s := s.copyOut r.slot r.extent
      let e := s.entry r.slot
      let s := s.setEntry r.slot { e with slotState := 2, crc := crc, time := s.timer }
      if mirror then { s with mem := { s.mem with cast := some { r with phase := .mirroring } } }
      else s.endCast.castDone 1 0 r.slot
  | none => s

/-- The RESTORE copy ends (R260). -/
def State.restoreCopyDone (s : State) (crc : Nat) : State :=
  match s.mem.cast with
  | some r =>
    if r.phase != .copying || r.op != 2 then s
    else
      let s := s.endCast
      if crc = (s.entry r.slot).crc then
        ((s.copyBack r.slot r.dest r.extent).setObjBit Row.memStatus 2 false).castDone 2 0 r.slot
      else (s.loseDest r).castDone 2 7 r.slot
  | none => s

/-- R258 step 5: the twin holds the slot. -/
def State.castMirrorDone (s : State) : State :=
  match s.mem.cast with
  | some r =>
    if r.phase != .mirroring then s
    else
      let s := s.setEntry r.slot { s.entry r.slot with slotState := 3 }
      s.endCast.castDone 1 0 r.slot
  | none => s

/-- A running cast command fails with a result; a slot being written becomes INCOMPLETE, one being mirrored stays LOCAL
(R259, Table 11-3). -/
def State.failCast (s : State) (result : Nat) : State :=
  match s.mem.cast with
  | none => s
  | some r =>
    let s := if r.op = 1 && r.phase != .mirroring then s.setEntry r.slot { s.entry r.slot with slotState := 4 } else s
    (s.endCast.loseDest r).castDone r.op result r.slot

/-- R259 in a reset or HOLD entry: as `failCast`, without a CAST_DONE record. -/
def State.dropCast (s : State) (result : Nat) : State :=
  match s.mem.cast with
  | none => s
  | some r =>
    let s := if r.op = 1 && r.phase != .mirroring then s.setEntry r.slot { s.entry r.slot with slotState := 4 } else s
    ((s.castResult r.op result r.slot).endCast).loseDest r

/-- R256: the directory is re-laid for a graft enable of `paired`. -/
def State.relayDir (s : State) (paired : Bool) : State :=
  if s.mem.paired == paired then s
  else
    let fix (e : CastEntry) : CastEntry :=
      if paired && e.slotState != 0 && decide (s.mem.layout.cast < 4 * e.extent) then { e with slotState := 4 } else e
    let s := s.setEntry 0 (fix (s.entry 0))
    let s := s.setEntry 1 (fix (s.entry 1))
    let s := (s.setEntry 2 CastEntry.empty).setEntry 3 CastEntry.empty
    { s with mem := { s.mem with paired := paired } }

/-- CAST_DIR (Table 11-5). -/
def CastEntry.bytes (e : CastEntry) : List Byte :=
  leBytes 1 e.slotState ++ leBytes 1 e.latest.toNat ++ leBytes 2 0 ++ leBytes 4 e.gen ++ leBytes 8 e.step ++
    leBytes 2 e.extent ++ leBytes 2 0 ++ leBytes 4 e.crc ++ leBytes 8 e.time

end Sys2Proof.Machine
end

