-- ==== Sys2Proof/Machine/Collective.lean ====
section
/-! DEFINITION. The collective sequencer: submission, the preamble round, steps, notices and endings
(chapter 12), and the level conversions and residuals of chapter 13. -/

namespace Sys2Proof.Machine

def totalComms : Nat := 4096
def totalScheds : Nat := 16384
def totalKernels : Nat := 4096
def chunkBytes : Nat := 65536

/-- Key of a function's schedule, binding, kernel or shard in its table. -/
def fid (f id : Nat) : Nat := f * 65536 + id

def State.comm (s : State) (c : Nat) : Option Comm := tget s.colls.comms c
def State.setComm (s : State) (c : Nat) (x : Comm) : State := { s with colls := { s.colls with comms := tput s.colls.comms c x } }
def State.updComm (s : State) (c : Nat) (f : Comm → Comm) : State := { s with colls := { s.colls with comms := tupd s.colls.comms c f } }

def Comm.coll (x : Comm) (k : Nat) : Option Coll := x.colls.find? fun y => y.k == k

def State.coll (s : State) (c k : Nat) : Option Coll := (s.comm c).bind fun x => x.coll k

def State.updColl (s : State) (c k : Nat) (f : Coll → Coll) : State :=
  s.updComm c fun x => { x with colls := x.colls.map fun y => if y.k = k then f y else y }

def State.commInFlight (s : State) (c : Nat) : Bool :=
  match s.comm c with
  | some x => !x.colls.isEmpty
  | none => false

def State.sched (s : State) (f id : Nat) : Option Sched := tget s.colls.scheds (fid f id)
def State.binding (s : State) (f id : Nat) : Option Binding := tget s.colls.bindings (fid f id)
def State.kernel (s : State) (f id : Nat) : Option Kernel := tget s.colls.kernels (fid f id)
def State.shard (s : State) (f id : Nat) : Option Shard := tget s.colls.shards (fid f id)

/-! ## Fields of a COLLECTIVE -/

def Coll.kind (y : Coll) : Nat := y.sqe.kind.toNat
def Coll.count (y : Coll) : Nat := y.sqe.count.toNat
def Coll.dtype (y : Coll) : Nat := y.sqe.dtype.toNat
def Coll.root (y : Coll) : Nat := y.sqe.root.toNat
def Coll.redop (y : Coll) : Nat := y.sqe.redop.toNat
def Coll.seq (y : Coll) : Nat := y.k % 65536

/-- Fields of EXT (Table 14-6). -/
def kernelId (e : CollSqe) : Nat := e.ext.toNat / 2 ^ 48
def shardId (e : CollSqe) : Nat := e.ext.toNat / 2 ^ 32 % 65536
def nout (e : CollSqe) : Nat := e.ext.toNat / 2 ^ 28 % 16

def kindReduces (k : Nat) : Bool := k == 1 || k == 2 || k == 5 || k == 9
def kindHasRoot (k : Nat) : Bool := k == 4 || k == 5

/-- R272, R297, R321. -/
def badCollSqe (e : CollSqe) (n : Nat) : Bool :=
  let k := e.kind.toNat
  let d := e.dtype.toNat
  k == 0 || decide (9 < k) || decide (2 < e.redop.toNat) || (e.redop != 0 && !kindReduces k) ||
  e.ncontrib == 0 || decide (8 < e.ncontrib.toNat) || (e.ncontrib != 1 && !kindReduces k) ||
  (kindHasRoot k && decide (n ≤ e.root.toNat)) || (!kindHasRoot k && e.root != 0) ||
  (e.count != 0 && (k == 7 || k == 8)) || !e.reservedZero || e.x ||
  decide (8 < d) || (d == 0 && k != 8) || (isMx d && k == 6 && e.count.toNat % 32 != 0) ||
  (k == 9 && (e.redop != 0 || isInt d || e.count == 0 || kernelId e == 0 || shardId e == 0 ||
    nout e == 0 || decide (8 < nout e) || e.ext.toNat % 2 ^ 28 != 0))

/-! ## Buffers and keys -/

/-- Elements of an ALLTOALLV buffer: up to the end of its last range (notes/assumptions/34). -/
def vecSpan (v : List VecEntry) (recv : Bool) : Nat :=
  (v.map fun x => if recv then x.recvOffset + x.recvCount else x.sendOffset + x.sendCount).foldl max 0

/-- Elements of the input, and of the output when this member writes one. -/
def Coll.inElems (y : Coll) (n rank : Nat) : Nat :=
  match y.kind with
  | 3 => blockStart y.count n (rank + 1) - blockStart y.count n rank
  | 4 => if rank = y.root then y.count else 0
  | 6 => n * y.count
  | 7 => vecSpan y.vec false
  | 8 => 0
  | _ => y.count

def Coll.outElems (y : Coll) (n rank : Nat) : Nat :=
  match y.kind with
  | 2 => blockStart y.count n (rank + 1) - blockStart y.count n rank
  | 5 => if rank = y.root then y.count else 0
  | 6 => n * y.count
  | 7 => vecSpan y.vec true
  | 8 => 0
  | 9 => 0
  | _ => y.count

/-- A buffer's key must grant COLLECTIVE, and LOCAL_WRITE where it is written (R271). -/
def State.bufOk (s : State) (f : Nat) (write : Bool) (key : Key) (addr len : Nat) : Bool :=
  len == 0 || (s.segOk f write ⟨key, addr, len⟩ && match s.regionOf key with
    | some r => r.access.testBit 4
    | none => false)

/-- The work area of a kind is its input (Table 12-6). -/
def workIsInput (k : Nat) : Bool := k == 2 || k == 5

/-- The contributions: the table's entries, or the one input. -/
def Coll.sources (y : Coll) : List BufRef :=
  if y.sqe.ncontrib = 1 then [⟨y.sqe.inAddr, y.sqe.inKey⟩] else y.contribs

def State.qFmt (s : State) (f : Nat) (e : CollSqe) : Nat :=
  match s.shard f (shardId e) with
  | some h => h.qFmt
  | none => 0

/-- Every key of R152 at consumption. -/
def State.collKeysOk (s : State) (f n rank : Nat) (y : Coll) : Bool :=
  let k := y.kind
  let d := y.dtype
  let inLen := fmtBytes d (y.inElems n rank)
  let tables := (if y.sqe.ncontrib = 1 then 0 else 16 * y.sqe.ncontrib.toNat)
  let ins := (y.sources.zipIdx).all fun p => s.bufOk f (workIsInput k && p.2 == 0) p.1.key p.1.addr.toNat inLen
  let vec := k != 7 || s.bufOk f false y.sqe.inKey y.sqe.ext.toNat (32 * n)
  let out := s.bufOk f true y.sqe.outKey y.sqe.outAddr.toNat (fmtBytes d (y.outElems n rank))
  let desc := k != 9 || (s.bufOk f false y.sqe.outKey y.sqe.outAddr.toNat (64 + 16 * nout y.sqe) &&
    y.outputs.all fun o => s.bufOk f true o.key o.addr.toNat (fmtBytes (s.qFmt f y.sqe) y.count))
  ins && vec && out && desc && s.bufOk f false y.sqe.inKey y.sqe.inAddr.toNat tables

/-! ## Levels (R303, R306, R307) -/

def Comm.level (x : Comm) (l : Nat) : LevelWord := x.levels.getD l ⟨1, 1, false⟩

def Coll.isFloat (y : Coll) : Bool := kindReduces y.kind && !isInt y.dtype

def needsBinding (x : Comm) (g : Groups) (y : Coll) : Bool :=
  y.isFloat && ((0 :: g.used).any (fun l => (x.level l).round == 3) ||
    (y.redop == 0 && g.used.any fun l => (x.level l).ef))

/-- The binding record of a collective (Table 13-10), zeros without one. -/
def State.bindRec (s : State) (f id : Nat) : List Byte :=
  match s.binding f id with
  | some b => s.stateRead f b.record 64
  | none => List.replicate 64 0

def drawKey (rec : List Byte) (rank level use step : Nat) : DrawKey :=
  ⟨leField rec 16 8, leField rec 8 4, rank, level, use, step⟩

/-! ## Array counters -/

/-- Logical positions held now: physical units by position (R294, R314). -/
def State.activeUnits (s : State) : List Nat :=
  (List.range 68).filter fun u => s.obj Row.rauRole u == 0

/-- `n` element groups go to the logical positions in turn (notes/assumptions/35). -/
def State.issueGroups (s : State) (n : Nat) : State :=
  let us := s.activeUnits.filter fun u => !s.reliab.arbs.any fun a => a.unit == u
  let m := us.length
  if m = 0 || n = 0 then s
  else
    let s := s.bump Row.elementGroups n
    let at0 := s.colls.rau % m
    let s := eachDo (List.range m) (fun i s =>
      let share := (n + (m - 1 - (i + m - at0) % m)) / m
      s.bump Row.rauGroups share (us.getD i 0)) s
    { s with colls := { s.colls with rau := (at0 + n) % m } }

def State.countBeyonds (s : State) (l : List Beyond) : State :=
  let s := s.bump Row.saturations (countBeyond .saturated l)
  let s := s.bump Row.overflowInf (countBeyond .infinity l)
  s.bump Row.nanResults (countBeyond .nan l)

/-! ## Internal messages on connection QPs -/

def Comm.connQp (s : State) (x : Comm) (r : Nat) : Nat := s.global totalQps x.func (x.connBase + r)

/-- Queue a message of the sequencer on the connection to rank `r`. -/
def State.pushInternal (s : State) (x : Comm) (r : Nat) (opcode : Byte) (aux : Nat) (mtu : Nat) (body : List Byte) : State :=
  let q := Comm.connQp s x r
  match s.qp q with
  | none => s
  | some y =>
    if y.st != .rts then s
    else
      let e : Sqe := { opcode := opcode, c := false, x := false, t := false, f := false, s := false, token := 0, wrId := 0
                       localAddr := 0, localKey := 0, length := BitVec.ofNat 32 body.length, remoteAddr := 0
                       remoteKey := if opcode = 0x10 then BitVec.ofNat 32 x.epoch else 0
                       imm := BitVec.ofNat 32 aux, operandA := 0, operandB := 0, reservedZero := true }
      let w := { Wqe.new e y.sq.h with segs := [], length := body.length, internal := true, body := body, mtu := mtu }
      (s.pushWqe q w).updQp q fun y => { y with sq := { y.sq with h := y.sq.h + 1 } }

/-- Bits [255:32] of a preamble, most significant first, then its CRC (Table 12-8). -/
def preBytes (m : PreMsg) : List Byte :=
  let v := m.op * 2 ^ 216 + m.dtype * 2 ^ 208 + m.schedId * 2 ^ 192 + m.count * 2 ^ 128 + m.root * 2 ^ 112 +
    m.seq * 2 ^ 96 + m.epoch * 2 ^ 64 + m.rank * 2 ^ 48 + m.step * 2 ^ 40 + m.type * 2 ^ 38 + m.flags * 2 ^ 16 + m.cause * 2 ^ 8
  let b := beBytes 28 v
  b ++ beBytes 4 (crc32c b)

def preParse (b : List Byte) : PreMsg :=
  let v := beNat (slice b 0 28)
  { op := v / 2 ^ 216 % 256, dtype := v / 2 ^ 208 % 256, schedId := v / 2 ^ 192 % 65536, count := v / 2 ^ 128 % 2 ^ 64
    root := v / 2 ^ 112 % 65536, seq := v / 2 ^ 96 % 65536, epoch := v / 2 ^ 64 % 2 ^ 32, rank := v / 2 ^ 48 % 65536
    step := v / 2 ^ 40 % 256, type := v / 2 ^ 38 % 4, flags := v / 2 ^ 16 % 65536, cause := v / 2 ^ 8 % 256
    crcOk := beNat (slice b 28 4) == crc32c (slice b 0 28) }

/-- This member's own preamble. -/
def Coll.pre (y : Coll) (x : Comm) (step type cause : Nat) : PreMsg where
  op := y.redop * 16 + y.kind
  dtype := y.dtype
  schedId := y.sqe.schedId.toNat
  count := y.count
  root := y.root
  seq := y.seq
  epoch := x.epoch
  rank := x.rank
  step := step
  type := type
  flags := y.flags
  cause := cause
  crcOk := true

/-- cmp(m) of R275, with m.flags. -/
def cmpPre (own m : PreMsg) : Nat :=
  let bit (b : Bool) (k : Nat) : Nat := if b then 2 ^ k else 0
  (if !m.crcOk then 2 ^ 7
   else bit (m.op != own.op) 0 + bit (m.dtype != own.dtype) 1 + bit (m.count != own.count) 2 +
     bit (m.root != own.root) 3 + bit (m.schedId != own.schedId) 4 + bit (m.epoch != own.epoch) 5) ||| m.flags

/-! ## Notices and endings -/

/-- R289: a notice to every partner of the round but `skip`. -/
def State.sendNotices (s : State) (x : Comm) (y : Coll) (cause : Nat) (skip : Option Nat) : State :=
  eachDo ((roundPartners x.n x.rank).filter fun r => some r != skip) (fun r s =>
    (s.bumpBoth Row.noticeSent Row.vfNoticeSent x.func).pushInternal x r 0x11 0 4096 (preBytes (y.pre x 0 1 cause))) s

/-- Place of a status in COLL_ENDED; an ending by a flush has none (Table 12-14). -/
def endedIndex (st : Nat) : Option Nat :=
  match st with
  | 0 => some 0
  | 2 => some 1
  | 3 => some 2
  | 8 => some 3
  | _ => if 0x10 ≤ st && st ≤ 0x17 then some (st - 12) else none

/-- Count an ending, for the module and for a VF. -/
def State.countEnd (s : State) (f st : Nat) : State :=
  match endedIndex st with
  | none => s
  | some i =>
    let s := s.bumpField Row.collEnded (4 * i) 4
    if f = 0 then s else s.bumpField Row.vfCollEnded (4 * i) 4 1 (f * 65536)

/-- R310: the binding record advances after an OK end: banks first, then GEN. -/
def State.advanceBinding (s : State) (x : Comm) (y : Coll) : State :=
  match s.sched x.func y.sqe.schedId.toNat, s.binding x.func y.sqe.schedId.toNat with
  | some sc, some b =>
    if !needsBinding x sc.groups y then s
    else
      let rec_ := s.stateRead x.func b.record 64
      let bank := y.wrote.foldl (fun m l => m ^^^ 2 ^ (l - 1)) (leField rec_ 12 1)
      let valid := y.wrote.foldl (fun m l => m ||| 2 ^ (l - 1)) (leField rec_ 13 1)
      let s := s.stateWrite x.func (b.record + 12) (leBytes 1 bank ++ leBytes 1 valid)
      s.stateWrite x.func (b.record + 8) (leBytes 4 (leField rec_ 8 4 + 1))
  | _, _ => s

/-- Bytes of the overflow area a collective's waiting payloads take. -/
def overflowOf (l : List Waiting) : Nat := ((l.filter Waiting.overflow).map fun w => w.bytes.length).sum

/-- R326: an end while the apply phase runs leaves the shard TORN. -/
def State.tearShard (s : State) (x : Comm) (y : Coll) (status : Nat) : State :=
  if y.st == .apply then (s.bump Row.applyTornCount).raiseTo x.func 0x0801 (shardId y.sqe) status y.seq else s

/-- Take collective `k` out of flight: its chunks and overflow bytes return. -/
def State.dropColl (s : State) (c : Nat) (x : Comm) (y : Coll) : State :=
  let s := { s with colls := { s.colls with chunks := s.colls.chunks + y.chunks } }
  s.setComm c { x with
    colls := x.colls.filter fun z => z.k != y.k
    early := x.early.filter fun m => m.seq != y.seq
    ovfUsed := x.ovfUsed - overflowOf y.early }

/-- A collective ends with a status (Table 12-12): notices, counters, and the CQE of its entry. -/
def State.endColl (s : State) (c k status bytes : Nat) (cause : Option Nat) (skip : Option Nat) : State :=
  match s.comm c with
  | none => s
  | some x =>
    match x.coll k with
    | none => s
    | some y =>
      let s := s.tearShard x y status
      let s := match cause with
        | some a => s.sendNotices x y a skip
        | none => s
      let s := if status = 0 then s.advanceBinding x y else s
      let s := s.countEnd x.func status
      let s := s.dropColl c ((s.comm c).getD x) y
      match x.submit with
      | none => s
      | some q =>
        let fin (w : Wqe) : Wqe :=
          if w.coll == some (c, k) then { (w.end status) with length := bytes, placed := y.placed } else w
        let s := s.updQp q fun z => { z with wqes := z.wqes.map fin }
        let s := s.report q
        if status = 2 || status = 3 then s.qpError q status else s

/-- R288: every collective in flight ends with COLL_MEMBER_LOST, and the communicator is BROKEN. -/
def State.breakComm (s : State) (c rank cause : Nat) : State :=
  match s.comm c with
  | none => s
  | some x =>
    if x.broken then s
    else
      let s := s.updComm c fun x => { x with broken := true }
      let s := s.raiseTo x.func 0x0702 x.number rank cause
      eachDo x.colls (fun y s => s.endColl c y.k 0x12 rank (some 0x12) (some rank)) s

/-- A QP entered ERROR: a connection breaks its communicator; a submitting QP flushes its collectives, but for those
whose round runs on their behalf (R276). -/
def State.collError (s : State) (q cause : Nat) : State :=
  match (s.qp q).bind Qp.comm with
  | none => s
  | some c =>
    match s.comm c with
    | none => s
    | some x =>
      if x.submit = some q then
        eachDo (x.colls.filter fun y => !y.flags.testBit 8) (fun y s => s.endColl c y.k 0x07 0 (some 0x13) none) s
      else s.breakComm c (s.local totalQps q - x.connBase) cause

/-- R291: collectives of a communicator end without a CQE or a notice. -/
def State.silenceComm (s : State) (c : Nat) : State :=
  match s.comm c with
  | none => s
  | some x =>
    let s := eachDo x.colls (fun y s =>
      let s := s.tearShard x y 0x13
      s.dropColl c ((s.comm c).getD x) y) s
    match x.submit with
    | none => s
    | some q => s.updQp q fun z => { z with wqes := z.wqes.filter fun w => w.coll.isNone }

/-! ## Writes to user memory -/

/-- Write records of elements from `lo` on into a user buffer of `n` elements; a key that fails ends the collective. -/
def State.collWrite (s : State) (c k : Nat) (key : Key) (addr code n lo : Nat) (recs : List Byte) : State :=
  match s.comm c with
  | none => s
  | some x =>
    if (x.coll k).isNone || recs.isEmpty then s
    else if !s.bufOk x.func true key addr (fmtBytes code n) then s.endColl c k 0x02 0 (some 0x13) none
    else match s.regionOf key with
      | none => s
      | some r =>
        eachDo (userWrites code n addr lo recs) (fun w s =>
          let (s, ws) := (s.translate key w.1 w.2.length).placeRegion r w.1 w.2
          s.updColl c k fun y => { y with placed := y.placed ++ ws, committed := true }) s

/-- Half-ports of the buffers this member writes are up (R105). -/
def State.collPathsUp (s : State) (y : Coll) : Bool :=
  let keys := if y.kind = 9 then (if y.committed then y.outputs.map BufRef.key else [])
    else if workIsInput y.kind then (y.sources.take 1).map BufRef.key else [y.sqe.outKey]
  keys.all fun key => match s.regionOf key with
    | some r => (s.hp r.path).up
    | none => true

/-- A result written to the work area. Its bytes there are not stated, and take a free value. -/
def State.workWrite (s : State) (c k lo elems : Nat) : State :=
  match s.coll c k with
  | none => s
  | some y =>
    if y.kind = 9 then s
    else
      let b : BufRef := if workIsInput y.kind then (y.sources).headD ⟨0, 0⟩ else ⟨y.sqe.outAddr, y.sqe.outKey⟩
      let recs := leBytes (fmtBytes y.dtype elems) s.nextFree
      s.useFree.collWrite c k b.key b.addr.toNat y.dtype y.count lo recs

/-! ## Level arithmetic -/

/-- The residual bank of level `l` in use, or the other one, as an offset in the function's share of STATE. -/
def bankAddr (b : Binding) (rec_ : List Byte) (l : Nat) (other : Bool) : Option Nat :=
  ((b.areas.getD (l - 1) none)).map fun a =>
    if (leField rec_ 12 1).testBit (l - 1) != other then a + 4 * b.count else a

/-- One element of narrow() of R308 before rounding: s. -/
def efSum (v r : Num) : Num := fp32.decode (fp32.encode 1 0 (v.add r)).1

/-- The residual it leaves. -/
def efLeft (sum q : Num) : Nat :=
  if sum.finite && q.finite then (fp32.encode 1 0 (sum.add q.negate)).1 else 0

/-- The narrowing step of level `l` over one block (R307 item 2, R308). -/
def State.narrowBlock (s : State) (x : Comm) (y : Coll) (l n : Nat) (new : List Byte) (b : Nat) : State × List Byte :=
  let lo := blockStart y.count n b
  let hi := blockStart y.count n (b + 1)
  let lw := x.level l
  let vs := readElems y.fmt y.data lo hi
  let rec_ := s.bindRec x.func y.sqe.schedId.toNat
  let us := draws (drawKey rec_ x.rank l 1 0) lo vs.length
  let bnd := s.binding x.func y.sqe.schedId.toNat
  let inUse := bnd.bind fun b => bankAddr b rec_ l false
  let other := bnd.bind fun b => bankAddr b rec_ l true
  if lw.ef && y.redop == 0 then
    let rs := match inUse with
      | some a => if Nat.testBit (leField rec_ 13 1) (l - 1) then decodeVec 1 (s.stateRead x.func (a + 4 * lo) (4 * vs.length)) else []
      | none => []
    let ss := (vs.zipIdx).map fun p => efSum p.1 (rs.getD p.2 Num.zero)
    let (recs, bey) := encodeVec lw.fmt lw.round us ss
    let qs := decodeVec lw.fmt recs
    let left := (ss.zipIdx).flatMap fun p => leBytes 4 (efLeft p.1 (qs.getD p.2 Num.zero))
    let ask (s : State) (a : Nat) : State := s.memAskRange 2 (s.stateAddr x.func (a + 4 * lo)) (4 * vs.length)
    let s := match inUse with
      | some a => ask s a
      | none => s
    let s := match other with
      | some a => (ask s a).stateWrite x.func (a + 4 * lo) left
      | none => s
    ((s.bump Row.efElements vs.length).countBeyonds bey, putRecords lw.fmt new lo recs)
  else
    let (recs, bey) := encodeVec lw.fmt lw.round us vs
    (s.countBeyonds bey, putRecords lw.fmt new lo recs)

/-- The narrowing step of a level over what the member holds. -/
def State.narrow (s : State) (c k l : Nat) (held : List Nat) : State :=
  match s.comm c with
  | none => s
  | some x =>
    match x.coll k with
    | none => s
    | some y =>
      let lw := x.level l
      if !y.isFloat || lw.fmt = y.fmt then s
      else
        let r := held.foldl (fun (acc : State × List Byte) b => acc.1.narrowBlock x y l x.n acc.2 b)
          (s, blankVec lw.fmt y.count)
        let elems := (held.map fun b => blockStart y.count x.n (b + 1) - blockStart y.count x.n b).sum
        let s := r.1.issueGroups (ceilDiv elems (groupElems lw.fmt))
        s.updColl c k fun y => { y with
          data := r.2, fmt := lw.fmt
          wrote := if lw.ef && y.redop == 0 then y.wrote ++ [l] else y.wrote }

/-- Inputs converted to the level-0 format and the contributions combined in index order (R307 item 1). -/
def State.levelZero (s : State) (c k : Nat) : State :=
  match s.comm c with
  | none => s
  | some x =>
    match x.coll k with
    | none => s
    | some y =>
      let lw := x.level 0
      let fmt := if y.isFloat then lw.fmt else y.dtype
      let rec_ := s.bindRec x.func y.sqe.schedId.toNat
      let conv (v : List Byte) : List Byte × List Beyond :=
        if fmt = y.dtype then (v, [])
        else encodeVec fmt lw.round (draws (drawKey rec_ x.rank 0 1 0) 0 y.count) ((decodeVec y.dtype v).take y.count)
      let ins := y.inputs.map conv
      let s := s.countBeyonds (ins.flatMap Prod.snd)
      let r := (ins.drop 1).foldl (fun (acc : List Byte × List Beyond × Nat) (p : List Byte × List Beyond) =>
        let a := (decodeVec fmt acc.1).take y.count
        let b := (decodeVec fmt p.1).take y.count
        let o := encodeVec fmt lw.round (draws (drawKey rec_ x.rank 0 0 acc.2.2) 0 y.count) (List.zipWith (redop y.redop) a b)
        (o.1, acc.2.1 ++ o.2, acc.2.2 + 1)) ((ins.headD (blankVec fmt y.count, [])).1, [], 1)
      let s := (s.countBeyonds r.2.1).issueGroups ((y.inputs.length - 1) * ceilDiv y.count (groupElems fmt))
      s.updColl c k fun y => { y with data := r.1, fmt := fmt }

/-- Records of elements [lo, hi) in DTYPE, by the mode of the highest level in use (R303). -/
def State.toOutput (s : State) (x : Comm) (y : Coll) (g : Groups) (lo hi : Nat) : List Byte × List Beyond :=
  if hi ≤ lo then ([], [])
  else if y.fmt = y.dtype then (cutRecords y.fmt y.data lo hi, [])
  else
    let rec_ := s.bindRec x.func y.sqe.schedId.toNat
    let l := g.top
    encodeVec y.dtype (x.level l).round (draws (drawKey rec_ x.rank l 2 0) lo (hi - lo)) (readElems y.fmt y.data lo hi)

/-! ## Steps -/

def State.collPlan (s : State) (x : Comm) (y : Coll) : List CStep × Nat :=
  match s.sched x.func y.sqe.schedId.toNat with
  | none => ([], 0)
  | some sc => planOf sc.groups y.kind x.n x.rank y.root

/-- Element ranges of what a step sends and receives. -/
def Coll.sendRanges (y : Coll) (n : Nat) (t : CStep) : List (Nat × Nat) :=
  if y.kind = 6 then t.send.map fun j => (j * y.count, (j + 1) * y.count)
  else if y.kind = 7 then t.send.map fun j => match y.vec[j]? with
    | some v => (v.sendOffset, v.sendOffset + v.sendCount)
    | none => (0, 0)
  else blockRanges y.count n t.send

def Coll.recvRanges (y : Coll) (n : Nat) (t : CStep) : List (Nat × Nat) :=
  if y.kind = 6 then t.recv.map fun j => (j * y.count, (j + 1) * y.count)
  else if y.kind = 7 then t.recv.map fun j => match y.vec[j]? with
    | some v => (v.recvOffset, v.recvOffset + v.recvCount)
    | none => (0, 0)
  else blockRanges y.count n t.recv

def rangesLen (code : Nat) (rs : List (Nat × Nat)) : Nat := (rs.map fun r => fmtBytes code (r.2 - r.1)).sum

/-- Largest payload of a segment: whole records for MXFP8 (R299). -/
def segMtu (code : Nat) : Nat := if isMx code then 4092 else 4096

/-- A step begins: its level's narrowing, then its segment goes out. -/
def State.beginStep (s : State) (c k : Nat) (t : CStep) : State :=
  let s := if t.entry then s.narrow c k t.level t.held else s
  match s.comm c with
  | none => s
  | some x =>
    match x.coll k with
    | none => s
    | some y =>
      let body := (y.sendRanges x.n t).flatMap fun r => if r.2 ≤ r.1 then [] else cutRecords y.fmt y.data r.1 r.2
      let s := match t.dst with
        | some r => if body.isEmpty then s
            else s.pushInternal x r 0x10 (y.seq * 65536 + t.num % 4096 * 16) (segMtu y.fmt) body
        | none => s
      s.updColl c k fun y => { y with
        begun := true, got := 0, finals := if t.combine then [] else y.finals, lastMove := s.timer, slow := 0 }

/-- Combine one run of elements with the member's own (R281, R301). -/
def State.combineRun (s : State) (c k : Nat) (t : CStep) (lo : Nat) (bytes : List Byte) : State :=
  match s.comm c with
  | none => s
  | some x =>
    match x.coll k with
    | none => s
    | some y =>
      let elems := min (bytes.length / recBytes y.fmt * recElems y.fmt) (y.count - lo)
      let own := readElems y.fmt y.data lo (lo + elems)
      let theirs := (decodeVec y.fmt bytes).take elems
      let rec_ := s.bindRec x.func y.sqe.schedId.toNat
      let us := draws (drawKey rec_ x.rank t.level 0 t.k) lo elems
      let (recs, bey) := encodeVec y.fmt (x.level t.level).round us (List.zipWith (redop y.redop) own theirs)
      let s := (s.countBeyonds bey).issueGroups (ceilDiv elems (groupElems y.fmt))
      let s := s.updColl c k fun y => { y with
        data := putRecords y.fmt y.data lo recs, finals := y.finals ++ [(lo, lo + elems)] }
      s.workWrite c k lo elems

/-- Move one run of elements unchanged. -/
def State.copyRun (s : State) (c k : Nat) (lo : Nat) (bytes : List Byte) : State :=
  match s.coll c k with
  | none => s
  | some y =>
    let keep (s : State) : State := s.updColl c k fun y => { y with data := putRecords y.fmt y.data lo bytes }
    match y.kind with
    | 3 | 4 => (keep s).collWrite c k y.sqe.outKey y.sqe.outAddr.toNat y.dtype y.count lo bytes
    | 6 | 7 =>
      let n := match s.comm c with
        | some x => y.outElems x.n x.rank
        | none => 0
      s.collWrite c k y.sqe.outKey y.sqe.outAddr.toNat y.dtype n lo bytes
    | 9 =>
      if y.committed then
        eachDo y.outputs (fun o s => s.collWrite c k o.key o.addr.toNat y.fmt y.count lo bytes) (keep s)
      else keep s
    | _ => keep s

/-- A payload of the current step: combined, or moved (R283, R284). -/
def State.usePayload (s : State) (c k : Nat) (t : CStep) (w : Waiting) : State :=
  match s.comm c with
  | none => s
  | some x =>
    match x.coll k with
    | none => s
    | some y =>
      let runs := placeIn y.fmt (y.recvRanges x.n t) w.off w.bytes
      let s := eachDo runs (fun r s => if t.combine then s.combineRun c k t r.1 r.2 else s.copyRun c k r.1 r.2) s
      s.updColl c k fun y => { y with got := y.got + w.bytes.length, lastMove := s.timer, slow := 0 }

/-- Whether a waiting payload belongs to step `t`. -/
def Waiting.for_ (w : Waiting) (t : CStep) : Bool := t.src == some w.rank && t.num % 4096 == w.step

/-- What the end of the last step does: the output is written, and the collective ends OK. -/
def State.finishColl (s : State) (c k : Nat) : State :=
  match s.comm c with
  | none => s
  | some x =>
    match x.coll k, (x.coll k).bind fun y => s.sched x.func y.sqe.schedId.toNat with
    | some y, some sc =>
      let g := sc.groups
      let lo := if y.kind = 2 then blockStart y.count x.n x.rank else 0
      let hi := if y.kind = 2 then blockStart y.count x.n (x.rank + 1) else y.count
      let writes := y.kind == 1 || y.kind == 2 || (y.kind == 5 && x.rank == y.root)
      let o := if writes then s.toOutput x y g lo hi else ([], [])
      let s := s.countBeyonds o.2
      let s := if writes then
          s.collWrite c k y.sqe.outKey y.sqe.outAddr.toNat y.dtype (hi - lo) 0 o.1 else s
      s.endColl c k 0 0 none none
    | _, _ => s

/-- The apply phase stands between the two halves of a REDUCE_APPLY. -/
def Coll.atApply (y : Coll) (rs : Nat) : Bool := y.kind == 9 && y.pos == rs && !y.committed

/-- Go on with the steps until one must wait. -/
def State.collRun : Nat → State → Nat → Nat → State
  | 0, s, _, _ => s
  | fuel + 1, s, c, k =>
    match s.comm c with
    | none => s
    | some x =>
      match x.coll k with
      | none => s
      | some y =>
        let plan := s.collPlan x y
        if y.st != .data || y.atApply plan.2 then s
        else match plan.1[y.pos]? with
          | none => s.finishColl c k
          | some t =>
            if !y.begun then State.collRun fuel (s.beginStep c k t) c k
            else if rangesLen y.fmt (y.recvRanges x.n t) ≤ y.got then
              State.collRun fuel (s.updColl c k fun y => { y with pos := y.pos + 1, begun := false, got := 0 }) c k
            else match y.early.find? fun w => w.for_ t with
              | none => s
              | some w =>
                let s := s.updComm c fun x => { x with ovfUsed := if w.overflow then x.ovfUsed - w.bytes.length else x.ovfUsed }
                let s := s.updColl c k fun y => { y with early := y.early.erase w }
                State.collRun fuel (s.usePayload c k t w) c k

def State.runColl (s : State) (c k : Nat) : State :=
  match s.comm c with
  | none => s
  | some x =>
    match x.coll k with
    | none => s
    | some y => s.collRun (3 * ((s.collPlan x y).1.length + y.early.length + 2)) c k

/-! ## Entering DATA -/

/-- The round ended with FLAGS zero: the data phase begins (Table 12-7). -/
def State.enterData (s : State) (c k : Nat) : State :=
  let s := s.updColl c k fun y => { y with st := .data, lastMove := s.timer, slow := 0 }
  match s.comm c with
  | none => s
  | some x =>
    match x.coll k with
    | none => s
    | some y =>
      let input := y.inputs.headD []
      let set (s : State) (v : List Byte) : State := s.updColl c k fun y => { y with data := v, fmt := y.dtype }
      let lo := blockStart y.count x.n x.rank
      let out (s : State) (n lo : Nat) (b : List Byte) : State :=
        s.collWrite c k y.sqe.outKey y.sqe.outAddr.toNat y.dtype n lo b
      match y.kind with
      | 8 => (s.updColl c k fun y => { y with committed := true }).endColl c k 0 0 none none
      | 3 => (out (set s (putRecords y.dtype (blankVec y.dtype y.count) lo input)) y.count lo input).runColl c k
      | 4 => if x.rank = y.root then (out (set s input) y.count 0 input).runColl c k
             else (set s (blankVec y.dtype y.count)).runColl c k
      | 6 => (out (set s input) (x.n * y.count) (x.rank * y.count)
                (cutRecords y.dtype input (x.rank * y.count) ((x.rank + 1) * y.count))).runColl c k
      | 7 =>
        match y.vec[x.rank]? with
        | some v => (out (set s input) (y.outElems x.n x.rank) v.recvOffset
            (if v.sendCount = 0 then [] else cutRecords y.dtype input v.sendOffset (v.sendOffset + v.sendCount))).runColl c k
        | none => (set s input).runColl c k
      | _ => (s.levelZero c k).runColl c k

/-- R276: the end of the preamble round. -/
def State.roundEnd (s : State) (c k : Nat) : State :=
  match s.coll c k with
  | none => s
  | some y =>
    if y.flags = 0 then s.enterData c k
    else if y.flags.testBit 8 && y.local_ != 0 then s.endColl c k y.local_ 0 none none
    else s.endColl c k 0x10 y.flags none none

/-- A message of the round that waits for this move. -/
def Comm.takePre (x : Comm) (seq rank step : Nat) : Option PreMsg :=
  x.early.find? fun m => m.type == 0 && m.seq == seq && m.rank == rank && m.step == step

/-- Run the preamble round until it waits or ends (R275). -/
def State.roundRun : Nat → State → Nat → Nat → State
  | 0, s, _, _ => s
  | fuel + 1, s, c, k =>
    match s.comm c with
    | none => s
    | some x =>
      match x.coll k with
      | none => s
      | some y =>
        if y.st != .preamble then s
        else match (roundMoves x.n x.rank)[y.round]? with
          | none => s.roundEnd c k
          | some (.send r t) =>
            let s := s.pushInternal x r 0x11 0 4096 (preBytes (y.pre x t 0 0))
            State.roundRun fuel (s.updColl c k fun y => { y with round := y.round + 1 }) c k
          | some (.recv r t) =>
            match x.takePre y.seq r t with
            | none => s
            | some m =>
              -- A folded member takes over the FLAGS of the unfold (R275).
              let f := if t = 0xFF then (if m.crcOk then m.flags else m.flags ||| 2 ^ 7)
                else y.flags ||| cmpPre (y.pre x 0 0 0) m
              let s := s.updComm c fun x => { x with early := x.early.erase m }
              State.roundRun fuel (s.updColl c k fun y => { y with round := y.round + 1, flags := f }) c k

def State.runRound (s : State) (c k : Nat) : State :=
  match s.comm c with
  | none => s
  | some x => s.roundRun ((roundMoves x.n x.rank).length + 1) c k

/-- R277: counts of an ALLTOALLV, once all have arrived. -/
def State.checkCounts (s : State) (c k : Nat) : State :=
  match s.comm c with
  | none => s
  | some x =>
    match x.coll k with
    | none => s
    | some y =>
      if y.st != .counts || y.counts.length + 1 < x.n then s
      else
        let bad := y.counts.any fun p => match y.vec[p.1]? with
          | some v => v.recvCount != p.2
          | none => true
        (s.updColl c k fun y => { y with st := .preamble, flags := if bad then y.flags ||| 2 ^ 6 else y.flags }).runRound c k

/-! ## Leaving QUEUED -/

/-- Every collective in flight, with its communicator's number. -/
def State.inFlight (s : State) : List (Nat × Comm × Coll) :=
  s.colls.comms.flatMap fun p => p.2.colls.map fun y => (p.1, p.2, y)

/-- An earlier collective of the function still uses the binding (R311). -/
def State.bindBusy (s : State) (x : Comm) (y : Coll) : Bool :=
  match s.sched x.func y.sqe.schedId.toNat with
  | none => false
  | some sc => needsBinding x sc.groups y && s.inFlight.any fun p =>
      decide (p.2.2.order < y.order) && p.2.1.func == x.func && p.2.2.sqe.schedId == y.sqe.schedId &&
      needsBinding p.2.1 sc.groups p.2.2

/-- An earlier collective or a transfer still uses the shard (R318, R322). -/
def State.shardBusy (s : State) (x : Comm) (y : Coll) : Bool :=
  y.kind == 9 && ((match s.shard x.func (shardId y.sqe) with
    | some h => h.xfer.isSome
    | none => false) || s.inFlight.any fun p =>
      decide (p.2.2.order < y.order) && p.2.1.func == x.func && p.2.2.kind == 9 && shardId p.2.2.sqe == shardId y.sqe)

/-- Member bytes (R274). -/
def Coll.memberBytes (y : Coll) (n rank : Nat) : Nat :=
  if y.kind = 7 then
    fmtBytes y.dtype (max (y.vec.map VecEntry.sendCount).sum (y.vec.map VecEntry.recvCount).sum)
  else if y.kind = 4 then fmtBytes y.dtype y.count
  else fmtBytes y.dtype (y.inElems n rank)

def State.stages (s : State) (x : Comm) (y : Coll) : Bool :=
  decide (x.n ≤ s.obj Row.stageMaxMembers) && decide (y.memberBytes x.n x.rank ≤ s.obj Row.stageMaxBytes)

def State.chunkNeed (s : State) (x : Comm) (y : Coll) : Nat :=
  if y.kind = 8 then 0 else if s.stages x y then 8 else 2

/-- Collectives waiting in QUEUED for chunks, in order of consumption. -/
def State.chunkQueue (s : State) : List (Nat × Comm × Coll) :=
  s.inFlight.filter fun p => p.2.2.st == .queued && p.2.2.kind != 8 &&
    !s.bindBusy p.2.1 p.2.2 && !s.shardBusy p.2.1 p.2.2

def State.chunkTurn (s : State) (x : Comm) (y : Coll) : Bool :=
  y.kind == 8 || (decide (s.chunkNeed x y ≤ s.colls.chunks) &&
    !s.chunkQueue.any fun p => decide (p.2.2.order < y.order))

/-- R276's causes other than keys and reads: a schedule image that is absent or does not fit. -/
def State.schedOk (s : State) (x : Comm) (y : Coll) : Bool :=
  match s.sched x.func y.sqe.schedId.toNat with
  | none => false
  | some sc => sc.rank == x.rank && sc.n == x.n && sc.ops.testBit y.kind

def State.bindingOk (s : State) (x : Comm) (y : Coll) : Bool :=
  match s.sched x.func y.sqe.schedId.toNat with
  | none => true
  | some sc =>
    !needsBinding x sc.groups y || match s.binding x.func y.sqe.schedId.toNat with
      | none => false
      | some b => b.count == y.count && (Groups.used sc.groups).all fun l =>
          !((x.level l).ef && y.redop == 0) || (b.areas.getD (l - 1) none).isSome

/-- The record of a shard: COUNT, FIRST, LENGTH, STEP, STATUS and whether its CRC fits (Table 14-2). -/
def shardCrcOk (r : List Byte) : Bool := leField r 60 4 == crc32c (slice r 0 60)

/-- R322 and the last line of R332. -/
def State.applyOk (s : State) (x : Comm) (y : Coll) : Bool :=
  y.kind != 9 || match s.kernel x.func (kernelId y.sqe), s.shard x.func (shardId y.sqe) with
    | some kn, some h =>
      let r := s.stateRead x.func h.record 64
      let streams := kn.reads ||| kn.writes
      shardCrcOk r && leField r 36 1 == 0 && leField r 0 8 == y.count &&
      leField r 8 8 == blockStart y.count x.n x.rank &&
      leField r 16 8 == blockStart y.count x.n (x.rank + 1) - blockStart y.count x.n x.rank &&
      (h.m1Fmt != 0 || !streams.testBit 2) && (h.m2Fmt != 0 || !streams.testBit 3)
    | _, _ => false

/-- R299: a vector table usable under its DTYPE. -/
def Coll.vecOk (y : Coll) (n : Nat) : Bool :=
  y.kind != 7 || (y.vec.length == n && (!isMx y.dtype || y.vec.all fun v =>
    v.sendCount % 32 == 0 && v.sendOffset % 32 == 0 && v.recvCount % 32 == 0 && v.recvOffset % 32 == 0))

/-- FLAGS[8] with the cause that is found first. -/
def State.localFault (s : State) (c k status : Nat) : State :=
  s.updColl c k fun y => { y with flags := y.flags ||| 2 ^ 8, local_ := if y.local_ = 0 then status else y.local_ }

/-- The images used last that fit into `room` bytes. -/
def keepImages : Nat → List (Bool × Nat × Nat) → List (Bool × Nat × Nat)
  | _, [] => []
  | room, e :: es => if e.2.2 ≤ room then e :: keepImages (room - e.2.2) es else []

/-- The sequencer uses an image: it comes to the front of the 16 MiB cache, and the least recently used go out (R12, R269). A miss
reads it from STATE, at data address `a`, in class 2. -/
def State.useImage (s : State) (kernel : Bool) (n bytes a : Nat) : State :=
  let s := if s.colls.images.any fun e => e.1 == kernel && e.2.1 == n then s else s.memAskRange 2 a bytes
  { s with colls := { s.colls with
    images := keepImages 16777216 ((kernel, n, bytes) :: s.colls.images.filter fun e => !(e.1 == kernel && e.2.1 == n)) } }

/-- An unloaded image leaves the cache. -/
def State.dropImage (s : State) (kernel : Bool) (n : Nat) : State :=
  { s with colls := { s.colls with images := s.colls.images.filter fun e => !(e.1 == kernel && e.2.1 == n) } }

/-- The checks a collective meets as it leaves QUEUED. -/
def State.leaveChecks (s : State) (c : Nat) (x : Comm) (y : Coll) : State :=
  let s := match s.sched x.func y.sqe.schedId.toNat with
    | some sc => s.useImage false (fid x.func y.sqe.schedId.toNat) sc.length (s.stateAddr x.func sc.dest)
    | none => s
  let s := if y.local_ != 0 || s.collKeysOk x.func x.n x.rank y then s
    else match x.submit with
      | some q => (s.localFault c y.k 0x02).qpError q 0x02
      | none => s.localFault c y.k 0x02
  let s := if s.schedOk x y && y.vecOk x.n then s else s.localFault c y.k 0x16
  let s := if s.bindingOk x y then s
    else (s.bumpBoth Row.arithUnbound Row.vfArithUnbound x.func).localFault c y.k 0x16
  if s.applyOk x y then s
  else (s.bumpBoth Row.applyUnbound Row.vfApplyUnbound x.func).localFault c y.k 0x16

/-- R277: count packets to every other member. -/
def State.sendCounts (s : State) (x : Comm) (y : Coll) : State :=
  eachDo ((List.range x.n).filter (· != x.rank)) (fun j s =>
    let n := match y.vec[j]? with
      | some v => v.sendCount
      | none => 0
    s.pushInternal x j 0x10 (y.seq * 65536 + 1) 4096 (beBytes 8 n)) s

/-- Counts that arrived before the collective began. -/
def takeCounts (y : Coll) : Coll :=
  let cs := y.early.filter fun w => w.step == 4096
  { y with early := y.early.filter (fun w => w.step != 4096), counts := cs.foldl (fun t w => tput t w.rank (beNat (slice w.bytes 0 8))) y.counts }

/-- R274: a collective leaves QUEUED; `inputs` are the bytes of its input or contributions in user layout. -/
def State.leaveQueued (s : State) (c k : Nat) (inputs : List (List Byte)) : State :=
  match s.comm c with
  | none => s
  | some x =>
    match x.coll k with
    | none => s
    | some y =>
      if y.st != .queued || s.bindBusy x y || s.shardBusy x y || !s.chunkTurn x y then s
      else
        let need := s.chunkNeed x y
        let staged := s.stages x y
        let s := { s with colls := { s.colls with chunks := s.colls.chunks - need } }
        let s := s.updColl c k fun y => { y with
          chunks := need, staged := staged, lastMove := s.timer
          inputs := inputs.map (toRecords y.dtype (y.inElems x.n x.rank))
          st := if y.kind = 7 && x.n ≠ 1 then .counts else .preamble }
        let s := s.leaveChecks c x y
        if y.kind = 7 && x.n ≠ 1 then
          let freed := overflowOf (y.early.filter fun w => w.step == 4096)
          let s := (s.sendCounts x y).updColl c k takeCounts
          (s.updComm c fun x => { x with ovfUsed := x.ovfUsed - freed }).checkCounts c k
        else s.runRound c k

/-! ## Consumption (R272, R273) -/

/-- The entry of a COLLECTIVE as the send ring's lists hold it. -/
def collWqe (e : CollSqe) (k : RingIndex) : Wqe :=
  Wqe.new { opcode := 0x10, c := e.c, x := false, t := e.t, f := e.f, s := e.s, token := e.token, wrId := e.wrId
            localAddr := 0, localKey := 0, length := 0, remoteAddr := 0, remoteKey := 0, imm := 0
            operandA := 0, operandB := 0, reservedZero := true } k

def Coll.new (k order since : Nat) (e : CollSqe) (index : RingIndex) (r : CollReads) : Coll where
  k := k
  order := order
  since := since
  sqe := e
  index := index
  st := .queued
  staged := false
  chunks := 0
  flags := 0
  local_ := 0
  round := 0
  counts := []
  contribs := r.contribs
  vec := r.vec
  scalars := r.scalars
  outputs := r.outputs
  inputs := []
  data := []
  fmt := 0
  pos := 0
  begun := false
  got := 0
  finals := []
  early := []
  disputed := []
  wrote := []
  committed := false
  lastMove := since
  slow := 0
  placed := []
  apply := none

/-- BYTE_COUNT of an ending by notice (R273): for a timeout or a lost member no partner that did not progress is known. -/
def noticeBytes (cause : Nat) : Nat := if cause = 0x11 || cause = 0x12 then 0xFFFFFFFF else 0

/-- A notice held for this collective ends it (R278). -/
def State.heldNotice (s : State) (c k : Nat) : State :=
  match s.comm c with
  | none => s
  | some x =>
    match x.early.find? fun m => m.type == 1 && m.seq == k % 65536 with
    | none => s
    | some m => s.endColl c k m.cause (noticeBytes m.cause) (some m.cause) (some m.rank)

/-- A well-formed COLLECTIVE becomes collective k of its communicator. -/
def State.startColl (s : State) (q c : Nat) (x : Comm) (e : CollSqe) (index : RingIndex) (r : CollReads) : State :=
  let k := x.nextK
  let waiting := (x.ahead.filter fun p => p.1 == k % 65536).map Prod.snd
  let y := { Coll.new k s.colls.nextOrder s.timer e index r with early := waiting }
  let s := s.bumpBoth Row.collStarted Row.vfCollStarted x.func
  let s := { s with colls := { s.colls with nextOrder := s.colls.nextOrder + 1 } }
  let s := s.setComm c { x with
    nextK := k + 1, colls := x.colls ++ [y], ahead := x.ahead.filter fun p => p.1 != k % 65536 }
  let s := s.pushWqe q { collWqe e index with coll := some (c, k) }
  if x.broken then s.endColl c k 0x17 0 none none
  else
    let s := if s.bindBusy x y then s.bumpBoth Row.bindWait Row.vfBindWait x.func else s
    let s := if s.shardBusy x y then s.bumpBoth Row.applyWait Row.vfApplyWait x.func else s
    let s := if !s.collKeysOk x.func x.n x.rank y then (s.localFault c k 0x02).qpError q 0x02
      else if !r.ok then (s.localFault c k 0x03).qpError q 0x03
      else s
    s.heldNotice c k

/-- R290: an ABORT against a collective: whether it won. -/
def State.abortColl (s : State) (c k : Nat) : State × Bool :=
  match s.coll c k with
  | none => (s, false)
  | some y => if y.committed then (s, false) else (s.endColl c k 0x08 0 (some 0x13) none, true)

/-- A COLLECTIVE entry is taken from the submitting QP's ring, while fewer than 64 are in flight. -/
def State.takeColl (s : State) (q : Nat) (e : CollSqe) (r : CollReads) : State :=
  match s.qp q with
  | none => s
  | some z =>
    match z.comm, z.comm.bind s.comm with
    | some c, some x =>
      if !s.mayConsume (.send q) || x.submit != some q || 64 ≤ x.colls.length ||
        (z.st != .error && kindReduces e.kind.toNat && !s.enabled 8) then s
      else
        let index := z.sq.h
        let w := collWqe e index
        let bad := badCollSqe e x.n
        let dup := z.st != .error && !bad && z.tokens && e.t && z.history.contains (some e.token)
        let s := s.takeSqe q z w.sqe (!dup)
        let refused := z.st == .error || bad || dup
        let a := s.settleAborts (.send q) index e.wrId refused
        let s := a.1
        if z.st == .error then (s.pushWqe q (w.end 0x07)).report q
        else if bad then (s.pushWqe q w).failWqe q index 0x0A
        else if dup then s.refuseToken q z w
        else
          let s := s.startColl q c x e index r
          if a.2 then (s.abortColl c x.nextK).1 else s
    | _, _ => s

/-! ## Arrivals on connection QPs -/

/-- What becomes of a packet for the sequencer. -/
inductive CollTake where
  /-- Dropped without response, left ABSENT. -/
  | drop (s : State)
  /-- Refused with PARK_FULL. -/
  | full
  | accept (s : State)

/-- Where SEQ stands: in flight with its k, already ended, or not yet consumed. -/
inductive SeqSt where
  | live (y : Coll)
  | ended
  | future
  deriving DecidableEq, Repr

def Comm.seqSt (x : Comm) (seq : Nat) : SeqSt :=
  match x.colls.find? fun y => y.seq == seq with
  | some y => .live y
  | none => if (seq + 65536 - x.nextK % 65536) % 65536 < 32768 then .future else .ended

/-- A preamble or notice from rank `r` (R275, R278, R289). -/
def State.takePreamble (s : State) (c : Nat) (x : Comm) (r : Nat) (p : Packet) : CollTake :=
  let m := { preParse p.payload with rank := r }
  if 2 ≤ m.type then .drop (s.bump Row.badHeaderDrop)
  else
    let held := (x.early.filter fun n => n.rank == r && match x.seqSt n.seq with
      | .live y => y.st == .queued || y.st == .counts
      | _ => true).length
    let keep : CollTake :=
      if 2 ≤ held then .full else .accept (s.updComm c fun x => { x with early := x.early ++ [m] })
    match x.seqSt m.seq with
    | .ended => .accept s
    | .future => keep
    | .live y =>
      if m.type = 1 then .accept (s.endColl c y.k m.cause (noticeBytes m.cause) (some m.cause) (some r))
      else if y.st == .queued || y.st == .counts then keep
      else .accept ((s.updComm c fun x => { x with early := x.early ++ [m] }).runRound c y.k)

/-- Free bytes of the communicator's overflow area. -/
def Comm.ovfFree (x : Comm) : Nat := x.ovfSize * 1048576 - x.ovfUsed

/-- Free bytes of a staged collective's chunks. -/
def Coll.chunkFree (y : Coll) : Nat :=
  y.chunks * chunkBytes - ((y.early.filter fun w => !w.overflow).map fun w => w.bytes.length).sum

/-- R285: room a connection's collective holds ready, for the grant engine. -/
def State.collRoom (s : State) (c r : Nat) : Nat :=
  match s.comm c with
  | none => 0
  | some x =>
    let mine := x.colls.filter fun y => y.st == .data && match (s.collPlan x y).1[y.pos]? with
      | some t => t.src == some r
      | none => false
    let own := (mine.map fun y => if y.staged then y.chunkFree else y.chunks * chunkBytes).sum
    if mine.isEmpty then 0 else own + x.ovfFree

/-- Where the next bytes of a communicator's overflow area lie in STAGE. -/
def State.overflowAddr (s : State) (x : Comm) : Nat :=
  s.mem.layout.base 3 * gib + s.shareOf x.func * (s.mem.layout.stage * gib / max 1 s.shares) + x.ovfBase * 1048576 + x.ovfUsed

/-- A payload that must wait: in a chunk of a staged collective, else in the overflow area, else refused (R285). -/
def State.stash (s : State) (c : Nat) (x : Comm) (y : Option Coll) (seq : Nat) (w : Waiting) : CollTake :=
  let n := w.bytes.length
  let chunk := match y with
    | some y => y.staged && decide (n ≤ y.chunkFree)
    | none => false
  let put (w : Waiting) (s : State) : State := match y with
    | some y => s.updColl c y.k fun y => { y with early := y.early ++ [w] }
    | none => s.updComm c fun x => { x with ahead := x.ahead ++ [(seq, w)] }
  if chunk then .accept (put w s)
  else if n ≤ x.ovfFree then
    let s := (s.bumpBoth Row.overflowBytes Row.vfOverflowBytes x.func n).memAskRange 4 (s.overflowAddr x) n
    .accept (put { w with overflow := true } (s.updComm c fun x => { x with ovfUsed := x.ovfUsed + n }))
  else .full

/-- A COLL_DATA packet from rank `r` (R282-R285). `rau` disputes the array's issue it gives rise to. -/
def State.takeData (s : State) (c : Nat) (x : Comm) (r : Nat) (p : Packet) (rau : Option RauFault) : CollTake :=
  let aux := p.aux.toNat
  let seq := aux / 65536
  let step := aux / 16 % 4096
  let kind := aux % 16
  let bytes := slice p.payload 0 p.payloadLen.toNat
  if p.key.toNat ≠ x.epoch then .drop (s.bumpBoth Row.staleEpochDrop Row.vfStaleEpochDrop x.func)
  else if 2 ≤ kind then .drop (s.bump Row.badHeaderDrop)
  else
    let w : Waiting := ⟨r, if kind = 1 then 4096 else step, p.remoteAddr.toNat, bytes, false⟩
    match x.seqSt seq with
    | .ended => .accept (s.bumpBoth Row.collLateDrop Row.vfCollLateDrop x.func)
    | .future => s.stash c x none seq w
    | .live y =>
      if kind = 1 then
        if y.kind != 7 then .accept s
        else .accept ((s.updColl c y.k fun y => { y with counts := tput y.counts r (beNat (slice bytes 0 8)) }).checkCounts c y.k)
      else
        let plan := (s.collPlan x y).1
        let current := if y.st == .data && y.begun then plan[y.pos]? else none
        match current.filter fun t => w.for_ t with
        | some t =>
          let len := rangesLen y.fmt (y.recvRanges x.n t)
          if len < w.off + bytes.length || w.off % recBytes y.fmt != 0 || bytes.length % recBytes y.fmt != 0 then .accept s
          else if !s.collPathsUp y then .drop s
          else match rau, t.combine with
            | some f, true => .accept (s.updColl c y.k fun y => { y with disputed := y.disputed ++ [(w, f.unit.val)] })
            | _, _ => .accept ((s.usePayload c y.k t w).runColl c y.k)
        | none =>
          let later := (plan.drop (if y.st == .data || y.st == .apply then y.pos else 0)).any fun t => w.for_ t
          if later then s.stash c x (some y) seq w else .accept s

/-! ## Timers (R287) -/

/-- The instant of the 1 ms evaluation at or after `t`. -/
def nextMs (t : Nat) : Nat := roundUp t 1000000

/-- The rank awaited by the current step or round, 0xFFFF_FFFF for none. -/
def State.awaited (s : State) (x : Comm) (y : Coll) : Nat :=
  let none_ := 0xFFFFFFFF
  match y.st with
  | .data => match (s.collPlan x y).1[y.pos]? with
    | some t => if t.recv.isEmpty then none_ else t.src.getD none_
    | none => none_
  | .preamble => match (roundMoves x.n x.rank)[y.round]? with
    | some (.recv r _) => r
    | _ => none_
  | .counts => ((List.range x.n).find? fun j => j != x.rank && (tget y.counts j).isNone).getD none_
  | _ => none_

def State.stepNumber (s : State) (x : Comm) (y : Coll) : Nat :=
  match (s.collPlan x y).1[y.pos]? with
  | some t => if y.st == .data then t.num else 0
  | none => 0

/-- PROGRESS_TIMER without a byte moved. -/
def State.collSlow (s : State) (c k : Nat) : State :=
  match s.comm c with
  | none => s
  | some x =>
    match x.coll k with
    | none => s
    | some y =>
      if y.st == .queued then s
      else
        let s := s.advanceTo (nextMs (y.lastMove + (y.slow + 1) * s.obj Row.progressTimer * 1000000))
        let s := s.updColl c k fun y => { y with slow := y.slow + 1 }
        s.raiseTo x.func 0x0701 x.number (y.seq + s.stepNumber x y % 65536 * 65536) (s.awaited x y)

def State.collTimeout (s : State) (c k : Nat) : State :=
  match s.comm c with
  | none => s
  | some x =>
    match x.coll k with
    | none => s
    | some y =>
      let s := s.advanceTo (nextMs (y.since + s.obj Row.collTimeout * 1000000))
      s.endColl c k 0x11 (s.awaited x y) (some 0x11) none

/-- R469: what a drain's time limit does to a collective. -/
def State.drainColl (s : State) (c k : Nat) : State :=
  match s.coll c k with
  | none => s
  | some y => s.endColl c k (if y.committed then 0x13 else 0x08) 0 (some 0x13) none

end Sys2Proof.Machine
end

