-- ==== Sys2Proof/Machine/Apply.lean ====
section
/-! DEFINITION. Shards and the apply phase of REDUCE_APPLY (R315-R326), and the objects a function loads into its share
of STATE: schedules, bindings, kernels and shards (R269, R309, R315, R318, R328). -/

namespace Sys2Proof.Machine

/-! ## Streams (R316) -/

def streamElem (fmt : Nat) : Nat := if fmt = 0 then 0 else recBytes fmt

def streamBytes (len fmt : Nat) : Nat := roundUp (len * streamElem fmt) 4096

/-- Format of stream 1 P, 2 M1, 3 M2. -/
def Shard.fmt (h : Shard) (stream : Nat) : Nat := if stream = 1 then h.pFmt else if stream = 2 then h.m1Fmt else h.m2Fmt

/-- Offset in the share of STATE of a stream. -/
def Shard.stream (h : Shard) (k : Nat) : Nat :=
  h.base + (if 2 ≤ k then streamBytes h.length h.pFmt else 0) + (if 3 ≤ k then streamBytes h.length h.m1Fmt else 0)

/-- Bytes of the stream area. -/
def Shard.area (h : Shard) : Nat := streamBytes h.length h.pFmt + streamBytes h.length h.m1Fmt + streamBytes h.length h.m2Fmt

/-- A shard record with its CRC (Table 14-2). -/
def Shard.recBytes (h : Shard) (step status : Nat) : List Byte :=
  let b := leBytes 8 h.count ++ leBytes 8 h.first ++ leBytes 8 h.length ++ leBytes 8 step ++
    leBytes 1 h.pFmt ++ leBytes 1 h.m1Fmt ++ leBytes 1 h.m2Fmt ++ leBytes 1 h.qFmt ++ leBytes 1 status ++ leBytes 3 0 ++
    leBytes 8 h.base ++ leBytes 12 0
  b ++ leBytes 4 (crc32c b)

/-! ## The apply phase -/

/-- The collective stands at its apply phase: every step of the reduce-scatter is done. -/
def State.applyReady (s : State) (x : Comm) (y : Coll) : Bool := y.st == .data && y.atApply (s.collPlan x y).2

/-- Scalar slots S0-S15 after the SCALAR words (R329). -/
def startScalars (kn : Kernel) (given : List (BitVec 32)) (t : Nat) : List (BitVec 32) :=
  runScalars t kn.words ((given ++ List.replicate 16 0).take 8 ++ List.replicate 8 0)

/-- Groups of 32 consecutive elements in a shard (R325). -/
def Shard.groups (h : Shard) : Nat := ceilDiv h.length 32

/-- The place among some element ranges of the last that meets group `g`: that of its last combine. -/
def Shard.finalAt (h : Shard) (finals : List (Nat × Nat)) (g : Nat) : Nat :=
  let lo := h.first + 32 * g
  (((List.range finals.length).filter fun i => match finals[i]? with
    | some r => decide (r.1 < lo + 32) && decide (lo < r.2)
    | none => false).getLast?).getD 0

/-- The shard's groups in the order their G became final (R325); in the order of their elements where that is one combine or none. -/
def Shard.groupOrder (h : Shard) (finals : List (Nat × Nat)) : List Nat :=
  (List.range (max 1 finals.length)).flatMap fun i => (List.range h.groups).filter fun g => h.finalAt finals g == i

/-- R324: STATUS TORN is written, and the collective reaches its commit point. -/
def State.applyBegin (s : State) (c k : Nat) : State :=
  match s.comm c with
  | none => s
  | some x =>
    match x.coll k, (x.coll k).bind (fun y => s.kernel x.func (kernelId y.sqe)),
        (x.coll k).bind (fun y => s.shard x.func (shardId y.sqe)) with
    | some y, some kn, some h =>
      if !s.applyReady x y || s.applyHeld then s
      else
        let step := leField (s.stateRead x.func h.record 64) 24 8
        let s := s.useImage true (fid x.func (kernelId y.sqe)) kn.length (s.stateAddr x.func kn.dest)
        let s := s.stateWrite x.func h.record (h.recBytes step 1)
        s.updColl c k fun y => { y with
          st := .apply, committed := true, lastMove := s.timer
          apply := some ⟨startScalars kn y.scalars (step + 1), step + 1, h.groupOrder y.finals, [], blankVec h.qFmt h.length⟩ }
    | _, _, _ => s

/-- One element of a group: what the kernel stores, from its G and stream values. -/
def applyElement (kn : Kernel) (slots : List F32) (g p m1 m2 : F32) : List (Nat × F32) :=
  runElement slots [g, p, m1, m2] kn.words (List.replicate 8 0) []

/-- FP32 values of `n` elements of a stream from shard element `lo`; an absent stream reads +0. -/
def State.streamValues (s : State) (f : Nat) (h : Shard) (k lo n : Nat) : List F32 :=
  let fmt := h.fmt k
  if fmt = 0 then List.replicate n 0
  else (decodeVec fmt (s.stateRead f (h.stream k + lo * streamElem fmt) (n * streamElem fmt))).map rnd32

/-- The class-2 reads of a group's streams (Table 01-3, R325). -/
def State.askStreams (s : State) (f : Nat) (h : Shard) (lo n : Nat) : State :=
  eachDo [1, 2, 3] (fun k s =>
    s.memAskRange 2 (s.stateAddr f (h.stream k + lo * streamElem (h.fmt k))) (n * streamElem (h.fmt k))) s

/-- The value each element stores to stream `k`, when the kernel stores to it. -/
def storedTo (outs : List (List (Nat × F32))) (k : Nat) : List Num :=
  outs.map fun o => match o.find? fun p => p.1 == k with
    | some p => numOf p.2
    | none => Num.zero

/-- Write a stream's results for a group. -/
def State.storeStream (s : State) (f : Nat) (h : Shard) (kn : Kernel) (lo : Nat) (outs : List (List (Nat × F32))) (k : Nat) : State :=
  if !kn.writes.testBit k || h.fmt k = 0 then s
  else
    let (b, bey) := encodeVec (h.fmt k) kn.round [] (storedTo outs k)
    let off := h.stream k + lo * streamElem (h.fmt k)
    ((s.countBeyonds bey).memAskRange 2 (s.stateAddr f off) b.length).stateWrite f off b

/-- R323-R325: a group runs the kernel; its streams and its part of Q are written. -/
def State.runGroup (s : State) (c k group : Nat) : State :=
  match s.comm c with
  | none => s
  | some x =>
    match x.coll k, (x.coll k).bind (fun y => s.kernel x.func (kernelId y.sqe)),
        (x.coll k).bind (fun y => s.shard x.func (shardId y.sqe)), (x.coll k).bind Coll.apply with
    | some y, some kn, some h, some a =>
      let lo := group * 32
      let n := min 32 (h.length - lo)
      let gs := (readElems y.fmt y.data (h.first + lo) (h.first + lo + n))
      let gv := gs.map rnd32
      let p := s.streamValues x.func h 1 lo n
      let m1 := s.streamValues x.func h 2 lo n
      let m2 := s.streamValues x.func h 3 lo n
      let outs := (List.range n).map fun i =>
        applyElement kn a.scalars (gv.getD i 0) (p.getD i 0) (m1.getD i 0) (m2.getD i 0)
      let s := ((s.bump Row.applyGroups).issueGroups 1).askStreams x.func h lo n
      let s := if gs.any (fun v => !v.finite) then s.bumpBoth Row.nonfiniteG Row.vfNonfiniteG x.func else s
      let s := eachDo [1, 2, 3] (fun k s => s.storeStream x.func h kn lo outs k) s
      let (q, bey) := encodeVec h.qFmt kn.round [] (storedTo outs 4)
      let s := s.countBeyonds bey
      let s := s.updColl c k fun y => { y with
        lastMove := s.timer
        apply := y.apply.map fun a => { a with done := a.done ++ [group], q := putRecords h.qFmt a.q lo q } }
      eachDo y.outputs (fun o s => s.collWrite c k o.key o.addr.toNat h.qFmt y.count (h.first + lo) q) s
    | _, _, _, _ => s

/-- A group may be issued: the phase runs, and it is the next in the order in which G became final (R14, R325). -/
def State.groupDue (s : State) (c k group : Nat) : Bool :=
  match s.comm c with
  | none => false
  | some x =>
    match x.coll k, (x.coll k).bind (fun y => s.shard x.func (shardId y.sqe)), (x.coll k).bind Coll.apply with
    | some y, some h, some a =>
      y.st == .apply && decide (group < h.groups) &&
        a.order.find? (fun g => !a.done.contains g && !y.disputed.any fun d => d.1.step == g) == some group
    | _, _, _ => false

/-- The waiting form of a group whose issue is under arbitration (R339). -/
def groupWaiting (group : Nat) : Waiting := ⟨0xFFFFFFFF, group, 0, [], false⟩

def State.applyGroup (s : State) (c k group : Nat) (rau : Option RauFault) : State :=
  if !s.groupDue c k group then s
  else match rau with
    | none => s.runGroup c k group
    | some f => s.updColl c k fun y => { y with disputed := y.disputed ++ [(groupWaiting group, f.unit.val)] }

/-- R326: the record gets STEP + 1 and CLEAN, and the all-gather begins with the member's own block of Q. -/
def State.applyPhaseEnd (s : State) (c k : Nat) : State :=
  match s.comm c with
  | none => s
  | some x =>
    match x.coll k, (x.coll k).bind (fun y => s.shard x.func (shardId y.sqe)), (x.coll k).bind Coll.apply with
    | some y, some h, some a =>
      if y.st != .apply || a.done.length < h.groups then s
      else
        let s := s.stateWrite x.func h.record (h.recBytes a.t 0)
        let s := s.bump Row.applyPhases
        let s := s.updColl c k fun y => { y with
          st := .data, fmt := h.qFmt, lastMove := s.timer, slow := 0
          data := putRecords h.qFmt (blankVec h.qFmt y.count) h.first a.q, apply := none }
        s.runColl c k
    | _, _, _ => s

/-- A disputed payload or group whose result stands (R339-R341). -/
def State.resolveDispute (s : State) (c k : Nat) (w : Waiting) : State :=
  match s.comm c with
  | none => s
  | some x =>
    match x.coll k with
    | none => s
    | some y =>
      let s := s.updColl c k fun y => { y with disputed := y.disputed.filter fun d => d.1 != w }
      if y.st == .apply then s.runGroup c k w.step
      else match (s.collPlan x y).1[y.pos]? with
        | some t => if w.for_ t then (s.usePayload c k t w).runColl c k else s
        | none => s

/-- The collectives that wait for the verdict on physical unit `u`. -/
def State.disputesOf (s : State) (u : Nat) : List (Nat × Nat × Waiting) :=
  s.inFlight.flatMap fun p => (p.2.2.disputed.filter fun d => d.2 == u).map fun d => (p.1, p.2.2.k, d.1)

/-! ## Ranges of STATE in use -/

/-- Ranges [lo, hi) of function `f`'s share of STATE: member tables, schedule images, kernels, bindings with their
areas, and shards. -/
def State.commRanges (s : State) (f : Nat) : List (Nat × Nat) :=
  (s.colls.comms.filter fun p => p.2.func == f && !p.2.freeing).map fun p => (p.2.dest, p.2.dest + 8 * p.2.n)

def State.schedRanges (s : State) (f : Nat) : List (Nat × Nat) :=
  (s.colls.scheds.filter fun p => p.1 / 65536 == f).map fun p => (p.2.dest, p.2.dest + p.2.length)

def State.kernelRanges (s : State) (f : Nat) : List (Nat × Nat) :=
  (s.colls.kernels.filter fun p => p.1 / 65536 == f).map fun p => (p.2.dest, p.2.dest + p.2.length)

def Binding.ranges (b : Binding) : List (Nat × Nat) :=
  (b.record, b.record + 64) :: b.areas.filterMap fun a => a.map fun a => (a, a + 8 * b.count)

def State.bindRanges (s : State) (f : Nat) : List (Nat × Nat) :=
  (s.colls.bindings.filter fun p => p.1 / 65536 == f).flatMap fun p => p.2.ranges

def Shard.ranges (h : Shard) : List (Nat × Nat) := [(h.record, h.record + 64), (h.base, h.base + h.area)]

def State.shardRanges (s : State) (f : Nat) : List (Nat × Nat) :=
  (s.colls.shards.filter fun p => p.1 / 65536 == f).flatMap fun p => p.2.ranges

def rangeMeets (a b : Nat × Nat) : Bool := decide (a.1 < b.2) && decide (b.1 < a.2)

def rangesMeet (as bs : List (Nat × Nat)) : Bool := as.any fun a => bs.any (rangeMeets a)

def State.stateInUse (s : State) (f : Nat) (rs : List (Nat × Nat)) : Bool :=
  rangesMeet rs (s.commRanges f ++ s.schedRanges f ++ s.kernelRanges f ++ s.bindRanges f ++ s.shardRanges f)

/-- A collective in flight for which `p` holds. -/
def State.collUses (s : State) (f : Nat) (p : Coll → Bool) : Bool := s.inFlight.any fun t => t.2.1.func == f && p t.2.2

/-! ## SHARD_XFER (R318) -/

/-- A transfer ends: outcome 0 done, 1 read or write failed, 2 uncorrectable stream read; `moved` elements moved, with
the bytes a load brought. A store's writes go out on PATH. -/
def State.xferDone (s : State) (f id outcome moved : Nat) (bytes : List Byte) : State :=
  match s.shard f id with
  | none => s
  | some h =>
    match h.xfer with
    | none => s
    | some (dir, stream, path, start, elements, addr) =>
      let n := min moved elements
      let e := streamElem (h.fmt stream)
      let at0 := h.stream stream + start * e
      let lost := if outcome = 0 then 0 else (elements - n) * e
      let s := if dir = 0 then (s.stateWrite f at0 (slice bytes 0 (n * e))).memFree (s.stateAddr f (at0 + n * e)) lost
        else if n = 0 then s else s.placeWrite path addr (s.stateRead f at0 (n * e))
      let s := { s with colls := { s.colls with shards := tput s.colls.shards (fid f id) { h with xfer := none } } }
      s.raiseTo f 0x0802 id outcome n

end Sys2Proof.Machine
end

