-- ==== Sys2Proof/Machine/Context.lean ====
section
/-! DEFINITION. The context store: hot, warm and host-backed tiers, fetches, eviction, and the cold frame (chapter 8). -/

namespace Sys2Proof.Machine

def hotCapacity : Nat := 1048576

/-- R186: QPs whose local number is at or above HB_LOCAL_FIRST are host-backed. -/
def State.hostBacked (s : State) (q : Nat) : Bool :=
  let first := s.obj Row.hbLocalFirst
  let n := s.local totalQps q
  first != 0 && decide (first < s.qCount) && decide (first ≤ n)

/-- Host bus address of a host-backed context (R186). -/
def State.poolAddr (s : State) (q : Nat) : Nat :=
  let first := s.obj Row.hbLocalFirst
  let share := if s.qCount = 0 then 0 else q / s.qCount
  s.obj Row.hbPoolBase + (share * (s.qCount - first) + (s.local totalQps q - first)) * 256

/-- HB_POOL_SIZE. -/
def State.poolSize (s : State) : Nat :=
  let first := s.obj Row.hbLocalFirst
  if first = 0 || s.qCount ≤ first then 0 else s.shares * (s.qCount - first) * 256

def State.hotQps (s : State) : List Nat := (s.wq.qps.filter fun p => p.2.tier == .hot).map Prod.fst

def State.freeHot (s : State) : Nat := hotCapacity - s.hotQps.length

def State.isHot (s : State) (q : Nat) : Bool :=
  match s.qp q with
  | some x => x.tier == .hot
  | none => false

/-- The tier of QP `q` outside the hot one (R186). -/
def State.coldTier (s : State) (q : Nat) : Tier := if s.hostBacked q then .hostBacked else .warm

/-! ## Pinning (R192) -/

def ringPinned (r : Ring) : Bool := (r.armed && r.poll != 0) || r.reread.isSome

/-- Conditions of R192 that the QP's own context shows. -/
def Qp.busy (x : Qp) : Bool :=
  x.wqes.any (fun w => !w.ended) || x.req.una != x.req.nxt ||
  x.resp.window.any (fun p => p.2.st == .held) || decide (0 < x.resp.unreported) ||
  ringPinned x.sq || x.rq.any ringPinned

/-- A control command acts on QP `q` (R192). -/
def State.commanded (s : State) (q : Nat) : Bool :=
  match s.mgmt.busy with
  | some (.flush n, _) => n == q
  | some (.fetch n, _) => n == q
  | _ => false

/-- Packets of QP `q` wait for their egress. -/
def State.leaving (s : State) (q : Nat) : Bool := s.traffic.egress.any fun e => e.2.queue.any fun k => !k.transit && k.qpn == q

/-- R192: a hot context that is not evicted. A COLL QP's communicator with a collective in flight pins it. -/
def State.pinned (s : State) (q : Nat) (x : Qp) : Bool :=
  x.busy || s.ctx.parked.any (fun k => k.arrival.pkt.dstQpn.toNat == q) || s.leaving q || s.commanded q || x.freeing ||
  x.st == .frozen || s.funcSt x.func == 2 ||
  (match x.comm with
    | some c => s.commInFlight c
    | none => false)

def State.pinnedNow (s : State) : Nat :=
  (s.wq.qps.filter fun p => p.2.tier == .hot && s.pinned p.1 p.2).length

/-! ## Eviction (R193) -/

/-- The CRC-32C of a context image: over its bytes 0-251 and the global QPN, most significant byte first (R188). -/
def contextCrc (q : Nat) (b : List Byte) : Nat := crc32c (b.take 252 ++ beBytes 3 q)

/-- R188: the check of every install. -/
def contextOk (q : Nat) (image : List Byte) : Bool := leField image 252 4 == contextCrc q image

/-- The image of a context as it is written back: bytes 0-251 are laid out by the firmware, and free (R188). -/
def State.contextImage (s : State) (q : Nat) : List Byte :=
  let b := outsideBytes s.freeCount 252
  b ++ leBytes 4 (contextCrc q b)

/-- Write-backs buffered at an earlier instant have been presented: those of host-backed contexts as posted writes (R186,
R193, notes/assumptions/77). -/
def State.presentWritebacks (s : State) : State :=
  let old := s.ctx.writeback.filter fun w => decide (w.2 < s.timer)
  let s := { s with ctx := { s.ctx with writeback := s.ctx.writeback.filter fun w => !decide (w.2 < s.timer) } }
  eachDo (old.map Prod.fst) (fun q s =>
    if s.hostBacked q then (s.emit (.contextWrite (s.poolAddr q) (s.contextImage q))).useFree else s.memAsk 1 (q * 256)) s

/-- The write-back of context `q` enters the buffer. -/
def State.writeBack (s : State) (q : Nat) : State :=
  { s with ctx := { s.ctx with writeback := (s.ctx.writeback.filter fun w => w.1 != q) ++ [(q, s.timer)] } }

/-- Evict a context: a changed one is written back to its tier first (R188, R193). -/
def State.evict (s : State) (q : Nat) (x : Qp) : State :=
  let s := s.bump Row.evictCount
  let s := if x.dirty then (s.bump Row.writebackCount).writeBack q else s
  { s.setQp q { x with tier := s.coldTier q, dirty := false, referenced := false } with
    ctx := { s.ctx with hand := q + 1 } }

/-- One step of the sweep over context `q`. -/
def State.sweepOne (s : State) (q : Nat) : State :=
  match s.qp q with
  | none => s
  | some x =>
    if x.tier != .hot || s.pinned q x then s
    else if x.referenced then s.setQp q { x with referenced := false }
    else s.evict q x

/-- Pass over the given contexts until free slots reach `goal`. -/
def State.sweepList : List Nat → Nat → State → State
  | [], _, s => s
  | q :: qs, goal, s => if goal ≤ s.freeHot then s else State.sweepList qs goal (s.sweepOne q)

/-- Hot contexts in sweep order from the clock hand on. -/
def State.sweepOrder (s : State) : List Nat :=
  let h := s.hotQps
  (h.filter fun q => decide (s.ctx.hand ≤ q)) ++ h.filter fun q => decide (q < s.ctx.hand)

/-- Two turns of the clock: the first clears referenced bits. -/
def State.sweepTo (s : State) (goal : Nat) : State :=
  let o := s.sweepOrder
  s.sweepList (o ++ o) goal

/-- R193: below HOT_LOW_WATERMARK, sweep until HOT_HIGH_WATERMARK slots are free. -/
def State.evictionSweep (s : State) : State :=
  if s.freeHot < s.obj Row.hotLowWatermark then s.sweepTo (s.obj Row.hotHighWatermark) else s

/-! ## Fetches (R189-R191, R195) -/

def State.fetchRunning (s : State) (q : Nat) : Bool :=
  s.ctx.fetching.any (fun f => f.1 == q) || s.ctx.slotWait.contains q

/-- Issue the fetch of context `q`. One whose write-back is not yet presented comes from the write-back buffer, without a
read, and counts as a warm miss (R194, R203). -/
def State.issueFetch (s : State) (q : Nat) (port : Option Nat) : State :=
  let s := s.presentWritebacks
  let buffered := s.ctx.writeback.any fun w => w.1 == q
  let s := if buffered then s.bump Row.warmMiss
    else if !s.hostBacked q then (s.bump Row.warmMiss).memAsk 1 (q * 256)
    else (s.bump Row.hbMiss).emit (.contextRead (s.poolAddr q))
  { s with ctx := { s.ctx with fetching := s.ctx.fetching ++ [(q, port)] } }

/-- R190: at most one fetch per context, and at most 1,024 in flight for a port's packets. -/
def State.wantFetch (s : State) (q : Nat) (port : Option Nat) : State :=
  if s.fetchRunning q || s.ctx.fetchWait.any (fun f => f.2 == q) then s
  else match port with
    | none => s.issueFetch q none
    | some p =>
      if 1024 ≤ (s.ctx.fetching.filter fun f => f.2 == some p).length then
        { s with ctx := { s.ctx with fetchWait := s.ctx.fetchWait ++ [(p, q)] } }
      else s.issueFetch q (some p)

/-- R190: a tracking entry of port `p` frees, and a waiting miss issues its fetch. -/
def State.fetchEntryFree (s : State) (p : Nat) : State :=
  if 1024 ≤ (s.ctx.fetching.filter fun f => f.2 == some p).length then s
  else
    let live := s.ctx.fetchWait.filter fun f => !(s.fetchRunning f.2 || s.isHot f.2)
    let s := { s with ctx := { s.ctx with fetchWait := live } }
    match live.find? fun f => f.1 == p with
    | none => s
    | some f => ({ s with ctx := { s.ctx with fetchWait := s.ctx.fetchWait.erase f } }).issueFetch f.2 (some p)

/-- Make context `q` hot. -/
def State.setHot (s : State) (q : Nat) : State := s.updQp q fun x => { x with tier := .hot, referenced := true, dirty := false }

/-- An access to context `q` other than by a packet: with the context hot it goes on; otherwise the context is fetched, or the
fetch in flight is joined, and nothing else happens yet (R190, R191). A LOST QP is not served. -/
def State.withContext (s : State) (q : Nat) (go : State → State) : State :=
  match s.qp q with
  | none => s
  | some x => if x.lost || x.freeing then s else if x.tier == .hot then go (s.access q) else s.wantFetch q none

/-! ## Parking (R196-R199) -/

def isReply (o : Byte) : Bool := decide (0x20 ≤ o.toNat)

/-- Cells a packet takes (R196). -/
def parkCells (p : Packet) : Nat := ceilDiv (40 + p.payloadLen.toNat + (if p.enc then 16 else 0)) 256

def State.parkedOn (s : State) (port : Nat) : List Parked := s.ctx.parked.filter fun k => k.arrival.port.val == port

def State.cellsUsed (s : State) (port : Nat) : Nat := ((s.parkedOn port).map Parked.cells).sum

def State.requestCells (s : State) (port : Nat) : Nat :=
  (((s.parkedOn port).filter fun k => !isReply k.arrival.pkt.opcode).map Parked.cells).sum

def State.roomFor (s : State) (a : Arrival) : Bool :=
  let n := parkCells a.pkt
  decide (s.cellsUsed a.port.val + n ≤ 8192) &&
    (isReply a.pkt.opcode || decide (s.requestCells a.port.val + n ≤ 7168))

def natMean (l : List Nat) : Nat := if l.length = 0 then 0 else l.sum / l.length

/-- Mean park residency of a port in ns (R199). -/
def State.meanResidency (s : State) (port : Nat) : Nat := natMean ((tget s.ctx.residency port).getD [])

/-- RETRY_HINT in µs (R199). -/
def State.retryHint (s : State) (port : Nat) : Nat :=
  let l := (tget s.ctx.residency port).getD []
  let lo := s.obj Row.parkHintMin
  let hi := s.obj Row.parkHintMax
  let h := if l.length = 0 then 0 else ceilDiv (2 * l.sum) (l.length * 1000)
  min hi (max (min lo hi) h)

/-- R198: a PARK_FULL NAK built from the packet's header alone, with ENC = 0. -/
def State.parkFullNak (s : State) (q : Nat) (p : Packet) (hint : Nat) : State :=
  let (f, src) := match s.qp q with
    | some x => (x.func, s.sourceOf x)
    | none => (0, s.ownAddress)
  let nak : Packet :=
    { version := 1, dstModule := p.srcModule, srcModule := src, dstQpn := p.srcQpn, srcQpn := p.dstQpn
      opcode := 0x31, flags := 0, psn := p.psn, msgId := 0, remoteAddr := 0, key := 0, payloadLen := 0
      pktOffset := 0, aux := BitVec.ofNat 32 (hint * 2 ^ 16 + 0x20), payload := [] }
  { s with wq := { s.wq with outbox := s.wq.outbox ++ [QPkt.made nak f q s.timer] } }

/-- R198: a packet that cannot be parked. -/
def State.refusePark (s : State) (a : Arrival) (q : Nat) (x : Qp) : State :=
  let p := a.pkt
  let port := a.port.val
  if isReply p.opcode || x.type == .ud then s.bump Row.parkDrop
  else if s.ctx.suppress.any (fun e => e.1 == port && e.2.1 == p.srcModule && e.2.2.1 == p.dstQpn) then
    s.bump Row.parkSuppressed
  else
    let hint := s.retryHint port
    let s := (s.bump Row.parkFullSent).parkFullNak q p hint
    if 64 ≤ (s.ctx.suppress.filter fun e => e.1 == port).length then s
    else { s with ctx := { s.ctx with
      suppress := s.ctx.suppress ++ [(port, p.srcModule, p.dstQpn, s.timer + hint * 1000)] } }

/-- Park a packet and have its context fetched, or refuse it. -/
def State.park (s : State) (a : Arrival) (q : Nat) (x : Qp) : State :=
  if s.roomFor a then
    let s := s.bump Row.parkedCount
    let s := { s with ctx := { s.ctx with parked := s.ctx.parked ++ [⟨a, parkCells a.pkt, s.timer⟩] } }
    if x.tier == .hot then s else s.wantFetch q (some a.port.val)
  else s.refusePark a q x

/-- A suppression entry lapses (R198). -/
def State.suppressionLapse (s : State) (port : Nat) (src : ModAddr) (q : Qpn) : State :=
  match s.ctx.suppress.find? fun e => e.1 == port && e.2.1 == src && e.2.2.1 == q with
  | none => s
  | some e => { s.advanceTo e.2.2.2 with ctx := { s.ctx with suppress := s.ctx.suppress.erase e } }

/-- Whether a packet for `q` parks: its context is not hot, or an earlier packet of the QP is parked (R197). -/
def State.mustPark (s : State) (q : Nat) (x : Qp) : Bool :=
  x.tier != .hot || s.ctx.parked.any fun k => k.arrival.pkt.dstQpn.toNat == q

/-! ## Release -/

/-- Parked packets of `q`, in arrival order. -/
def State.parkedOf (s : State) (q : Nat) : List Parked := s.ctx.parked.filter fun k => k.arrival.pkt.dstQpn.toNat == q

def State.dropParked (s : State) (q : Nat) : State :=
  { s with ctx := { s.ctx with parked := s.ctx.parked.filter fun k => k.arrival.pkt.dstQpn.toNat != q } }

/-- A released packet's residency (R199). -/
def State.noteResidency (s : State) (k : Parked) : State :=
  let port := k.arrival.port.val
  let l := (tget s.ctx.residency port).getD []
  { s with ctx := { s.ctx with residency := tput s.ctx.residency port (((s.timer - k.since) :: l).take 1024) } }

/-- Release the parked packets of `q`; each continues from the context lookup as `handle` says (R197). -/
def State.release (handle : Arrival → Nat → State → State) (s : State) (q : Nat) : State :=
  let ks := s.parkedOf q
  let s := s.dropParked q
  eachDo ks (fun k s => handle k.arrival k.since (s.noteResidency k)) s

/-- After an install: ring reads that waited (R191) and the parked packets. -/
def State.installed (handle : Arrival → Nat → State → State) (s : State) (q : Nat) : State :=
  let s := s.setHot q
  let s := (s.readHead (.send q)).readHead (.recv q)
  s.release handle q

/-- A context obtains a slot, if need be by the sweep (notes/assumptions/14). -/
def State.findSlot (s : State) : State := if 0 < s.freeHot then s else s.sweepTo 1

/-- A new context takes a hot slot where one can be had; otherwise it goes to its tier (notes/assumptions/12). -/
def State.addQp (s : State) (q : Nat) (x : Qp) : State :=
  let s := s.findSlot
  if 0 < s.freeHot then s.setQp q { x with tier := .hot, referenced := true, dirty := true }
  else (s.setQp q { x with tier := s.coldTier q }).writeBack q

/-- R195: no slot. -/
def State.hotExhausted (s : State) (q : Nat) : State :=
  let s := s.bump Row.hotExhaustedCount
  let s := { s with ctx := { s.ctx with slotWait := s.ctx.slotWait ++ [q] } }
  let told := match s.ctx.lastExhausted with
    | some t => decide (s.timer < t + 1000000000)
    | none => false
  if told then s else { s.raisePfUncoded 0 with ctx := { s.ctx with lastExhausted := some s.timer } }

/-- QP `q` is LOST: no CQE that waits is written for it any more (R201). -/
def State.lose (s : State) (q : Nat) : State :=
  let s := s.updQp q fun x => { x with lost := true }
  { s with wq := { s.wq with cqWait := s.wq.cqWait.filter fun w => w.qpn != q } }

/-- R201: the install fails its check. -/
def State.contextLost (s : State) (q : Nat) (x : Qp) : State :=
  let s := (s.bump Row.contextCheckFail).lose q
  let s := s.bump Row.contextLostDrop (s.parkedOf q).length
  let s := s.dropParked q
  s.raiseBoth x.func 0x0401 (s.local totalQps q)

/-- R189, R195, R201: a fetch returns. -/
def State.fetchDone (handle : Arrival → Nat → State → State) (s : State) (q : Nat) (image : List Byte) : State :=
  if !s.ctx.fetching.any (fun f => f.1 == q) then s
  else
    let s := { s with ctx := { s.ctx with fetching := s.ctx.fetching.filter fun f => f.1 != q } }
    match s.qp q with
    | none => s
    | some x =>
      if !contextOk q image then s.contextLost q x
      else
        let s := s.findSlot
        if 0 < s.freeHot then s.installed handle q else s.hotExhausted q

/-- R195: a context that waited obtains a slot. -/
def State.hotSlot (handle : Arrival → Nat → State → State) (s : State) : State :=
  match s.ctx.slotWait with
  | [] => s
  | q :: qs =>
    let s := s.findSlot
    if s.freeHot = 0 then s
    else
      let s := { s with ctx := { s.ctx with slotWait := qs } }
      if (s.qp q).isSome then s.installed handle q else s

/-- R200: a host-backed fetch fails. -/
def State.fetchFail (s : State) (q : Nat) : State :=
  if !s.hostBacked q || !s.ctx.fetching.any (fun f => f.1 == q) then s
  else
    let s := { s with ctx := { s.ctx with fetching := s.ctx.fetching.filter fun f => f.1 != q } }
    let s := s.bump Row.hbFetchFail
    let s := s.bump Row.parkDrop (s.parkedOf q).length
    let s := s.dropParked q
    match s.qp q with
    | none => s
    | some x => s.raiseBoth x.func 0x0402 (s.local totalQps q)

/-- Entry into HOLD: parked packets are dropped, and every host-backed QP is LOST (R187, R197). -/
def State.holdContexts (s : State) : State :=
  let s := s.bump Row.parkDrop s.ctx.parked.length
  let s := { s with ctx := { s.ctx with parked := [], fetching := [], fetchWait := [], slotWait := [], writeback := [] } }
  eachDo (tkeys s.wq.qps) (fun q s => if s.hostBacked q then s.lose q else s) s

/-- R202: DESTROY_QP drops the QP's parked packets. -/
def State.dropParkedOf (s : State) (q : Nat) : State :=
  (s.bump Row.unknownQpDrop (s.parkedOf q).length).dropParked q

/-- R191: a doorbell prefetches a context that is not hot. -/
def State.prefetch (s : State) (q : Nat) : State := s.withContext q id

/-- QP `q` is being brought in: it exists, is not LOST and is not hot. -/
def State.contextAwaited (s : State) (q : Nat) : Bool := (s.qp q).any fun x => !x.lost && !x.freeing && x.tier != .hot

end Sys2Proof.Machine
end

