-- ==== Sys2Proof/Machine/Integrity.lean ====
section
/-! DEFINITION. Arithmetic integrity: arbitration, spares and substitution, rotation, patina records and field-learnt
patterns (chapter 15, R40). -/

namespace Sys2Proof.Machine

/-! ## Units -/

/-- RAU_ROLE: 0 active, 1 spare, 2 retired, 3 rotated out for scan. -/
def State.role (s : State) (u : Nat) : Nat := s.obj Row.rauRole u

/-- Units that run a replay now. -/
def State.replaying (s : State) : List Nat := s.reliab.arbs.filterMap Arb.replay

def State.underArb (s : State) (u : Nat) : Bool := s.reliab.arbs.any fun a => a.unit == u

def State.underScan (s : State) (u : Nat) : Bool :=
  match s.reliab.scan with
  | some p => p.1 == u
  | none => false

/-- Spares free now, lowest physical number first (R339, R345). -/
def State.freeSpares (s : State) : List Nat :=
  (List.range 68).filter fun u => s.role u == 1 && !s.underScan u && !s.underArb u && !s.replaying.contains u

/-- The object of unit `u` as the offending object of R343 and R344. -/
def rauWord (u : Nat) : Nat := offendingWord (0x3500 + u) 1

/-- Give a logical position to a unit. -/
def State.seat (s : State) (u pos : Nat) : State := (s.setObj Row.rauRole 0 u).setObj Row.rauLogical pos u

/-- Take a unit out of its position with a new role. -/
def State.unseat (s : State) (u role : Nat) : State := (s.setObj Row.rauRole role u).setObj Row.rauLogical 0xFF u

/-- The unit that takes a vacated position: the preferred one when it is a spare, else the lowest free spare. -/
def State.successor (s : State) (prefer : Option Nat) : Option Nat :=
  match prefer.filter fun v => s.role v == 1 with
  | some v => some v
  | none => s.freeSpares.head?

/-- Give position `pos` (0xFF: none was held) of unit `u` to its successor; with none, 0x0805_0002 (R344). -/
def State.refill (s : State) (u pos : Nat) (prefer : Option Nat) : State × Option Nat :=
  if pos = 0xFF then (s, none)
  else match s.successor prefer with
    | some v => (s.seat v pos, some v)
    | none => (s.faultEvent 0x08050002 (rauWord u), none)

/-- R344: retire a unit. -/
def State.retire (s : State) (u cause : Nat) (prefer : Option Nat) : State × Option Nat :=
  let pos := s.obj Row.rauLogical u
  let s := s.unseat u 2
  let (s, new) := s.refill u pos prefer
  (s.raisePf 0x0D01 0 u (cause + new.getD 0xFF * 256), new)

/-- Rotate a replay unit out for a scan outside the rotation order (Table 15-2). -/
def State.sendToScan (s : State) (u : Nat) : State :=
  if s.role u ≥ 2 then s
  else
    let pos := s.obj Row.rauLogical u
    let s := s.unseat u 3
    let s := (s.refill u pos none).1
    { s with reliab := { s.reliab with waiting := s.reliab.waiting ++ [u] } }

/-! ## Replay units (R339, R341) -/

/-- The replay unit of an arbitration of `u`, other than `not_`: a free spare, else a borrowed active unit, one at a
time. -/
def State.replayFor (s : State) (u : Nat) (not_ : Option Nat) : Option Nat :=
  match s.freeSpares.filter fun v => some v != not_ with
  | v :: _ => some v
  | [] =>
    if s.replaying.any fun v => s.role v == 0 then none
    else (s.activeUnits.filter fun v => v != u && some v != not_ && !s.underArb v).head?

/-- No replay is possible at all (R343). -/
def State.noReplay (s : State) : Bool := s.freeSpares.isEmpty && decide (s.activeUnits.length ≤ 1)

/-- Arbitrations that wait for a unit take one, in the order of their mismatches. -/
def State.assignReplays (s : State) : State :=
  eachDo (s.reliab.arbs.filter fun a => a.replay.isNone) (fun a s =>
    let r := s.replayFor a.unit a.failed
    { s with reliab := { s.reliab with arbs := s.reliab.arbs.map fun b => if b.unit = a.unit then { b with replay := r } else b } }) s

def State.closeArb (s : State) (u : Nat) : State :=
  { s with reliab := { s.reliab with arbs := s.reliab.arbs.filter fun a => a.unit != u } }

/-! ## Results of an arbitration -/

/-- Every disputed issue of unit `u` is released with its result (R340). -/
def State.releaseDisputes (s : State) (u : Nat) : State :=
  eachDo (s.disputesOf u) (fun d s => s.resolveDispute d.1 d.2.1 d.2.2) s

/-- SEQ of the collective that owns an issue of unit `u`, zero for none. -/
def State.disputeSeq (s : State) (u : Nat) : Nat :=
  match s.disputesOf u with
  | d :: _ => d.2.1 % 65536
  | [] => 0

/-- R343: the owning collectives end with COLL_INTEGRITY, and 0x0805_0001 is written. -/
def State.integrityActions (s : State) (u : Nat) : State :=
  let owners := ((s.disputesOf u).map fun d => (d.1, d.2.1)).eraseDups
  let s := eachDo owners (fun o s => s.endColl o.1 o.2 0x14 0 (some 0x14) none) s
  s.faultEvent 0x08050001 (rauWord u)

/-- An INTEGRITY verdict on unit `u` (Table 15-2): it is retired, and the replay units go to scan. -/
def State.integrity (s : State) (x : Section) (replays : List Nat) : State :=
  let u := x.unit
  let s := s.bumpField Row.verdicts 8 4
  let s := s.closeArb u
  let s := s.integrityActions u
  let s := eachDo replays (fun r s => (s.closeArb r).sendToScan r) s
  let (s, new) := s.retire u 3 none
  s.patina { x with cause := 3, action := if !replays.isEmpty then 4 else if new.isSome then 1 else 2 } none

/-! ## Mismatches -/

/-- R339: a residue or other check failed on `lanes` lanes of an issue of unit `u`. -/
def State.residueMismatch (s : State) (u lanes : Nat) : State :=
  let s := (s.bump Row.residueMismatch lanes).bump Row.rauMismatch 1 u
  if s.underArb u then s
  else if s.noReplay then
    s.integrity { Section.plain 3 1 u (s.obj Row.rauLogical u) with seq := s.disputeSeq u } []
  else
    let r := s.replayFor u none
    { s with reliab := { s.reliab with arbs := s.reliab.arbs ++ [⟨u, r, none⟩] } }

/-! ## Verdicts -/

/-- Residue of an operand encoding: its significand, or its INT32 value, modulo 31 (R337). -/
def encResidue (code x : Nat) : Nat :=
  if isInt code then x % 2 ^ 32 % 31
  else
    let f := fltOf code
    let man := x % 2 ^ f.man
    (if x / 2 ^ f.man % 2 ^ f.expBits = 0 then man else man + 2 ^ f.man) % 31

/-- 0 CHECKER, 1 UNIT, 2 INTEGRITY (Table 15-2). -/
def laneVerdict (fmt : Nat) (l : ArbLane) : Nat :=
  if l.replay = l.result then 0 else if encResidue fmt l.replay = l.predicted.val then 1 else 2

def worstVerdict (fmt : Nat) (ls : List ArbLane) : Nat := (ls.map (laneVerdict fmt)).foldl max 0

/-- The first mismatching lane. -/
def firstLane (ls : List ArbLane) : Option ArbLane :=
  ls.foldl (fun b l => match b with
    | some c => if l.lane.val < c.lane.val then some l else some c
    | none => some l) none

def verdictSection (s : State) (a : Arb) (ls : List ArbLane) (i : IssueInfo) (cause action : Nat) : Section :=
  let r := a.replay.getD 0xFF
  let blank := Section.plain cause action a.unit (s.obj Row.rauLogical a.unit)
  let fmt := i.format.toNat
  let x := { blank with
    replay1 := a.failed.getD r, replay2 := if a.failed.isSome then r else 0xFF
    op := i.op.toNat, format := fmt, round := i.round.toNat, word := i.kernelWord.toNat, imm := i.imm.toNat
    mask := ls.foldl (fun m l => m ||| 2 ^ l.lane.val) 0
    a := i.a.toNat, b := i.b.toNat, c := i.c.toNat, seq := s.disputeSeq a.unit }
  match firstLane ls with
  | none => x
  | some l => { x with
      lane := l.lane.val, result := l.result
      replay := if a.failed.isSome then 0 else l.replay
      replayB := if a.failed.isSome then l.replay else 0
      residues := [encResidue fmt i.a.toNat, encResidue fmt i.b.toNat, encResidue fmt i.c.toNat,
        l.predicted.val, encResidue fmt l.result, encResidue fmt l.replay] }

/-- The local pattern a UNIT or CHECKER verdict adds: EXPECTED is the replay result (R350). -/
def verdictPattern (ls : List ArbLane) (i : IssueInfo) : Option Pattern :=
  (firstLane ls).map fun l => ⟨false, i.imm.toNat, i.op.toNat, i.format.toNat, i.round.toNat, i.a.toNat, i.b.toNat,
    i.c.toNat, l.replay, 0, []⟩

/-- R342: a CHECKER verdict. -/
def State.checkerVerdict (s : State) (a : Arb) (ls : List ArbLane) (i : IssueInfo) : State :=
  let u := a.unit
  let x := verdictSection s a ls i 2 3
  let s := (s.bumpField Row.verdicts 0 4).bump Row.rauSuspect 1 u
  let n := s.obj Row.rauSuspect u
  let s := (s.raisePf 0x0D02 0 u n).patina x (verdictPattern ls i)
  let s := (s.closeArb u).releaseDisputes u
  if s.obj Row.suspectLimit ≤ n && s.role u != 2 then
    let pos := s.obj Row.rauLogical u
    let (s, new) := s.retire u 7 none
    s.patina (Section.plain 7 (if new.isSome || pos == 0xFF then 1 else 2) u pos) none
  else s

/-- A UNIT verdict: the unit is retired, and the replay unit takes its position when it is a spare. -/
def State.unitVerdict (s : State) (a : Arb) (ls : List ArbLane) (i : IssueInfo) : State :=
  let u := a.unit
  let pos := s.obj Row.rauLogical u
  let x := verdictSection s a ls i 1 1
  let s := (s.bumpField Row.verdicts 4 4).closeArb u
  let (s, new) := s.retire u 1 a.replay
  let s := s.patina { x with action := if new.isSome || pos == 0xFF then 1 else 2 } (verdictPattern ls i)
  s.releaseDisputes u

/-- A replay whose own check failed: the replay unit is under arbitration too, and a second replay serves both. With
no replay left that passes, the verdict is INTEGRITY. -/
def State.secondReplay (s : State) (a : Arb) (ls : List ArbLane) (i : IssueInfo) : State :=
  match a.failed, a.replay with
  | some f, some r => s.integrity (verdictSection s a ls i 3 4) [f, r]
  | none, some r =>
    let s := (s.bump Row.residueMismatch ls.length).bump Row.rauMismatch 1 r
    let s := s.closeArb a.unit
    let old := s.reliab.arbs
    let both : List Arb := ⟨a.unit, none, some r⟩ :: (if old.any (fun b => b.unit == r) then [] else [⟨r, none, none⟩])
    let s := { s with reliab := { s.reliab with arbs := old ++ both } }
    let next := s.replayFor a.unit (some r)
    match next with
    | none => if s.noReplay then s.integrity (verdictSection s a ls i 3 4) [r] else s
    | some v => { s with reliab := { s.reliab with arbs := s.reliab.arbs.map fun (b : Arb) =>
        if b.unit = a.unit || (b.unit = r && b.replay.isNone) then { b with replay := some v } else b } }
  | _, none => s

/-- R339: a replay ended. -/
def State.arbitrationVerdict (s : State) (u : Nat) (ls : List ArbLane) (passed : Bool) (i : IssueInfo) : State :=
  match s.reliab.arbs.find? fun a => a.unit == u && a.replay.isSome with
  | none => s
  | some a =>
    let s := if !passed then s.secondReplay a ls i
      else match worstVerdict i.format.toNat ls with
        | 0 => s.checkerVerdict a ls i
        | 1 => s.unitVerdict a ls i
        | _ => s.integrity (verdictSection s a ls i 3 4) ((a.failed.toList) ++ a.replay.toList)
    s.assignReplays

/-- R40: a stalled unit is retired with cause STALL; what it had not released is replayed on the spare. -/
def State.stallUnit (s : State) (u : Nat) : State :=
  let pos := s.obj Row.rauLogical u
  let s := s.closeArb u
  let s := { s with reliab := { s.reliab with arbs := s.reliab.arbs.map fun (a : Arb) => if a.replay = some u then { a with replay := none } else a } }
  let seq := s.disputeSeq u
  let (s, new) := if s.role u = 2 then (s, none) else s.retire u 4 none
  let s := s.patina { Section.plain 4 (if new.isSome || pos == 0xFF then 1 else 2) u pos with seq := seq } none
  (s.releaseDisputes u).assignReplays

/-! ## Field-learnt patterns (R349-R352) -/

/-- Bytes 3-39 of two entries are equal. -/
def Pattern.same (p q : Pattern) : Bool :=
  p.imm == q.imm && p.op == q.op && p.format == q.format && p.round == q.round && p.a == q.a && p.b == q.b &&
    p.c == q.c && p.expected == q.expected

/-- A 64 B entry (Table 15-7). -/
def Pattern.bytes (p : Pattern) : List Byte :=
  let b := leBytes 2 1 ++ leBytes 1 p.imported.toNat ++ leBytes 1 p.imm ++ leBytes 2 p.op ++ leBytes 1 p.format ++
    leBytes 1 p.round ++ leBytes 8 p.a ++ leBytes 8 p.b ++ leBytes 8 p.c ++ leBytes 8 p.expected ++
    leBytes 4 p.sourceRecord ++ slice p.sourceSerial 0 12 ++ leBytes 4 0
  b ++ leBytes 4 (crc32c b)

def State.localPatterns (s : State) : List Pattern := s.flash.patterns.filter fun p => !p.imported
def State.importedPatterns (s : State) : List Pattern := s.flash.patterns.filter Pattern.imported

/-- PATTERN_TABLE: every entry, local first. -/
def State.patternTable (s : State) : List Pattern := s.localPatterns ++ s.importedPatterns

def State.setPatterns (s : State) (ps : List Pattern) : State := { s with flash := { s.flash with patterns := ps } }

/-- Add a local entry: with the area full, the oldest imported entry is replaced, else the oldest local one. -/
def State.addLocal (s : State) (p : Pattern) : State :=
  if s.flash.patterns.any p.same then s
  else if s.flash.patterns.length < 4096 then s.setPatterns (s.flash.patterns ++ [p])
  else match s.importedPatterns with
    | old :: _ => s.setPatterns (s.flash.patterns.erase old ++ [p])
    | [] => s.setPatterns (s.flash.patterns.drop 1 ++ [p])

/-- Fields of an entry lie within Tables 12-6, 13-2 and 14-12. -/
def patInOk (p : PatternIn) : Bool :=
  let cls := p.op.toNat / 256
  let low := p.op.toNat % 256
  decide (1 ≤ p.format.toNat) && decide (p.format.toNat ≤ 8) &&
    (if cls = 0 then decide (low ≤ 2)
     else if cls = 2 then decide (low ≤ 0x0E) || low == 0x10 || low == 0x11
     else cls == 1 || cls == 3 || cls == 4)

def patInEntry (p : PatternIn) : Pattern :=
  ⟨true, p.imm.toNat, p.op.toNat, p.format.toNat, p.round.toNat, p.a.toNat, p.b.toNat, p.c.toNat, p.expected.toNat,
    p.sourceRecord.toNat, p.sourceSerial⟩

/-- Store an import; with the area full the oldest imported entry is replaced, and never a local one. -/
def State.storeImport (s : State) (p : Pattern) : Option State :=
  if s.flash.patterns.length < 4096 then some (s.setPatterns (s.flash.patterns ++ [p]))
  else match s.importedPatterns with
    | old :: _ => some (s.setPatterns (s.flash.patterns.erase old ++ [p]))
    | [] => none

/-- R351: one entry. The field counts it as stored (0), duplicate (4) or refused (8). -/
def State.importOne (s : State) (p : PatternIn) : State × Nat :=
  if !p.crcOk || !patInOk p then (s, 8)
  else if s.flash.patterns.any (patInEntry p).same then (s, 4)
  else if ((List.range 68).filter fun u => s.role u != 2).length < 2 then (s, 8)
  else
    let s := s.bump Row.patternRuns 2
    if !p.agree then (s, 8)
    else match s.storeImport (patInEntry p) with
      | some s => (s, 0)
      | none => (s, 8)

/-- R351: PATTERN_IMPORT_RESULT counts the outcomes of this write. -/
def State.importPatterns (s : State) (ps : List PatternIn) : State :=
  let s := s.setObj Row.patternImportResult 0
  eachDo ps (fun p s =>
    let (s, f) := s.importOne p
    s.bumpField Row.patternImportResult f 4) s

/-! ## The patina log (R347, R348) -/

/-- IDs held, rising in age order from RECORD_OLDEST. -/
def State.recordOldest (s : State) : Nat := (s.flash.nextRecord + 2 ^ 32 - s.flash.records.length) % 2 ^ 32

/-- Overwrite the oldest record when the 4,096 slots are full. -/
def State.dropOldest (s : State) : State :=
  if s.flash.records.length < 4096 then s
  else
    let id := s.recordOldest
    let s := if s.obj Row.recordExported < id then s.bump Row.recordLost else s
    { s with flash := { s.flash with records := tdel s.flash.records id } }

/-- The record's body with its ID, and the index of the pattern derived with it. -/
def stampRecord (body : List Byte) (id : Nat) (pattern : Option Nat) : List Byte :=
  let b := overlay body 96 (leBytes 8 id)
  match pattern with
  | none => b
  | some i => overlay b 304 (leBytes 4 i)

/-- R347: the oldest record on its way, and its pattern, reach flash. -/
def State.patinaWritten (s : State) : State :=
  match s.reliab.jobs with
  | [] => s
  | j :: js =>
    let id := s.flash.nextRecord
    let s := s.dropOldest
    let s := match j.pattern with
      | none => s
      | some p => s.addLocal { p with sourceRecord := id, sourceSerial := Config.serial.take 12 }
    let at0 := j.pattern.bind fun p => (s.patternTable.findIdx? p.same)
    let s := { s with
      reliab := { s.reliab with jobs := js }
      flash := { s.flash with
        records := tput s.flash.records id (stampRecord j.body id at0), nextRecord := (id + 1) % 2 ^ 32 } }
    s.raisePf 0x0D03 0 id j.cause

/-- RECORD_DATA: the selected record's 512 B slot (R348). -/
def State.recordData (s : State) : List Byte :=
  match tget s.flash.records (s.obj Row.recordSelect) with
  | some b => slice b 0 512
  | none => List.replicate 512 0

/-! ## Rotation (R345) -/

/-- The next unit in rotation order: the first from `nextUnit` on that is neither retired nor out already. -/
def State.nextTurn (s : State) : Option Nat :=
  (((List.range 68).map fun i => (s.reliab.nextUnit + i) % 68).filter fun u => s.role u ≤ 1).head?

def State.startScan (s : State) (u : Nat) : State :=
  { s with reliab := { s.reliab with scan := some (u, true), nextUnit := (u + 1) % 68 } }

/-- A rotation turn; a skipped one leaves the order where it is (notes/assumptions/37). -/
def State.rotate (s : State) : State :=
  if s.obj Row.rotateInterval = 0 || s.reliab.scan.isSome || !s.firmwareRuns then s
  else match s.nextTurn with
    | none => s
    | some u =>
      if s.role u = 1 then s.startScan u
      else match s.freeSpares with
        | v :: _ :: _ =>
          let pos := s.obj Row.rauLogical u
          ((s.unseat u 3).seat v pos).startScan u
        | _ => s.bump Row.rotationSkipped

/-- A scan ends: it passes, or the unit is retired with SCAN_FAIL or PATTERN_FAIL. -/
def State.scanEnds (s : State) (u : Nat) (slicesOk : Bool) (failed : Option Nat) : State :=
  let runs := if slicesOk then s.flash.patterns.length else 0
  let s := (s.setObj Row.rauLastScan s.timer u).bump Row.patternRuns runs
  if slicesOk && failed.isNone then
    let s := if s.role u = 3 then s.setObj Row.rauRole 1 u else s
    s.raisePf 0x0D04 0 u runs
  else
    let s := s.bump Row.scanFailCount
    let cause := if slicesOk then 6 else 5
    let pos := s.obj Row.rauLogical u
    let x := Section.plain cause 1 u pos
    let x := match failed.bind fun i => s.patternTable[i]? with
      | some p => { x with
          op := p.op, format := p.format, round := p.round, imm := p.imm, a := p.a, b := p.b, c := p.c
          pattern := failed.getD 0xFFFFFFFF }
      | none => x
    let r := s.retire u cause none
    r.1.patina { x with action := if r.2.isSome || pos == 0xFF then 1 else 2 } none

def State.rotationScanDone (s : State) (u : Nat) (slicesOk : Bool) (failed : Option Nat) : State :=
  if s.underScan u then
    let s := { s with reliab := { s.reliab with scan := none } }
    (s.bump Row.rotations).scanEnds u slicesOk failed
  else if s.reliab.waiting.contains u then
    ({ s with reliab := { s.reliab with waiting := s.reliab.waiting.erase u } }).scanEnds u slicesOk failed
  else s

/-- ROTATION_STATE (Table 15-8). -/
def State.rotationState (s : State) : Nat :=
  let now := match s.reliab.scan with
    | some p => p.1
    | none => 0xFF
  now * 256 + s.reliab.nextUnit

end Sys2Proof.Machine
end

