-- ==== Sys2Proof/Machine/Security.lean ====
section
/-! DEFINITION. The key store, packet protection, key rollover, SPDM sessions and IDE link slots (chapter 18). SPDM's
signatures and digests are outside the model: their verdicts are operands (notes/assumptions/38). -/

namespace Sys2Proof.Machine

/-! ## The key store (R406-R408) -/

def State.setKeySlot (s : State) (g : Nat) (k : KeySlot) : State :=
  { s with security := { s.security with slots := tput s.security.slots g k } }

/-- QPs whose current slot is global slot `g`. -/
def State.slotUsers (s : State) (g : Nat) : List Nat :=
  (s.wq.qps.filter fun p => p.2.attr.cipherOn && s.globalSlot p.2.func p.2.attr.keySlot == g).map Prod.fst

/-- SLOT_MAP, 4,096 entries of 8 B. -/
def State.slotMap (s : State) : List Byte :=
  (List.range totalSlots).flatMap fun g =>
    let k := s.keySlot g
    leBytes 1 k.usage ++ leBytes 1 k.gen ++ leBytes 2 (min 65535 (s.slotUsers g).length) ++ leBytes 4 k.loads

/-- Clear a slot; its load count stays. QPs that hold it as their previous slot lose it (R418). -/
def State.clearSlot (s : State) (g : Nat) : State :=
  let s := if (tget s.security.slots g).isSome then s.setKeySlot g { s.keySlot g with usage := 0, gen := 0, key := 0 } else s
  eachDo s.wq.qps (fun p s =>
    if p.2.cipher.prev.map (s.globalSlot p.2.func) == some g then
      s.updQp p.1 fun x => { x with cipher := { x.cipher with prev := none, leadAt := none, graceAt := none } }
    else s) s

/-- The slots of a share are cleared (R388, R408). -/
def State.clearShareSlots (s : State) (share : Nat) : State :=
  let n := s.perShare totalSlots
  eachDo ((tkeys s.security.slots).filter fun g => decide (share * n ≤ g) && decide (g < (share + 1) * n)) (fun g s => s.clearSlot g) s

def State.clearAllSlots (s : State) : State := eachDo (tkeys s.security.slots) (fun g s => s.clearSlot g) s

/-- The SLOT field names a tenant slot. -/
def slotOk (f : KeyFields) : Bool := decide (f.slot.toNat < 4096) && f.reservedZero

/-- R407: KEY_RESULT of a LOAD under the KEK of its session. -/
def State.keyLoad (s : State) (f : KeyFields) (kek : BitVec 256) : State :=
  let g := f.slot.toNat
  if !slotOk f || (f.usage != 1 && f.usage != 2) || f.keyGen == 0 then s.setObj Row.keyResult 3
  else if (s.keySlot g).usage != 0 then s.setObj Row.keyResult 1
  else match unwrapKey kek f.wrapped with
    | none => (s.setObj Row.keyResult 2).secLog 4 0 0xFFFF 0 0 g 0
    | some k =>
      let old := s.keySlot g
      (s.setKeySlot g ⟨f.usage.toNat, f.keyGen.toNat, (old.loads + 1) % 2 ^ 32, k⟩).setObj Row.keyResult 0

/-- R407: a CLEAR. -/
def State.keyClear (s : State) (f : KeyFields) : State :=
  let g := f.slot.toNat
  if !slotOk f then s.setObj Row.keyResult 3
  else if !(s.slotUsers g).isEmpty then s.setObj Row.keyResult 4
  else (s.clearSlot g).setObj Row.keyResult 0

/-! ## Sessions and authorisation (R402, R404, R405) -/

def viaClassMP : Via → Bool
  | .i3c _ | .vdm _ | .pfMailbox => true
  | _ => false

def viaClassM : Via → Bool
  | .i3c _ => true
  | _ => false

def State.session (s : State) (id : Nat) : Option Session := tget s.security.sessions id

/-- The open session a request arrived in, on its own transport. -/
def State.sessionOf (s : State) (h : ReqHdr) : Option Session :=
  (h.session.bind s.session).filter fun x => x.open_ && x.via == h.via

/-- OWNER_ROOT in force. -/
def State.owner (s : State) : Nat := s.flash.owner.getD 0

/-- R404: an authorised session. -/
def State.authorised (s : State) (h : ReqHdr) : Bool :=
  match s.sessionOf h with
  | some x => viaClassMP x.via && s.owner != 0 && x.root.any fun r => leNat r == s.owner && r.length == 64
  | none => false

/-- R404, R405: whether a write of OWNER_ROOT is allowed. -/
def State.ownerAllowed (s : State) (h : ReqHdr) (lyandez : Bool) : Bool :=
  s.authorised h ||
    (s.owner == 0 && (s.sessionOf h).isSome && viaClassM h.via && (s.flash.owner.isSome || lyandez))

/-- Every session ends, and its KEK is lost. -/
def State.endSessions (s : State) : State := { s with security := { s.security with sessions := [] } }

/-- SPDM is served while the firmware runs and the management controller is not restarting (R442). -/
def State.spdmServed (s : State) (v : Via) : Bool :=
  s.boot.firmware && s.alive && viaClassMP v && match s.mgmt.busy with
    | some (.mcRestart, _) => false
    | _ => true

def State.answerSpdm (s : State) (v : Via) (r : SpdmResp) : State :=
  if s.spdmServed v then s.emit (.spdm v r) else s

/-- GET_CERTIFICATE: slot 0 only (R401). -/
def State.certificate (s : State) (v : Via) (slot : Nat) (off len : Nat) : State :=
  if slot ≠ 0 || Config.certChain.length < off then s.answerSpdm v .error
  else
    let p := (Config.certChain.drop off).take len
    s.answerSpdm v (.certificate p (Config.certChain.length - off - p.length))

/-- The usage map: USAGE and KEY_GEN of each slot, never key values (measurement 5). -/
def State.usageMap (s : State) : List Byte :=
  (List.range totalSlots).flatMap fun g => leBytes 1 (s.keySlot g).usage ++ leBytes 1 (s.keySlot g).gen

/-- What measurements 1 to 4 are taken of, as it now is (Table 18-2). -/
def State.measureNow (s : State) (i : Nat) : List Byte :=
  match i with
  | 1 => leBytes 4 Config.romVersion
  | 2 => leBytes 4 (s.obj Row.fwVersion) ++ leBytes 2 (s.obj Row.fwSvn)
  | 3 => leBytes 64 Config.signerHash ++ leBytes 2 s.flash.svnMin ++ leBytes 64 s.owner
  | _ => match s.bestCopy with
    | some c => leBytes 4 c.seq ++ c.od.flatMap (fun p => leBytes 4 p.1 ++ leBytes 1024 p.2) ++
        c.blobs.flatMap fun p => leBytes 4 p.1 ++ leBytes 4 p.2.length ++ p.2
    | none => []

/-- Measurements 1 to 4 are taken at reset (R403). -/
def State.takeMeasures (s : State) : State :=
  { s with security := { s.security with measured := ([1, 2, 3, 4] : List Nat).map s.measureNow } }

/-- A write of OWNER_ROOT is measured (R403). -/
def State.measureOwner (s : State) : State :=
  { s with security := { s.security with measured := s.security.measured.set 2 (s.measureNow 3) } }

/-- The digest of measurement `i`. -/
def State.digest (s : State) (i : Nat) : BitVec 512 :=
  Config.measureDigest i (if i = 5 then s.usageMap else s.security.measured.getD (i - 1) [])

/-- GET_MEASUREMENTS: index 0 their number, 1-5 one block, 0xFF all (Table 18-2; the special indices are SPDM's). -/
def State.measure (s : State) (v : Via) (i : Nat) : State :=
  let block (k : Nat) : Nat × BitVec 512 := (k, s.digest k)
  if i = 0 then s.answerSpdm v (.measurements 5 [])
  else if i = 0xFF then s.answerSpdm v (.measurements 5 (([1, 2, 3, 4, 5] : List Nat).map block))
  else if i ≤ 5 then s.answerSpdm v (.measurements 5 [block i])
  else s.answerSpdm v .error

/-- KEY_EXCHANGE: at most four sessions at once. -/
def State.keyExchange (s : State) (v : Via) : State :=
  if !s.spdmServed v then s
  else if 4 ≤ s.security.sessions.length then s.emit (.spdm v .error)
  else
    let id := s.security.nextSession
    { s.emit (.spdm v (.keyExchange id)) with security := { s.security with
        sessions := tput s.security.sessions id ⟨v, false, none, s.timer, 0⟩, nextSession := id + 1 } }

def State.updSession (s : State) (id : Nat) (f : Session → Session) : State :=
  { s with security := { s.security with sessions := tupd s.security.sessions id f } }

def State.endSession (s : State) (id : Nat) : State :=
  { s with security := { s.security with sessions := tdel s.security.sessions id } }

/-- FINISH: the session opens with its key, or fails and is gone where the message's MAC gives none. -/
def State.finishSession (s : State) (id : Nat) (root : Option (List Byte)) (kek : Option (BitVec 256)) : State :=
  match s.session id with
  | none => s
  | some x =>
    if !s.spdmServed x.via then s
    else match x.open_, kek with
      | false, some k =>
        (s.updSession id fun x => { x with open_ := true, root := root, last := s.timer, kek := k }).emit (.spdm x.via (.finish id))
      | _, _ => (s.endSession id).emit (.spdm x.via .error)

/-- A message in an open session: its last instant, and the answer. -/
def State.inSession (s : State) (id : Nat) (go : Session → State → State) : State :=
  match s.session id with
  | none => s
  | some x => if s.spdmServed x.via && x.open_ then go x (s.updSession id fun x => { x with last := s.timer }) else s

/-! ## IDE link slots (R420) -/

/-- HOST_PROTOCOL[3] follows the streams in use. -/
def State.ideBit (s : State) : State :=
  s.setObjBit Row.hostProtocol 3 (!s.security.linkActive.isEmpty && s.objBit Row.hostProtocol 0)

/-- An IDE_KM message, served on the PF's DOE mailbox within a secured session. -/
def State.ideKm (s : State) (x : Session) (m : IdeKm) : State :=
  if x.via != .pfMailbox then s.emit (.spdm x.via .error)
  else match m with
    | .query => s.emit (.spdm x.via (.ideQuery (tkeys s.security.linkSlots)))
    | .keyProg slot k =>
      { s.emit (.spdm x.via (.ideAck slot)) with security := { s.security with
          linkSlots := tput s.security.linkSlots slot.val k } }
    | .kSetGo slot =>
      if (tget s.security.linkSlots slot.val).isNone then s.emit (.spdm x.via .error)
      else { s.emit (.spdm x.via (.ideAck slot)) with security := { s.security with
          linkPending := insertUnique slot.val s.security.linkPending } }
    | .kSetStop slot =>
      let s := { s.emit (.spdm x.via (.ideAck slot)) with security := { s.security with
          linkPending := s.security.linkPending.erase slot.val, linkActive := s.security.linkActive.erase slot.val } }
      s.ideBit
    | .getKey _ => s.emit (.spdm x.via .error)

/-- IDE_ENABLE of the host half-port (R92). -/
def State.ideEnabled (s : State) : Bool :=
  match s.hostHp with
  | some h => s.obj Row.ideEnable h == 1
  | none => false

/-- IDE.Start on the host link: the pending set comes into use. Active and pending slots of one stream and direction
are neighbours, so the partner of a started slot goes out of use (notes/assumptions/39). -/
def State.ideStart (s : State) : State :=
  let go := s.security.linkPending
  if go.isEmpty || !s.ideEnabled then s
  else
    let kept := s.security.linkActive.filter fun n => !go.any fun g => g / 2 == n / 2
    ({ s with security := { s.security with linkPending := [], linkActive := go.foldl (fun l g => insertUnique g l) kept } }).ideBit

/-- Host PERST# clears the link slots. -/
def State.clearLinkSlots (s : State) : State :=
  { s with security := { s.security with linkSlots := [], linkPending := [], linkActive := [] } }

/-! ## Extended PSNs (R410, R416) -/

/-- Keep a QP's extended PSNs level with its PSNs, and act on exhaustion. -/
def State.extend (s : State) (q : Nat) : State :=
  match s.qp q with
  | none => s
  | some x =>
    if !x.attr.cipherOn || (x.st != .rtr && x.st != .rts && x.st != .frozen) then s
    else
      let c := { x.cipher with
        extNxt := extendPsn x.cipher.extNxt x.req.nxt, extUna := extendPsn x.cipher.extUna x.req.una
        extE := extendPsn x.cipher.extE x.resp.e }
      let s := if c == x.cipher then s else s.setQp q { x with cipher := c }
      let s := if 2 ^ 39 ≤ c.extNxt && !c.warned then
          (s.raiseTo x.func 0x0A02 (s.local totalQps q) c.extNxt).updQp q fun x => { x with cipher := { x.cipher with warned := true } }
        else s
      if 2 ^ 40 - 2 ^ 24 ≤ c.extNxt then s.qpError q 0x05 else s

/-! ## Protection on ingress (R412, R418) -/

/-- A packet that a protected QP takes without ENC. -/
def clearAllowed (p : Packet) : Bool := p.opcode == 0x32 || (p.opcode == 0x31 && p.aux.toNat % 256 == 0x20)

/-- A tag failed: counted, and logged at most once per QP per second. -/
def State.tagFailed (s : State) (q : Nat) (x : Qp) (p : Packet) : State :=
  let s := s.bump Row.tagFail
  let soon := match x.cipher.tagLogAt with
    | some t => decide (s.timer < t + 1000000000)
    | none => false
  if soon then s
  else
    let s := s.secLog 2 0 x.func (s.local totalQps q) p.srcModule.toNat (s.globalSlot x.func x.attr.keySlot) 0
    s.updQp q fun x => { x with cipher := { x.cipher with tagLogAt := some s.timer } }

/-- The first packet under the new slot: the QP sends under it from now on, and the previous slot's grace runs. -/
def State.newKeySeen (s : State) (q : Nat) (x : Qp) : State :=
  if x.cipher.prev.isNone || x.cipher.graceAt.isSome then s
  else s.updQp q fun x => { x with cipher := { x.cipher with
    useNew := true, leadAt := none, graceAt := some (s.timer + s.obj Row.rollGrace * 1000) } }

/-- R412: the tag check and the rules on ENC; the packet in clear, or none when it is dropped. -/
def State.cipherCheck (s : State) (q : Nat) (x : Qp) (a : Arrival) : State × Option Arrival :=
  let p := a.pkt
  let need := s.obj Row.requireCipherPort a.port.val == 1 && (x.type == .rc || x.type == .coll)
  if !p.enc then
    if (x.attr.cipherOn || need) && !clearAllowed p then (s.bump Row.encMismatchDrop, none) else (s, some a)
  else if !x.attr.cipherOn then (s, none)
  else
    let dual := x.cipher.prev.isSome
    let s := if dual then s.bump Row.dualKeyPackets else s
    match s.openSlot x x.attr.keySlot p, x.cipher.prev.bind fun n => s.openSlot x n p with
    | some clear, _ => (s.newKeySeen q x, some { a with pkt := clear })
    | none, some clear => (s, some { a with pkt := clear })
    | none, none => (s.tagFailed q x p, none)

/-- ROLL_LEAD ends (R418). -/
def State.rollLead (s : State) (q : Nat) : State :=
  match (s.qp q).bind fun x => x.cipher.leadAt with
  | none => s
  | some t => (s.advanceTo t).updQp q fun x => { x with cipher := { x.cipher with useNew := true, leadAt := none } }

/-- ROLL_GRACE ends: the previous slot is dropped (R418). -/
def State.rollGrace (s : State) (q : Nat) : State :=
  match (s.qp q).bind fun x => x.cipher.graceAt with
  | none => s
  | some t => (s.advanceTo t).updQp q fun x => { x with cipher := { x.cipher with prev := none, graceAt := none } }

def Cipher.fresh : Cipher := ⟨none, true, none, none, 0, 0, 0, [], false, none⟩

end Sys2Proof.Machine
end

