-- ==== Sys2Proof/Machine/Traffic.lean ====
section
/-! DEFINITION. The traffic manager: egress scheduling, shapers and policers, receiver-granted credit and queue
telemetry (chapter 9). -/

namespace Sys2Proof.Machine

/-! ## Buckets (R208-R211) -/

/-- A bucket permits a packet: it is off, or its count is above 0. -/
def bucketOk (t : Tab Int) (k : Nat) : Bool :=
  match tget t k with
  | none => true
  | some n => decide (0 < n)

/-- Take a packet's length in bytes from a bucket that is on. -/
def bucketTake (t : Tab Int) (k bytes : Nat) : Tab Int := tupd t k fun n => n - 8 * bytes

/-- One refill: RATE 0 turns the bucket off; a bucket turned on starts full (R208, R209). -/
def bucketRefill (t : Tab Int) (k rate burst : Nat) : Tab Int :=
  if rate = 0 then tdel t k
  else match tget t k with
    | none => tput t k ((8 * burst : Nat) : Int)
    | some n => tput t k (min (n + rate) ((8 * burst : Nat) : Int))

/-- Function limits with a non-zero rate, as function * 4 + port; `sub` is the first subindex of the rate. -/
def State.ratedKeys (s : State) (sub : Nat) : List Nat :=
  (s.od.filter fun p => decide (0x7100 ≤ p.1 / 256) && decide (p.1 / 256 ≤ 0x7500) && decide (sub ≤ p.1 % 256) &&
    decide (p.1 % 256 < sub + 4)).map fun p => (p.1 / 256 - 0x7100) * 4 + (p.1 % 256 - sub)

def State.refillVcs (s : State) (t : Tab Int) : Tab Int :=
  (List.range 32).foldl (fun t k => bucketRefill t k (s.obj Row.vcRate (k / 8) (k % 8)) (s.obj Row.vcBurst (k / 8) (k % 8))) t

def State.refillTx (s : State) (t : Tab Int) : Tab Int :=
  (tkeys t ++ (s.ratedKeys 1).filter fun k => (tget t k).isNone).foldl (fun t k =>
    bucketRefill t k (s.obj Row.txRate (k / 4) (k % 4)) (s.obj Row.txBurst (k / 4) (k % 4))) t

def State.refillPolicers (s : State) (t : Tab Int) : Tab Int :=
  (tkeys t ++ (s.ratedKeys 9).filter fun k => (tget t k).isNone).foldl (fun t k =>
    bucketRefill t k (s.obj Row.policeRate (k / 4) (k % 4)) (s.obj Row.policeBurst (k / 4) (k % 4))) t

/-- Every bucket takes one µs of tokens. -/
def State.refillBuckets (s : State) : State :=
  { s with traffic := { s.traffic with
      vcTokens := s.refillVcs s.traffic.vcTokens
      txTokens := s.refillTx s.traffic.txTokens
      policers := s.refillPolicers s.traffic.policers } }

/-- At enable and at a soft reset every bucket that is on is full (R208, Table 19-3). -/
def State.fillBuckets (s : State) : State :=
  { s with traffic := { s.traffic with vcTokens := s.refillVcs [], txTokens := s.refillTx [], policers := s.refillPolicers [] } }

/-- A BUCKET_REFILL, while the traffic manager is enabled. -/
def State.bucketTick (s : State) : State := if s.enabled 6 then s.refillBuckets else s

/-- The function that holds a share (R382): VF P holds share 0 while it is enabled and not in conflict. -/
def State.holder (s : State) (share : Nat) : Nat :=
  if share ≠ 0 then share
  else match tget s.tenant.funcs s.shares with
    | some f => if f.st ≠ 0 && f.st ≠ 6 then s.shares else 0
    | none => 0

/-- Opcodes the policers act on (R211). -/
def policed (o : Byte) : Bool := (decide (1 ≤ o.toNat) && decide (o.toNat ≤ 0x11)) || o == 0x20 || o == 0x21

/-- The module's own address, or that of the pair it is a member of (R211, R230). -/
def State.holdsAddress (s : State) (a : ModAddr) : Bool :=
  a == s.ownAddress || s.ownPair.any fun p => a.toNat == s.pairAddress p.1

/-- R211: whether the packet passes its function's policer. -/
def State.police (s : State) (a : Arrival) : State × Bool :=
  let p := a.pkt
  let share := if s.qCount = 0 then s.shares else p.dstQpn.toNat / s.qCount
  if !policed p.opcode || s.shares ≤ share || !s.holdsAddress p.dstModule then (s, true)
  else
    let f := s.holder share
    let port := a.port.val
    let k := f * 4 + port
    if bucketOk s.traffic.policers k then
      ({ s with traffic := { s.traffic with policers := bucketTake s.traffic.policers k (s.packetBytes port ((s.qp p.dstQpn.toNat).any fun x => x.type == .roceRc) p) } }, true)
    else ((s.bump Row.policeDrop 1 f port).bump Row.policeDropPort 1 port, false)

/-! ## What a QP would send (R204, stage 5) -/

/-- A requester packet that QP `q` may present now, with its entry and route. A ROCE_RC QP's rate holds its next packet back (R158). -/
def State.offer (s : State) (q : Nat) (x : Qp) : Option (QPkt × Packet × Wqe × Route) :=
  if (x.type == .roceRc && decide (s.timer < x.roceNext)) || x.tier != .hot || x.lost || s.shadowed q x || !s.enabled 3 || (s.twin.stopped && x.mirrorable) then none
  else match s.nextPacket q x with
    | none => none
    | some (p, w) =>
      let k := QPkt.made p x.func q s.timer
      some (k, p, w, s.route k)

/-- One local packet that could leave on port `p` and VC `v`: function, QP, the packet, and the entry of one that is
not yet formed. -/
structure Local where
  func : Nat
  qpn : Nat
  pkt : QPkt
  entry : Option (Packet × Wqe)
  deriving DecidableEq, Repr

/-- The first queued local packet of each QP on a VC. -/
def queuedLocals (queue : List QPkt) : List Local :=
  (queue.filter fun k => !k.transit).foldl (fun l k =>
    if l.any fun (m : Local) => m.func == k.func && m.qpn == k.qpn then l else l ++ [⟨k.func, k.qpn, k, none⟩]) []

/-- Requester packets routed to port `p` and VC `v`. -/
def State.offered (s : State) (p v : Nat) : List Local :=
  s.wq.qps.filterMap fun e =>
    match s.offer e.1 e.2 with
    | some (k, pkt, w, .port p' v' mode down) =>
      if p' = p && v' = v then
        let cls := if v = 0 then (k.vcs s).headD 1 else v
        some ⟨e.2.func, e.1, { k with cls := cls, mode := mode, down := down }, some (pkt, w)⟩
      else none
    | _ => none

/-- The link takes the packet now: credit, and room in the replay buffer. -/
def State.linkTakes (s : State) (p v : Nat) (pkt : Packet) : Bool :=
  s.portUp p && decide (frameUnits pkt ≤ s.linkCredit p v) && (s.ethernet p || (s.link p).room pkt)

/-- Local packets of a VC that are eligible. -/
def State.eligibleLocals (s : State) (p v : Nat) : List Local :=
  (queuedLocals (s.egressVc p v).queue ++ s.offered p v).filter fun l =>
    s.linkTakes p v l.pkt.pkt && bucketOk s.traffic.txTokens (l.func * 4 + p)

def State.eligibleTransit (s : State) (p v : Nat) : Option QPkt :=
  ((s.egressVc p v).queue.find? QPkt.transit).filter fun k => s.linkTakes p v k.pkt

/-- The next key after `last` in rising order, wrapping. -/
def nextAfter (last : Nat) (ks : List Nat) : Option Nat :=
  let up := ks.filter fun k => decide (last < k)
  let pick (l : List Nat) : Option Nat := l.foldl (fun b k => match b with
    | some c => some (min c k)
    | none => some k) none
  if up.isEmpty then pick ks else pick up

/-- Stages 4 and 5. -/
def EgressVc.pickLocal (e : EgressVc) (ls : List Local) : Option Local :=
  match nextAfter e.lastFunc (ls.map Local.func) with
  | none => none
  | some f =>
    let mine := ls.filter fun l => l.func == f
    match nextAfter ((tget e.lastQp f).getD 0) (mine.map Local.qpn) with
    | none => none
    | some q => mine.find? fun l => l.qpn == q

/-- Stage 3: what VC `v` would send. -/
inductive Pick where
  | transit (k : QPkt)
  | own (l : Local)
  deriving DecidableEq, Repr

def Pick.pkt : Pick → QPkt
  | .transit k => k
  | .own l => l.pkt

def State.pickVc (s : State) (p v : Nat) : Option Pick :=
  if !bucketOk s.traffic.vcTokens (p * 8 + v) then none
  else
    let e := s.egressVc p v
    match s.eligibleTransit p v, e.pickLocal (s.eligibleLocals p v) with
    | some k, none => some (.transit k)
    | none, some l => some (.own l)
    | some k, some l => some (if e.transitLead ≤ 0 then .transit k else .own l)
    | none, none => none

/-! ## Stages 1 and 2 -/

def State.vcsAtLevel (s : State) (p level : Nat) : List Nat :=
  (List.range 8).filter fun v => s.obj Row.vcLevel p v == level

def State.vcBytes (s : State) (p v : Nat) : Nat :=
  match s.pickVc p v with
  | some k => s.queuedBytes p k.pkt
  | none => 0

def State.quantum (s : State) (p v : Nat) : Nat := s.obj Row.vcWeight p v * 256

/-- R206: from VC `cur`, whose turn it is, find the VC that sends. A VC that comes to its turn gains a quantum; one that
is not eligible is skipped and keeps its deficit, up to a quantum and 4,160 B. -/
def State.dwrr : Nat → State → Nat → List Nat → Nat → State × Option Nat
  | 0, s, _, _, _ => (s, none)
  | fuel + 1, s, p, vs, cur =>
    let e := s.egressVc p cur
    if (s.pickVc p cur).isSome && s.vcBytes p cur ≤ e.deficit then (s, some cur)
    else
      match nextAfter cur vs with
      | none => (s, none)
      | some v =>
        let f := s.egressVc p v
        let d := f.deficit + s.quantum p v
        let s :=
          if (s.pickVc p v).isSome then s.setEgress p v { f with deficit := d }
          else s.setEgress p v { f with deficit := min f.deficit (s.quantum p v + 4160) }
        State.dwrr fuel s p vs v

/-- The VC that sends at one level, noting whose turn it is. -/
def State.levelTurn (s : State) (p level : Nat) : State × Option Nat :=
  let vs := s.vcsAtLevel p level
  let cur := (tget s.traffic.turn (p * 4 + level)).getD (vs.getLastD 0)
  let (s, v) := s.dwrr 256 p vs (if vs.contains cur then cur else vs.getLastD 0)
  match v with
  | none => (s, none)
  | some v => ({ s with traffic := { s.traffic with turn := tput s.traffic.turn (p * 4 + level) v } }, some v)

/-- Stage 1: the highest level with an eligible VC. -/
def State.topLevel (s : State) (p : Nat) : Option Nat :=
  ([3, 2, 1, 0] : List Nat).find? fun l => (s.vcsAtLevel p l).any fun v => (s.pickVc p v).isSome

/-! ## A packet leaves -/

/-- The books of the traffic manager for a packet that leaves. -/
def State.account (s : State) (p v : Nat) (k : Pick) : State :=
  let n := s.queuedBytes p k.pkt
  let e := s.egressVc p v
  let both := (s.eligibleTransit p v).isSome && !(s.eligibleLocals p v).isEmpty
  let lead : Int := match k with
    | .transit _ => if both then e.transitLead + n else 0
    | .own _ => if both then e.transitLead - n else 0
  let e := { e with deficit := e.deficit - n, transitLead := lead }
  let e := match k with
    | .transit q => { e with queue := e.queue.erase q }
    | .own l => { e with
        queue := if l.entry.isNone then e.queue.erase l.pkt else e.queue
        lastFunc := l.func, lastQp := tput e.lastQp l.func l.qpn }
  let s := s.setEgress p v e
  let t := s.traffic
  { s with traffic := { t with
      vcTokens := bucketTake t.vcTokens (p * 8 + v) n
      txTokens := match k with
        | .own l => bucketTake t.txTokens (l.func * 4 + p) n
        | .transit _ => t.txTokens } }

/-- The requester packets offered now; one offered before keeps its instant (R219). -/
def State.noteOffers (s : State) : State :=
  let now := s.wq.qps.filterMap fun e =>
    match s.offer e.1 e.2 with
    | some (k, p, _, .port port vc _ _) =>
      let since := ((s.traffic.offers.find? fun o => o.1 == e.1 && o.2.1 == p.psn).map fun o => o.2.2.2.2.2).getD s.timer
      some (e.1, p.psn, port, vc, s.queuedBytes port k, since)
    | _ => none
  { s with traffic := { s.traffic with offers := now } }

/-- Requester packets offered on a VC: bytes, and since when. -/
def State.vcOffers (s : State) (p v : Nat) : List (Nat × Nat) :=
  (s.traffic.offers.filter fun o => o.2.2.1 == p && o.2.2.2.1 == v).map fun o => (o.2.2.2.2.1, o.2.2.2.2.2)

/-- A VC whose queue has emptied, however that came, has no deficit (R206). -/
def State.settleDeficits (s : State) : State :=
  let settle (e : Nat × EgressVc) : Nat × EgressVc :=
    if e.2.deficit != 0 && e.2.queue.isEmpty && (s.vcOffers (e.1 / 8) (e.1 % 8)).isEmpty then (e.1, { e.2 with deficit := 0 }) else e
  { s with traffic := { s.traffic with egress := s.traffic.egress.map settle } }

/-- What the traffic manager keeps of its queues after a command. -/
def State.settleQueues (s : State) : State := s.noteOffers.settleDeficits

/-- R105: a payload read on a half-port that is down fails. -/
def State.readPathDown (s : State) (x : Qp) (p : Packet) (w : Wqe) : Bool :=
  !w.internal && !isReadOrAtomic p.opcode && x.type != .coll &&
    s.anyDown (s.segPaths w.segs p.pktOffset.toNat p.payloadLen.toNat)

/-- Data rate of a port in Gbit/s (Table 10-1); 0 stands for none. -/
def State.ethRate (s : State) (p : Nat) : Nat :=
  match s.portMode p with
  | 2 => 200
  | 3 => 400
  | 4 => 800
  | _ => 0

/-- R158: a ROCE_RC QP whose rate is cut sends its next packet once this one's bytes have passed at that rate. -/
def State.paceRoce (s : State) (q port : Nat) (p : Packet) : State :=
  s.updQp q fun x =>
    if x.type == .roceRc && decide (x.roceRate < 2 ^ 32) then
      { x with roceNext := s.timer + ceilDiv (s.ethBytes port true p * 8 * 2 ^ 32) (max 1 x.roceRate * s.ethRate port) }
    else x

/-- A requester packet is presented, with the payload its read returned. -/
def State.present (s : State) (q : Nat) (p : Packet) (w : Wqe) (payload : List Byte) (send : Packet → State → State) : State :=
  match s.qp q with
  | none => s
  | some x =>
    if s.readPathDown x p w then s.failWqe q w.index 0x03
    else (s.presentRequest q x p w payload send).access q

/-- A queued packet that leaves; the first READ_RESP presented of a request makes its PSN DONE. -/
def State.leaveQueued_ (s : State) (p v : Nat) (k : QPkt) : State :=
  let s := s.leave p v k
  if !k.transit && k.pkt.opcode == 0x20 then s.respPresented k.qpn k.pkt else s

/-- A requester packet that has no port: addressed to this module, it loops back; with no route, it is dropped and
recovered like any lost packet (R234, notes/assumptions/17). -/
def State.offPort (s : State) : Option (Nat × Packet × Wqe × Bool) :=
  s.wq.qps.findSome? fun e =>
    match s.offer e.1 e.2 with
    | some (_, p, w, .deliver) => some (e.1, p, w, true)
    | some (_, p, w, .noRoute) => some (e.1, p, w, false)
    | _ => none

def State.presentOff (s : State) (q : Nat) (p : Packet) (w : Wqe) (payload : List Byte) (local_ : Bool) : State :=
  s.present q p w payload fun p s =>
    if local_ then s.emit (.loopback (s.sealed q p))
    else s.dropOn 0 (((QPkt.made p 0 q s.timer).vcs s).headD 0) false

/-- R204: port `p`'s bridge accepts an entry. -/
def State.schedule (s : State) (p : Nat) (payload : List Byte) : State :=
  if !s.enabled 5 || !s.enabled 6 then s
  else match s.offPort with
    | some (q, pkt, w, local_) => s.presentOff q pkt w payload local_
    | none =>
      match s.topLevel p with
      | none => s
      | some level =>
        match s.levelTurn p level with
        | (s, none) => s
        | (s, some v) =>
          match s.pickVc p v with
          | none => s
          | some k =>
            let s := s.account p v k
            let s := match k with
              | .transit q => s.leave p v q
              | .own l => match l.entry with
                | none => s.leaveQueued_ p v l.pkt
                | some (pkt, w) => s.present l.qpn pkt w payload fun pkt s => (s.leave p v (s.wire { l.pkt with pkt := pkt })).paceRoce l.qpn p pkt
            s

/-! ## Receiver-granted credit (R216, R217) -/

/-- The window of placed bytes moves on one µs, and d follows. -/
def HalfPortSt.drainTick (h : HalfPortSt) : HalfPortSt :=
  { h with drain := (7 * h.drain + (h.placedBytes.take 10).sum / 10) / 8, placedBytes := 0 :: h.placedBytes.take 9 }

def State.grantBudget (s : State) : Nat :=
  max (s.obj Row.grantFloor) (s.obj Row.grantWindow * (s.halfPorts.map HalfPortSt.drain).sum)

/-- A responder QP that the grant engine gives turns to. -/
def State.granting (s : State) (q : Nat) (x : Qp) : Bool :=
  (x.type == .rc || x.type == .coll) && (x.st == .rtr || x.st == .rts) && !x.lost && !s.shadowed q x

/-- Outstanding credit of a responder. -/
def Responder.outstanding (r : Responder) : Nat := r.granted - r.arrived

/-- The reclaim of one QP: grants older than 100 µs plus LAPSE_SLACK no longer count. -/
def State.reclaim (s : State) (q : Nat) : State :=
  match s.qp q with
  | none => s
  | some x =>
    let live := x.resp.recent.filter fun g => decide (s.timer ≤ g.1 + (100 + s.obj Row.lapseSlack) * 1000)
    let recent := (live.map Prod.snd).sum
    let back := x.resp.outstanding - recent
    let s := s.bump Row.grantReclaimed back
    s.updQp q fun x => { x with resp := { x.resp with granted := x.resp.granted - back, recent := live } }

/-- The VC whose level is a QP's: the highest on any port that is not OFF. -/
def State.vcTop (s : State) (v : Nat) : Nat :=
  (((List.range 4).filter fun p => s.portMode p != 0).map fun p => s.obj Row.vcLevel p v).foldl max 0

def State.grantLevel (s : State) (x : Qp) : Nat :=
  if x.type == .coll then s.vcTop 5 else if x.attr.bulk then s.vcTop 6 else max (s.vcTop 1) (s.vcTop 2)

/-- Units QP `q` may still be given this tick: what it wants, and on a COLL QP the room its collective holds ready. -/
def State.wantUnits (s : State) (q given : Nat) : Nat :=
  match s.qp q with
  | none => 0
  | some x =>
    let want := ceilDiv (x.resp.needMax - x.resp.granted) 4096
    let room := match x.comm with
      | some c => match s.comm c with
        | some y => (s.collRoom c (s.local totalQps q - y.connBase) - x.resp.outstanding) / 4096
        | none => 0
      | none => want
    min (min want room) (65535 - given)

/-- How long, in ns, the head of each half-port's queue has waited: a free value each, since the queues of the half-port bridges have
no place in State (notes/assumptions/99). -/
def State.headDelays (s : State) : List Nat := (List.range 8).map fun h => Config.freeValue (s.freeCount + h)

/-- The QP's last placement half-port has a head delay, in ns, above HALFPORT_DELAY_LIMIT. -/
def State.halfPortSlow (s : State) (delays : List Nat) (q : Nat) : Bool :=
  ((s.qp q).bind fun x => x.resp.lastHp).any fun h => decide (s.obj Row.halfportDelayLimit * 1000 < delays.getD h 0)

/-- One turn: at most GRANT_CHUNK units and what is free; a turn skipped for half-port delay is counted. -/
def State.grantTurn (s : State) (delays : List Nat) (q free given : Nat) : State × Nat :=
  let n := min (min (s.obj Row.grantChunk) (s.wantUnits q given)) (free / 4096)
  if s.halfPortSlow delays q then (s.bump Row.halfportHold, 0)
  else if n = 0 then (s, 0)
  else (s.updQp q fun x => { x with resp := { x.resp with granted := x.resp.granted + 4096 * n } }, n)

/-- One round over QPs in turn order; the units given so far are kept by QP. -/
def State.grantRound (s : State) (delays qs : List Nat) (free : Nat) (given : Tab Nat) (level : Nat) : State × Nat × Tab Nat :=
  qs.foldl (fun (acc : State × Nat × Tab Nat) q =>
    let (s, free, given) := acc
    let old := (tget given q).getD 0
    let (s, n) := s.grantTurn delays q free old
    if n = 0 then (s, free, given)
    else ({ s with traffic := { s.traffic with grantTurn := tput s.traffic.grantTurn level q } }, free - 4096 * n,
      tput given q (old + n))) (s, free, given)

/-- Rounds until less than 4 KiB is free or no QP wants. -/
def State.grantRounds : Nat → State → List Nat → List Nat → Nat → Tab Nat → Nat → State × Nat × Tab Nat
  | 0, s, _, _, free, given, _ => (s, free, given)
  | fuel + 1, s, delays, qs, free, given, level =>
    let (s, free', given) := s.grantRound delays qs free given level
    if free' = free || free' < 4096 then (s, free', given) else State.grantRounds fuel s delays qs free' given level

/-- QPs of a level, from where the last tick stopped. -/
def State.grantOrder (s : State) (level : Nat) : List Nat :=
  let qs := (s.wq.qps.filter fun p => s.granting p.1 p.2 && s.grantLevel p.2 == level).map Prod.fst
  match tget s.traffic.grantTurn level with
  | none => qs
  | some last => (qs.filter fun q => decide (last < q)) ++ qs.filter fun q => decide (q ≤ last)

/-- A kind 0 batch to one module (Tables 09-3 to 09-5). -/
def State.grantBatch (s : State) (dst src : ModAddr) (es : List (Qpn × Nat)) (func : Nat) : State :=
  let body := es.flatMap fun e => beBytes 8 (e.1.toNat * 2 ^ 40 + e.2)
  let p : Packet :=
    { version := 1, dstModule := dst, srcModule := src, dstQpn := (es.headD (0, 0)).1, srcQpn := 0, opcode := 0x32
      flags := 0, psn := 0, msgId := 0, remoteAddr := 0, key := 0, payloadLen := BitVec.ofNat 13 (8 * es.length)
      pktOffset := 0, aux := BitVec.ofNat 32 (es.length * 256), payload := body }
  { s with wq := { s.wq with outbox := s.wq.outbox ++ [QPkt.made p func 0 s.timer] } }

/-- Groups of at most 64 entries. -/
def batches : Nat → List (Qpn × Nat) → List (List (Qpn × Nat))
  | 0, _ => []
  | fuel + 1, es => if es.isEmpty then [] else es.take 64 :: batches fuel (es.drop 64)

/-- A grant rides an ACK of the QP (R166, trigger 6). -/
def State.grantOnAck (s : State) (q units : Nat) : State :=
  (s.updQp q fun x => { x with resp := { x.resp with grantOut := x.resp.grantOut + units } }).formAck q

/-- Where an unprotected QP's grant would go in a batch: the requester's module, and the address it knows this one by. -/
def State.batchKey (s : State) (q : Nat) : Option (ModAddr × ModAddr) :=
  match s.qp q with
  | some x => if x.attr.cipherOn then none else some (x.attr.remoteModule, s.sourceOf x)
  | none => none

/-- R217: send a tick's grants. -/
def State.sendGrants (s : State) (given : Tab Nat) : State :=
  let keys := (given.filterMap fun g => s.batchKey g.1).eraseDups
  let toModule (m : ModAddr) : Nat := (given.filter fun g => (s.batchKey g.1).any fun k => k.1 == m).length
  let batched := keys.filter fun k => decide (2 ≤ toModule k.1)
  let s0 := s
  let s := eachDo batched (fun k s =>
    let es := (given.filter fun g => s0.batchKey g.1 == some k).filterMap fun g =>
      (s.qp g.1).map fun x => (x.attr.remoteQpn, g.2)
    eachDo (batches (es.length + 1) es) (fun b s => s.grantBatch k.1 k.2 b 0) s) s
  eachDo (given.filter fun g => match s0.batchKey g.1 with
    | some k => !batched.contains k
    | none => true) (fun g s => s.grantOnAck g.1 g.2) s

/-- R216: one tick of the grant engine. -/
def State.grantTick (s : State) (delays : List Nat) : State :=
  let s := { s with halfPorts := s.halfPorts.map HalfPortSt.drainTick }
  if !s.enabled 6 || !s.enabled 3 then s
  else
    let owing := (s.wq.qps.filter fun p => decide (0 < p.2.resp.outstanding)).map Prod.fst
    let s := eachDo owing (fun q s => s.reclaim q) s
    let used := (s.wq.qps.map fun p => p.2.resp.outstanding).sum
    let free := s.grantBudget - used
    let (s, _, given) := ([3, 2, 1, 0] : List Nat).foldl (fun (acc : State × Nat × Tab Nat) level =>
      let (s, free, given) := acc
      s.grantRounds (free / 4096 + 1) delays (s.grantOrder level) free given level) (s, free, [])
    let s := eachDo given (fun g s => (s.bump Row.grantUnitsSent g.2).updQp g.1 fun x => { x with resp := { x.resp with
      recent := x.resp.recent ++ [(s.timer, 4096 * g.2)] } }) s
    s.sendGrants given

/-- CREDIT_EXPIRY: the oldest entry's 100 µs pass (R214). -/
def State.creditExpiry (s : State) (q : Nat) : State :=
  match (s.qp q).bind fun x => x.req.credits.head? with
  | none => s
  | some c => (s.advanceTo c.2).lapse q

/-- R215, third case: a message still waits 100 µs after the last report. -/
def State.demandTimer (s : State) (q : Nat) : State :=
  match s.qp q with
  | none => s
  | some x =>
    match x.req.waitSince with
    | none => s
    | some since =>
      if !x.maySend then s
      else (s.advanceTo (x.req.lastReport.getD since + 100000)).demandReport q

/-! ## Queue telemetry (R219) -/

/-- Bin of a value against 2^lo, 2^(lo+1), ... (Table 09-8). -/
def binOf (lo x : Nat) : Nat :=
  ((List.range 14).find? fun k => decide (x ≤ 2 ^ (lo + k))).map (fun k => k + 1) |>.getD 15

def depthBin (d : Nat) : Nat := if d = 0 then 0 else binOf 10 d

/-- Add 1 to a bin that stops at 2^32 - 1. -/
def State.bumpBin (s : State) (r : ObjRow) (bin p v : Nat) : State :=
  if s.objField r (4 * bin) 4 p v = 2 ^ 32 - 1 then s else s.bumpField r (4 * bin) 4 1 p v

def State.sampleVc (s : State) (p v : Nat) : State :=
  let q := (s.egressVc p v).queue
  let offers := s.vcOffers p v
  let d := (q.map (s.queuedBytes p)).sum + (offers.map Prod.fst).sum
  let delay := match q.map QPkt.since ++ offers.map Prod.snd with
    | [] => 0
    | t :: ts => binOf 7 (s.timer - ts.foldl min t)
  let s := (s.bumpBin Row.depthHist (depthBin d) p v).bumpBin Row.delayHist delay p v
  if s.objField Row.depthMax (4 * v) 4 p < d then s.setObjField Row.depthMax (4 * v) 4 (min d (2 ^ 32 - 1)) p else s

def State.tmSample (s : State) : State :=
  if !s.enabled 6 then s
  else eachDo (List.range 4) (fun p s => eachDo (List.range 8) (fun v s => s.sampleVc p v) s) s

/-- HIST_CLEAR. -/
def State.histClear (s : State) : State :=
  eachDo (List.range 4) (fun p s =>
    (eachDo (List.range 8) (fun v s => (s.setObj Row.depthHist 0 p v).setObj Row.delayHist 0 p v) s).setObj Row.depthMax 0 p) s

end Sys2Proof.Machine
end

