-- ==== Sys2Proof/Machine/Twin.lean ====
section
/-! DEFINITION. The graft unit: the graft link, heartbeats and pairing, mirror records, takeover, yielding and
synchronisation (chapter 16). -/

namespace Sys2Proof.Config

/-- Payloads of BULK frames, whose layout is that of the firmware of both twins (R356, Table 16-1): those that copy a QP, a CQ, an SRQ
and a region, by global number, and the one that carries the bytes at an offset of a cast slot. -/
opaque copyQp : Nat → Machine.Qp → List (List Byte)
opaque copyCq : Nat → Machine.Cq → List (List Byte)
opaque copySrq : Nat → Machine.Srq → List (List Byte)
opaque copyRegion : Nat → Machine.Region → List (List Byte)
opaque castFrame : Nat → List Byte → List Byte

/-- Bytes of a cast that one BULK frame carries, at most. -/
opaque castPiece : Nat

end Sys2Proof.Config

namespace Sys2Proof.Machine

/-! ## Codes -/

/-- MODULE_STATE (Table 03-10). Without power or in reset no state is served; 0 stands there. -/
def MState.code : MState → Nat
  | .off | .reset | .bootRom => 0
  | .selfTest => 1
  | .fwLoad => 2
  | .config => 3
  | .operational => 4
  | .hold => 5
  | .safe => 6

def State.pairSt (s : State) : Nat := s.obj Row.pairState
def State.setPairSt (s : State) (n : Nat) : State := s.setObj Row.pairState n

def State.updTwin (s : State) (f : Twin → Twin) : State := { s with twin := f s.twin }

/-- The partner's module address: the other member of this module's pair (R231). -/
def State.partnerAddress (s : State) : Nat :=
  match s.ownPair with
  | none => 0
  | some (j, _) => match s.pairOf (s.pairAddress j) with
    | some (_, a, b) => if s.ownAddress.toNat = a then b else a
    | none => 0

/-! ## Encodings (Tables 05-8, 16-2, 16-5) -/

/-- A mirror record: 64 B, and 40 B per CQE. -/
def recordBytes (r : MirrorRecord) : List Byte :=
  [r.kind, BitVec.ofNat 8 r.cqes.length] ++ leBytes 2 0 ++ leBytes 4 r.rseq.toNat ++ leBytes 4 r.qpn.toNat ++
    leBytes 2 r.sqRetire.toNat ++ leBytes 2 r.rqRetire.toNat ++ leBytes 4 r.psnA.toNat ++ leBytes 4 (r.psnB.toNat % 2 ^ 24) ++
    leBytes 2 r.index.toNat ++ [r.status, 0] ++ leBytes 4 r.token.toNat ++ leBytes 32 r.data.toNat ++
    r.cqes.flatMap fun m => leBytes 4 m.cqn ++ leBytes 2 m.position.toNat ++ leBytes 2 0 ++ leBytes 32 (cqeNat m.cqe)

def mirrorCqeOf (b : List Byte) : MirrorCqe :=
  ⟨leField b 0 4 % 2 ^ 20, BitVec.ofNat 16 (leField b 4 2), cqeOf (leField b 8 32)⟩

def recordOf (b : List Byte) : MirrorRecord where
  kind := BitVec.ofNat 8 (leField b 0 1)
  rseq := BitVec.ofNat 32 (leField b 4 4)
  qpn := BitVec.ofNat 24 (leField b 8 4)
  sqRetire := BitVec.ofNat 16 (leField b 12 2)
  rqRetire := BitVec.ofNat 16 (leField b 14 2)
  psnA := BitVec.ofNat 24 (leField b 16 4)
  psnB := BitVec.ofNat 32 (leField b 20 4)
  index := BitVec.ofNat 16 (leField b 24 2)
  status := BitVec.ofNat 8 (leField b 26 1)
  token := BitVec.ofNat 32 (leField b 28 4)
  data := BitVec.ofNat 256 (leField b 32 32)
  cqes := (List.range (leField b 1 1)).map fun i => mirrorCqeOf (slice b (64 + 40 * i) 40)

/-- The whole records of a RECORDS payload. -/
def recordsOf : Nat → List Byte → List MirrorRecord
  | 0, _ => []
  | fuel + 1, b =>
    if b.length < 64 then []
    else recordOf b :: recordsOf fuel (b.drop (64 + 40 * leField b 1 1))

def heartbeatBytes (h : Heartbeat) : List Byte :=
  [h.moduleState, h.pairState, h.position, BitVec.ofNat 8 (h.holdsObjects.toNat + 2 * h.hello.toNat)] ++
    leBytes 4 h.rseqAck.toNat ++ leBytes 4 h.pairAddress.toNat ++ leBytes 4 h.moduleAddress.toNat ++ slice h.serial 0 32 ++
    leBytes 4 h.fwVersion.toNat ++ leBytes 2 h.shares.toNat ++ leBytes 10 0

def heartbeatOf (b : List Byte) : Heartbeat where
  moduleState := BitVec.ofNat 8 (leField b 0 1)
  pairState := BitVec.ofNat 8 (leField b 1 1)
  position := BitVec.ofNat 8 (leField b 2 1)
  holdsObjects := (leField b 3 1).testBit 0
  hello := (leField b 3 1).testBit 1
  rseqAck := BitVec.ofNat 32 (leField b 4 4)
  pairAddress := BitVec.ofNat 20 (leField b 8 4)
  moduleAddress := BitVec.ofNat 20 (leField b 12 4)
  serial := slice b 16 32
  fwVersion := BitVec.ofNat 32 (leField b 48 4)
  shares := BitVec.ofNat 16 (leField b 52 2)

/-! ## The graft link (R356) -/

/-- The sub-link of records, acknowledgments and forwarded packets: G0 while it is up, otherwise G1. -/
def State.graftLink (s : State) : Option Nat :=
  if s.portUp 4 then some 4 else if s.portUp 5 then some 5 else none

/-- A frame waits for the graft link: class 1 heartbeats, on the sub-link named; 2 records and their acknowledgments; 3 packets for their
home; 4 bulk data (R15). -/
def State.graftQueue (s : State) (cls v : Nat) (link : Option Nat) (p : Packet) : State :=
  s.updTwin fun t => { t with queue := t.queue ++ [⟨cls, v, link, p⟩] }

/-- A graft frame's packet: addresses, opcode and payload, zero in every other field. -/
def State.graftPacket (s : State) (opcode : Byte) (body : List Byte) : Packet :=
  { version := 0, dstModule := BitVec.ofNat 20 s.partnerAddress, srcModule := s.ownAddress, dstQpn := 0, srcQpn := 0
    opcode := opcode, flags := 0, psn := 0, msgId := 0, remoteAddr := 0, key := 0
    payloadLen := BitVec.ofNat 13 body.length, pktOffset := 0, aux := 0, payload := body }

def State.queueRecord (s : State) (r : MirrorRecord) : State := s.graftQueue 2 1 none (s.graftPacket 0x41 (recordBytes r))

/-- Records are queued in order; they are kept until acknowledged (R364). -/
def State.queueRecords (s : State) : State :=
  let rs := s.twin.toSend
  (eachDo rs (fun r s => s.queueRecord r) s).updTwin fun t => { t with toSend := [], unacked := t.unacked ++ rs }

/-- A record still waits to be sent. -/
def Twin.waits (t : Twin) (r : MirrorRecord) : Bool :=
  t.queue.any fun g => g.pkt.opcode == 0x41 && leField g.pkt.payload 4 4 == r.rseq.toNat

/-- R364: the sub-link that records go on; when it goes down, every unacknowledged record that it carried goes again on the other. -/
def State.settleVia (s : State) : State :=
  let s := if s.twin.via.any fun l => !s.portUp l then s.updTwin fun t => { t with via := none } else s
  match s.twin.via, s.graftLink with
  | none, some l =>
    let rs := s.twin.unacked.filter fun r => !s.twin.waits r
    let kept := s.twin.queue
    let s := (s.bump Row.recordsResent rs.length).updTwin fun t => { t with via := some l, queue := [] }
    (eachDo rs (fun r s => s.queueRecord r) s).updTwin fun t => { t with queue := t.queue ++ kept }
  | _, _ => s

/-- Sub-link `l` may carry a waiting frame now: a heartbeat its own, records and packets the one they go on, bulk data either; with
credit for the frame, and room in the replay buffer (R225, R226, R356). -/
def State.graftMay (s : State) (l : Nat) (g : GraftFrame) : Bool :=
  (if g.cls = 1 then g.link == some l else g.cls = 4 || s.graftLink == some l) &&
    decide (frameUnits g.pkt ≤ s.linkCredit l g.vc) && (s.link l).room g.pkt

/-- The next piece of a cast that is mirrored, as a BULK frame. -/
def State.castBulk (s : State) : Option (CastRun × GraftFrame × Nat) :=
  match s.mem.cast with
  | none => none
  | some r =>
    let n := min (1 + Config.castPiece % 4096) (r.extent * gib - r.sent)
    if r.phase != .mirroring || n = 0 then none
    else
      let body := (Config.castFrame r.sent (s.memRead (s.slotAddr r.slot + r.sent) n)).take 4096
      some (r, ⟨4, 6, none, s.graftPacket 0x43 body⟩, n)

/-- A waiting frame leaves on sub-link `l`. -/
def State.graftLeave (s : State) (l : Nat) (g : GraftFrame) : State :=
  let x := s.link l
  (s.sendFrame l ⟨x.nextLseq, x.expect, g.vc, g.vc, false, false, false, g.pkt⟩).updTwin fun t => { t with lastLink := l }

/-- R15: the frame that sub-link `l` sends next, if it may send any: of the lowest class, the oldest. A class whose frames want credit
does not hold back the next (notes/assumptions/85). -/
def State.graftSend (s : State) (l : Nat) : Option State :=
  if !s.portUp l then none
  else match ([1, 2, 3, 4] : List Nat).findSome? fun c => s.twin.queue.find? fun g => g.cls == c && s.graftMay l g with
    | some g => some ((s.updTwin fun t => { t with queue := t.queue.erase g }).graftLeave l g)
    | none => match s.castBulk with
      | some (r, g, n) =>
        if s.graftMay l g && s.twin.queue.all (fun g => g.cls != 4)
        then some ({ s with mem := { s.mem with cast := some { r with sent := r.sent + n } } }.graftLeave l g) else none
      | none => none

/-- Both sub-links send in turn until neither may (R356). -/
def State.graftSendAll : Nat → State → State
  | 0, s => s
  | n + 1, s =>
    match ([9 - s.twin.lastLink, s.twin.lastLink] : List Nat).findSome? fun l => s.graftSend l with
    | some t => State.graftSendAll n t
    | none => s

/-- What the graft unit sends after a command: at most what the replay buffers of two sub-links hold. -/
def State.settleGraft (s : State) : State :=
  let s := s.queueRecords.settleVia
  let gone (g : GraftFrame) : Bool := g.link.any fun l => !s.portUp l
  let s := s.updTwin fun t => { t with queue := t.queue.filter fun g => !gone g }
  s.graftSendAll 4094

/-- R362: a shadow forwards a packet to its home over the graft link, unchanged. -/
def State.forwardHome (s : State) (p : Packet) : State :=
  if s.graftLink.isNone then s
  else (s.bump Row.shadowForward).graftQueue 3 (if 1 ≤ p.opcode.toNat && p.opcode.toNat ≤ 0x11 then 2 else 4) none p

/-! ## Holds (R363) -/

/-- RSEQ `a` is not after `b`. -/
def rseqLe (a b : Nat) : Bool := decide ((b + 2 ^ 32 - a) % 2 ^ 32 < 2 ^ 31)

/-- An action held for a record goes ahead. -/
def State.lift (s : State) (a : HeldAction) : State :=
  match a with
  | .start q k => s.updQp q fun x => { x with wqes := x.wqes.map fun w => if w.index = k then { w with mirrored := true } else w }
  | .post p => { s with wq := { s.wq with outbox := s.wq.outbox ++ [p] } }
  | .atomic q psn =>
    match (s.qp q).bind fun x => x.resp.heldReqs.find? fun h => h.arrival.pkt.psn == psn with
    | some h => s.issueAtomic q h
    | none => s

/-- CQEs whose record is at or below `n` no longer wait for it. -/
def State.liftCqes (s : State) (n : Nat) : State :=
  let due (w : CqeWait) : Bool := match w.record with
    | some r => rseqLe r n
    | none => false
  { s with wq := { s.wq with cqWait := s.wq.cqWait.map fun w => if due w then { w with record := none } else w } }

/-- An acknowledged record clears the OWN of every entry below its retire indexes (R365). -/
def State.retire_ (s : State) (r : MirrorRecord) : State :=
  let q := r.qpn.toNat
  let s := s.clearTo (.send q) r.sqRetire
  match (s.qp q).bind Qp.srqn with
  | some n => s.clearTo (.srq n) r.rqRetire
  | none => s.clearTo (.recv q) r.rqRetire

/-- The shadow has every record up to `n`. -/
def State.recordAck (s : State) (n : Nat) : State :=
  if !s.twin.unacked.any (fun r => r.rseq.toNat == n) then s
  else
    let go := s.twin.held.filter fun h => rseqLe h.1 n
    let done := s.twin.unacked.filter fun r => rseqLe r.rseq.toNat n
    let s := s.updTwin fun t => { t with
      unacked := t.unacked.filter fun r => !rseqLe r.rseq.toNat n, held := t.held.filter fun h => !rseqLe h.1 n }
    let s := eachDo go (fun h s => s.lift h.2) s
    (eachDo done (fun r s => s.retire_ r) s).liftCqes n

/-- Out of the pair no record is sent and nothing is held (R358). -/
def State.liftAll (s : State) : State :=
  let go := s.twin.held
  let s := s.updTwin fun t => { t with
    toSend := [], unacked := [], held := [], queue := t.queue.filter fun g => g.pkt.opcode != 0x41 }
  let s := eachDo go (fun h s => s.lift h.2) s
  let waits : List CqeWait := s.wq.cqWait.map fun (w : CqeWait) => { w with record := none }
  let s := { s with wq := { s.wq with cqWait := waits } }
  let qps : Tab Qp := s.wq.qps.map fun (p : Nat × Qp) =>
    (p.1, { p.2 with wqes := p.2.wqes.map fun (w : Wqe) => { w with mirrored := true } })
  { s with wq := { s.wq with qps := qps } }

/-- R111 applies again: entries consumed and not yet cleared have their OWN cleared. -/
def State.clearConsumed (s : State) (q : Nat) (x : Qp) : State :=
  let s := (s.clearTaken (.send q)).clearTaken (.recv q)
  match x.srqn with
  | some n => s.clearTaken (.srq n)
  | none => s

/-! ## Applying records at the shadow (R364, R367) -/

def State.shadowOf (s : State) (q : Nat) : ShadowQp :=
  match tget s.twin.shadows q, s.qp q with
  | some h, _ => h
  | none, some x => ⟨x.sq.h, x.sq.h, 0, x.req.una, [], x.resp.e, 0, x.resp.recvBase, [], [], none⟩
  | none, none => ⟨0, 0, 0, 0, [], 0, 0, 0, [], [], none⟩

/-- What a record adds to the token history: nothing for an entry seen before; for an entry passed over, which has no record of
its own or no token, no token; then the token of its own WQE (R132). -/
def ShadowQp.tokens (h : ShadowQp) (r : MirrorRecord) : List (Option (BitVec 32)) :=
  let upTo := if r.kind = 1 then r.index else r.sqRetire
  let n := ahead h.seen upTo
  if 32768 ≤ n then []
  else List.replicate n none ++ (if r.kind = 1 then [if r.token = 0 then none else some r.token] else [])

/-- The shadow's copy after a record. -/
def ShadowQp.apply (h : ShadowQp) (r : MirrorRecord) : ShadowQp :=
  let h := { h with
    seen := h.seen + BitVec.ofNat 16 (h.tokens r).length
    sqRetire := r.sqRetire, rqRetire := r.rqRetire
    wqes := h.wqes.filter fun w => decide (ahead r.sqRetire w.1 < 32768) }
  match r.kind.toNat with
  | 1 => { h with wqes := h.wqes ++ [(r.index, r.psnA)], una := BitVec.ofNat 24 r.psnB.toNat }
  | 2 => { h with e := r.psnA, heldMap := r.data.toNat, sendCount := r.psnB }
  | 3 => { h with una := BitVec.ofNat 24 r.psnB.toNat }
  | 4 => { h with intents := h.intents ++ [r.psnA] }
  | 5 => { h with
      intents := h.intents.erase r.psnA
      results := (h.results ++ [(r.psnA, BitVec.ofNat 64 r.data.toNat)]).drop (h.results.length + 1 - 16) }
  | _ => { h with error := some r.status.toNat }

/-- Keep a mirrored CQE; no more than the CQ's ring holds. -/
def State.keepMirrored (s : State) (m : MirrorCqe) : State :=
  let n := match tget s.wq.cqs m.cqn with
    | some c => 2 ^ c.log2
    | none => 0
  let l := (tget s.twin.cqes m.cqn).getD [] ++ [m]
  s.updTwin fun t => { t with cqes := tput t.cqes m.cqn (l.drop (l.length - n)) }

/-- The shadow binds a response-cache block for a QP that executes atomics (R367). -/
def State.bindCache (s : State) (q : Nat) : State :=
  match s.qp q with
  | none => s
  | some x =>
    if x.resp.cacheBlock then s
    else
      let sh := s.shareOf x.func
      let s := s.updQp q fun x => { x with resp := { x.resp with cacheBlock := true } }
      { s with wq := { s.wq with cacheUsed := tput s.wq.cacheUsed sh ((tget s.wq.cacheUsed sh).getD 0 + 1) } }

def State.applyRecord (s : State) (r : MirrorRecord) : State :=
  let q := r.qpn.toNat
  let old := s.shadowOf q
  let s := s.updTwin fun t => { t with shadows := tput t.shadows q (old.apply r) }
  let s := s.updQp q fun x => { x with history := if x.tokens then (old.tokens r).foldl pushToken x.history else x.history }
  let s := if r.kind == 4 || r.kind == 5 then s.bindCache q else s
  let s := match (s.qp q).bind Qp.srqn with
    | some n => s.updSrq n fun y => { y with ring := { y.ring with h := r.rqRetire, k := r.rqRetire } }
    | none => s
  eachDo r.cqes (fun m s => s.keepMirrored m) s

/-- Apply every record that stands next in order. -/
def State.applyInOrder : Nat → State → State
  | 0, s => s
  | fuel + 1, s =>
    let next := (s.twin.rseqIn + 1) % 2 ^ 32
    match s.twin.beyond.find? fun r => r.rseq.toNat == next with
    | none => s
    | some r =>
      let s := s.updTwin fun t => { t with rseqIn := next, beyond := t.beyond.erase r, ackDue := t.ackDue + 1 }
      State.applyInOrder fuel (s.applyRecord r)

/-- RECORD_ACK: the highest RSEQ received in order (Table 16-1). -/
def State.sendRecordAck (s : State) : State :=
  (s.graftQueue 2 1 none (s.graftPacket 0x42 (beBytes 8 s.twin.rseqIn))).updTwin fun t => { t with ackDue := 0 }

/-- A module that takes mirror records: PAIRED, or SYNCING as the joining twin. -/
def State.takesRecords (s : State) : Bool := s.pairSt == 3 || (s.pairSt == 2 && !s.twin.source)

/-- R364: records arrive; any RSEQ already held is discarded, and a gap is never skipped. -/
def State.records (s : State) (rs : List MirrorRecord) : State :=
  if !s.takesRecords then s
  else
    let fresh := rs.filter fun r => !rseqLe r.rseq.toNat s.twin.rseqIn
    let s := eachDo fresh (fun r s =>
      if s.twin.beyond.any fun b => b.rseq == r.rseq then s else s.updTwin fun t => { t with beyond := t.beyond ++ [r] }) s
    let s := s.applyInOrder (s.twin.beyond.length + 1)
    if 16 ≤ s.twin.ackDue then s.sendRecordAck else s

/-! ## Heartbeats (R357) -/

/-- HOLDS_OBJECTS: a mirrored object exists. -/
def State.holdsObjects (s : State) : Bool :=
  s.wq.qps.any (fun p => p.2.mirrorable) || !s.wq.cqs.isEmpty || !s.wq.srqs.isEmpty || !s.wq.regions.isEmpty

/-- HELLO is carried while SEEKING (R357), while a survivor seeks a new partner, and after the handshake passed here until the partner
shows that it passed there too (notes/assumptions/86). -/
def State.saysHello (s : State) : Bool :=
  s.pairSt == 1 || s.pairSt == 4 || ((s.pairSt == 2 || s.pairSt == 3) && s.twin.partner.any Heartbeat.hello)

def State.heartbeatNow (s : State) : Heartbeat where
  moduleState := BitVec.ofNat 8 s.mode.code
  pairState := BitVec.ofNat 8 s.pairSt
  position := BitVec.ofNat 8 s.twin.position
  holdsObjects := s.holdsObjects
  hello := s.saysHello
  rseqAck := BitVec.ofNat 32 s.twin.rseqIn
  pairAddress := BitVec.ofNat 20 (s.obj Row.pairAddress)
  moduleAddress := s.ownAddress
  serial := slice Config.serial 0 32
  fwVersion := BitVec.ofNat 32 (s.obj Row.fwVersion)
  shares := BitVec.ofNat 16 s.shares

/-- A heartbeat on each live sub-link. -/
def State.sendHeartbeat (s : State) : State :=
  let h := s.heartbeatNow
  let s := eachDo [4, 5] (fun l s => if s.portUp l then s.graftQueue 1 7 (some l) (s.graftPacket 0x40 (heartbeatBytes h)) else s) s
  s.updTwin fun t => { t with ackDue := 0 }

/-- R357: every 2 µs while enabled, in OPERATIONAL and HOLD, until R369 stops it. -/
def State.heartbeatTick (s : State) : State := if s.enabled 11 && !s.twin.stopped then s.sendHeartbeat else s

/-! ## Takeover (R368-R370) -/

/-- The window of a survivor: what HELD_MAP reports above E. -/
def regainWindow (e : Psn) (map : Nat) : Tab PsnRec :=
  (List.range 255).foldl (fun t i =>
    if map.testBit i then tput t (e + 1 + BitVec.ofNat 24 i).toNat ⟨.reported, 0, 0⟩ else t) []

def Ring.restart (r : Ring) (h k : RingIndex) : Ring :=
  { r with h := h, k := k, armed := false, pollRun := false, reread := none, aheadRaised := false, own := h }

/-- PSNs whose atomic results are mirrored are DONE, and are answered from the cache (Table 16-7). -/
def withResults (e : Psn) (t : Tab PsnRec) (l : List (Psn × BitVec 64)) : Tab PsnRec :=
  l.foldl (fun t r => if ahead e r.1 < 256 then tput t r.1.toNat ⟨.done, 0x06, 0⟩ else t) t

/-- The highest PSN that the survivor holds: of HELD_MAP and the results, or E - 1. -/
def topPsn (e : Psn) (t : Tab PsnRec) : Psn :=
  t.foldl (fun m p => if psnPrecedes m (BitVec.ofNat 24 p.1) then BitVec.ofNat 24 p.1 else m) (e - 1)

/-- R370: a QP starts from its last acknowledged records. MSG_ID and the SEND count of its requester are not mirrored:
free values. -/
def ShadowQp.resume (h : ShadowQp) (x : Qp) (free now : Nat) : Qp :=
  let nxt := match h.wqes.getLast? with
    | some w => w.2
    | none => h.una
  let k := match h.wqes.getLast? with
    | some w => w.1 + 1
    | none => h.sqRetire
  let window := withResults h.e (regainWindow h.e h.heldMap) h.results
  { x with
    st := if h.error.isSome then .error else x.st
    sq := x.sq.restart h.sqRetire k
    rq := x.rq.map fun r => r.restart h.rqRetire h.rqRetire
    -- the entries from the retire index on are read again, and their tokens enter the history again (R132)
    history := x.history.drop (ahead h.sqRetire h.seen)
    wqes := [], uncovered := [], uncoveredCount := 0, regain := h.wqes, uncertain := h.intents
    req := { x.req with
      una := h.una, nxt := nxt, flight := [], resend := []
      msgId := BitVec.ofNat 16 free, sendCount := BitVec.ofNat 32 (free / 2 ^ 16)
      retries := 0, rnrRetries := 0, rnrFrom := none, parkFrom := none, parkCount := 0
      balance := 0, credits := [], need := 0, reported := 0, lastReport := none, waitSince := none
      rnrUntil := now, parkUntil := now, rnrOf := none }
    resp := Responder.advance 256 { x.resp with
      e := h.e, re := h.e, window := window, highest := some (topPsn h.e window), msgs := [], failed := none
      heldReqs := [], cache := h.results
      lastReAck := none, doneSince := if window.any (fun p => p.2.st == .done) then some now else none, needMax := 0, granted := 0, arrived := 0, recent := [], grantOut := 0
      recvBase := h.sendCount, recvs := [] } }

def State.takeOver (s : State) (q : Nat) : State :=
  match s.qp q with
  | none => s
  | some x =>
    let h := s.shadowOf q
    let s := (s.setQp q (h.resume x s.nextFree s.timer)).useFree
    s.readHead (.send q)

/-- Take over every mirrored object for which `p` holds of its number: CQs await their first doorbell. -/
def State.takeOverAll (s : State) (p : Nat → Bool) : State :=
  let s := { s with wq := { s.wq with cqs := s.wq.cqs.map fun c => if p c.1 then (c.1, { c.2 with resync := true }) else c } }
  let qs := (s.wq.qps.filter fun e => e.2.mirrorable && p e.1).map Prod.fst
  eachDo qs (fun q s => s.takeOver q) s

/-- An event to every function's EQ. -/
def State.raiseAll (s : State) (code a b : Nat) : State :=
  eachDo ((0 :: tkeys s.eqs).eraseDups) (fun f s => s.raiseTo f code 0 a b) s

/-- The pair's number and this module's place in it, 0 for member A. -/
def State.pairPlace (s : State) : Option (Nat × Nat) := s.ownPair.map fun p => (p.1, p.2 - 1)

/-- Set a member's LIVE bit and tell every live torus port (R232). -/
def State.announce (s : State) (m : Nat) (live : Bool) : State :=
  match s.pairPlace with
  | none => s
  | some (j, _) => (s.setLive j m live).sendPairNotice j ((List.range 4).filter fun p => s.portUp p && s.torusPort p)

/-- A cast transfer to or from a lost twin ends (R259). -/
def State.dropMirroring (s : State) : State :=
  let s := match s.mem.cast with
    | some r => if r.phase == CastPhase.mirroring then s.endCast.castDone 1 0 r.slot else s
    | none => s
  match s.twin.receiving with
  | some k => (s.setEntry k { s.entry k with slotState := 4 }).updTwin fun t => { t with receiving := none }
  | none => s

/-- R368, Table 16-6: the partner is lost; cause 0 loss, 1 HOLD, 2 yield. -/
def State.partnerLost (s : State) (cause : Nat) : State :=
  if s.mode != .operational then s
  else if s.pairSt = 2 then
    let mine := if s.twin.source then s.wq.qps.filter fun e => e.2.mirrorable else []
    let s := (s.setPairSt (if s.twin.source then 4 else 1)).liftAll.dropMirroring
    eachDo mine (fun e s => s.clearConsumed e.1 e.2) s
  else if s.pairSt ≠ 3 then s
  else
    let peer := s.partnerAddress
    let own := s.twin.position
    let mine := s.wq.qps.filter fun e => e.2.mirrorable && s.homed e.1
    let lost (n : Nat) : Bool := (n % 2 == 0) != (own == 1)
    let s := s.updTwin fun t => { t with beyond := [] }
    let s := s.announce (if own = 1 then 1 else 0) false
    let s := (s.setPairSt 4).liftAll.dropMirroring
    let s := eachDo mine (fun e s => s.clearConsumed e.1 e.2) s
    let s := (s.bump Row.takeovers).raiseAll 0x0B01 peer cause
    s.takeOverAll lost

/-- PARTNER_LOSS_TIMEOUT: 10 intervals without a heartbeat. -/
def State.lossTimeout (s : State) : State :=
  if s.twin.partner.isNone || !s.enabled 11 then s
  else (s.advanceTo (s.twin.heardAt + s.obj Row.lossMisses * s.obj Row.heartbeatInterval)).partnerLost 0

/-! ## The handshake (R357, Table 16-3) -/

def State.peerSerialOk (s : State) (h : Heartbeat) : Bool :=
  let want := s.blob Row.pairPeerSerial
  want.isEmpty || slice want 0 32 == slice h.serial 0 32

/-- R231 places member A at the even x and B at the odd x after it. -/
def State.positionOk (s : State) (h : Heartbeat) : Bool :=
  match s.ownPair with
  | none => false
  | some (_, place) =>
    place == s.twin.position && decide (h.position.toNat + s.twin.position = 3) && h.moduleAddress.toNat == s.partnerAddress

/-- The first condition of Table 16-3 that a HELLO fails; 0 when it passes. One twin that is SOLO is the source whatever
objects were created on the other (R378, notes/assumptions/44). -/
def State.helloFault (s : State) (h : Heartbeat) : Nat :=
  let solo := s.pairSt == 4
  let peerSolo := h.pairState == 4
  if h.pairAddress.toNat ≠ s.obj Row.pairAddress then 1
  else if !s.positionOk h then 2
  else if h.fwVersion.toNat / 2 ^ 24 ≠ s.obj Row.fwVersion / 2 ^ 24 % 256 then 3
  else if h.shares.toNat ≠ s.shares then 4
  else if !s.peerSerialOk h then 5
  else if (solo && peerSolo) || (!solo && !peerSolo && s.holdsObjects && h.holdsObjects) then 6
  else 0

/-- R378 step 1: the source copies its objects and records from then on. -/
def State.startSync (s : State) : State :=
  let qs := s.wq.qps.filter fun e => e.2.mirrorable
  let bodies := s.wq.cqs.flatMap (fun c => Config.copyCq c.1 c.2) ++ s.wq.srqs.flatMap (fun c => Config.copySrq c.1 c.2) ++
    s.wq.regions.flatMap (fun c => Config.copyRegion c.1 c.2) ++ qs.flatMap fun c => Config.copyQp c.1 c.2
  let s := eachDo bodies (fun (b : List Byte) s => s.graftQueue 4 6 none (s.graftPacket 0x43 (b.take 4096))) s
  s.setObj Row.syncProgress qs.length

/-- Records start afresh for a new pairing. -/
def State.freshRecords (s : State) : State :=
  s.updTwin fun t => { t with
    nextRseq := 0, toSend := [], unacked := [], held := [], rseqIn := 2 ^ 32 - 1, beyond := [], ackDue := 0
    shadows := [], cqes := [], mismatch := false, receiving := none
    queue := t.queue.filter fun g => g.cls = 1 || g.cls = 3 }

/-- The pair is whole: event 0x0B02, and the partner's serial is noted. -/
def State.paired (s : State) (h : Heartbeat) (after : Nat) : State :=
  ((s.setPairSt 3).setBlob Row.partnerSerial h.serial).raisePf 0x0B02 0 h.moduleAddress.toNat after

/-- A HELLO that passes: PAIRED at once when neither twin holds objects, else SYNCING. -/
def State.shakeHands (s : State) (h : Heartbeat) : State :=
  let s := s.freshRecords.updTwin fun t => { t with hello := some h }
  if !s.holdsObjects && !h.holdsObjects && s.pairSt ≠ 4 && h.pairState != 4 then
    (s.paired h 0).announce (s.twin.position - 1) true
  else
    let source := s.pairSt == 4 || (h.pairState != 4 && s.holdsObjects)
    let s := ((s.setPairSt 2).updTwin fun t => { t with source := source }).setObj Row.syncProgress 0
    if source then s.startSync else s

/-- A HELLO that fails: counted, its cause kept, and the event raised once per cause. No object shows the count. -/
def State.refuseHello (s : State) (h : Heartbeat) (cause : Nat) : State :=
  let s := (s.setObj Row.pairFault cause).updTwin fun t => { t with failures := t.failures + 1 }
  if s.twin.refused.contains cause then s
  else (s.updTwin fun t => { t with refused := cause :: t.refused }).raisePf 0x0B03 0 cause h.moduleAddress.toNat

/-- A heartbeat of the partner arrives (R357, R364, R368). -/
def State.heartbeat (s : State) (h : Heartbeat) : State :=
  if !s.enabled 11 then s
  else
    let s := s.updTwin fun t => { t with partner := some h, heardAt := s.timer }
    let s := s.recordAck h.rseqAck.toNat
    if s.mode == .operational && s.pairSt == 3 && (h.moduleState == 5 || h.moduleState == 6) then s.partnerLost 1
    else if s.mode == .operational && s.pairSt == 3 && h.pairState == 5 then s.partnerLost 2
    else if h.hello && (s.pairSt == 1 || s.pairSt == 4) && s.mode == .operational then
      match s.helloFault h with
      | 0 => s.shakeHands h
      | c => s.refuseHello h c
    else s

/-! ## Entering and leaving the pair -/

/-- R358: SEEKING, when the module is OPERATIONAL with the enable at 1. -/
def State.seek (s : State) : State :=
  let address := match s.ownPair with
    | some (j, _) => s.pairAddress j
    | none => 0
  let s := s.freshRecords.updTwin fun t => { t with hello := none, partner := none, source := false, stopped := false, refused := [] }
  (s.setPairSt 1).setObj Row.pairAddress address

/-- UNPAIRED (R358). -/
def State.unpair (s : State) : State :=
  let s := (s.setPairSt 0).setObj Row.pairAddress 0
  s.liftAll.freshRecords.updTwin fun t => { t with hello := none, partner := none, source := false, stopped := false }

/-- Yield: heartbeats and packets of mirrored QPs stop (R369, R373, R377). -/
def State.yield_ (s : State) (why : Nat) (stop : Bool) : State :=
  let s := (s.setPairSt 5).bump Row.yields
  let s := if stop then s.updTwin fun t => { t with stopped := true } else s
  s.raisePf 0x0B04 0 why 0

/-- R373: a PAIR_NOTICE that clears this module's own LIVE bit. -/
def State.noticeOfSelf (s : State) (l pair : Nat) (a b : Bool) : State :=
  match s.pairPlace, s.pairOf pair with
  | some (j, m), some (i, _, _) =>
    let mine := if m = 0 then a else b
    if i ≠ j || mine || s.mode != .operational || s.pairSt = 0 || s.pairSt = 5 then s.pairNotice l pair a b
    else if s.twin.position = 2 then
      ((s.pairNotice l pair a b).yield_ 0 true)
    else
      let s := (s.setLive j 0 true).setLive j 1 false
      s.sendPairNotice j ((List.range 4).filter fun p => s.portUp p && s.torusPort p)
  | _, _ => s.pairNotice l pair a b

/-- R375: the graft unit's part in a HOLD entry, after step 6 of Table 11-9. -/
def State.holdYield (s : State) : State :=
  let live := match s.twin.partner with
    | some h => h.moduleState == 4
    | none => false
  if s.pairSt ≠ 3 || !live then s
  else
    let s := s.announce (s.twin.position - 1) false
    ((s.setPairSt 5).bump Row.yields).liftAll

/-- R377: the planned handover of an enable write of 0; the last RECORD_ACK and the final heartbeat leave in the order of R15. -/
def State.handOver (s : State) : State :=
  if s.pairSt = 3 then
    let s := s.sendRecordAck.setPairSt 5
    let s := s.sendHeartbeat
    s.yield_ 2 true
  else s

/-- YIELD_WRITE_DISCARD: writes still held 10 µs after the stop are discarded unsent (R369). -/
def State.yieldDiscard (s : State) : State :=
  if !s.twin.stopped then s
  else
    let mirrored (w : CqeWait) : Bool := match s.qp w.qpn with
      | some x => x.mirrorable
      | none => false
    { s with wq := { s.wq with cqWait := s.wq.cqWait.filter fun w => !mirrored w } }

/-! ## Synchronisation (R378) -/

/-- The transport state of a copied QP. -/
def shadowOfCopy (c : SyncQp) : ShadowQp :=
  ⟨c.head, c.sqRetire, c.rqRetire, c.una, [], c.e, c.heldMap.toNat, c.sendCount, [], c.results, none⟩

/-- A copied object on the joining twin. -/
def State.syncObject (s : State) (kind number func : Nat) (equal : Bool) (copy : Option SyncQp) : State :=
  if s.pairSt ≠ 2 || s.twin.source then s
  else if !equal then
    if s.twin.mismatch then s
    else (s.updTwin fun t => { t with mismatch := true }).raisePf 0x0B05 number kind func
  else
    let s := s.updTwin fun t => { t with mismatch := false }
    match kind, copy with
    | 1, some c =>
      let q := s.global totalQps func number
      let s := s.bump Row.syncProgress
      let s := s.updQp q fun x => { x with history := if x.tokens then c.tokens else x.history }
      s.updTwin fun t => { t with shadows := tput t.shadows q (shadowOfCopy c) }
    | _, _ => s

/-- The slot that receives the partner's cast: the twin-held one without LATEST, slot 2 when neither has it. -/
def State.receivingSlot (s : State) : Nat :=
  match s.twin.receiving with
  | some k => k
  | none => if (s.entry 2).latest then 3 else 2

/-- Cast bytes of a BULK frame (R258 step 5). -/
def State.bulkCast (s : State) (off : Nat) (bytes : List Byte) (last : Option CastTail) : State :=
  if !s.mem.paired || !s.enabled 11 then s
  else
    let k := s.receivingSlot
    let s := if s.twin.receiving.isSome then s
      else (s.setEntry k { s.entry k with slotState := 1 }).updTwin fun t => { t with receiving := some k }
    let s := if off + bytes.length ≤ s.slotQuarters * gib / 4 then s.memWrite (s.slotAddr k + off) bytes else s
    match last with
    | none => s
    | some t =>
      let s := s.updTwin fun w => { w with receiving := none }
      if t.crcOk then
        let s := s.setEntry (5 - k) { s.entry (5 - k) with latest := false }
        s.setEntry k ⟨5, true, t.gen.toNat, t.step.toNat, t.extent.toNat, t.crc.toNat, t.time.toNat⟩
      else s.setEntry k { s.entry k with slotState := 4 }

def State.bulk (s : State) (b : BulkData) : State :=
  match b with
  | .cast off bytes last => s.bulkCast off bytes last
  | .sync kind number func equal copy => s.syncObject kind.toNat number func equal copy

/-- What the source still knows of a QP it hands back, as the new shadow's copy. -/
def State.handedBack (s : State) (x : Qp) : ShadowQp :=
  ⟨x.sq.h, x.sqRetire, s.rqRetire x, x.req.una, (x.wqes.filter fun w => w.sent != 0 || w.allSent).map fun w => (w.index, w.firstPsn), x.resp.e,
    x.resp.heldMap, x.resp.recvBase, [], x.resp.cache, none⟩

/-- PAIR_SYNC_DONE: both twins enter PAIRED, and the QPs of the joining twin's parity go back to it. -/
def State.syncDone (s : State) : State :=
  match s.twin.hello with
  | none => s
  | some h =>
    if s.pairSt ≠ 2 || s.twin.mismatch then s
    else if s.twin.source then
      let other := s.wq.qps.filter fun e => e.2.mirrorable && !s.homed e.1
      let s := s.updTwin fun t => { t with source := false, shadows := other.foldl (fun m e => tput m e.1 (s.handedBack e.2)) t.shadows }
      s.paired h 1
    else
      let s := s.paired h 1
      let own := s.twin.position
      let s := s.takeOverAll fun n => (n % 2 == 0) == (own == 1)
      s.announce (own - 1) true

/-! ## A CQ in RESYNC (R371) -/

/-- The first CQ doorbell to the survivor: mirrored CQEs from HEAD on are written, then the held ones may be. -/
def State.leaveResync (s : State) (c : Nat) (h : RingIndex) : State :=
  match tget s.wq.cqs c with
  | none => s
  | some cq =>
    let due := ((tget s.twin.cqes c).getD []).filter fun m => decide (ahead h m.position < 2 ^ cq.log2)
    let s := s.updCq c fun x => { x with head := h, w := h, used := 0, resync := false }
    let s := s.updTwin fun t => { t with cqes := tdel t.cqes c }
    if cq.error then s else eachDo due (fun m s => (s.bump Row.resyncCqes).putCqe c m.cqe) s

/-- A CQ in RESYNC holds CQEs up to its ring size; one more applies R114. -/
def State.resyncOverflow (s : State) : State :=
  eachDo s.wq.cqs (fun c s =>
    if c.2.resync && !c.2.error && decide (2 ^ c.2.log2 < (s.wq.cqWait.filter fun w => w.cqn == c.1).length) then
      (s.cqOverflow c.1 c.2)
    else s) s

/-- The graft part of a subsystem 11 soft reset (Table 19-3). -/
def State.graftSoftReset (s : State) : State :=
  let resync (n : Nat) : Bool := match tget s.wq.cqs n with
    | some c => c.resync
    | none => false
  let s := s.updTwin fun t => { t with unacked := [], toSend := [], held := [], queue := [] }
  { s with wq := { s.wq with cqWait := s.wq.cqWait.filter fun w => !resync w.cqn } }

end Sys2Proof.Machine
end

