-- ==== Sys2Proof/Machine/Receive.lean ====
section
/-! DEFINITION. What becomes of a packet addressed to this module, from its ingress bridge to the QP that takes it
(Table 01-5; R146, R196, R211, R391, R412), of frames, and what every command settles before it ends. -/

namespace Sys2Proof.Machine

/-! ## Connection QPs of communicators -/

/-- What the sequencer makes of a packet of connection QP `q` (R275, R282). -/
def State.collTake (s : State) (c : Nat) (x : Comm) (r : Nat) (p : Packet) (rau : Option RauFault) : CollTake :=
  if p.opcode = 0x11 then s.takePreamble c x r p else s.takeData c x r p rau

/-- The packet gave rise to a placement TLP. -/
def State.wroteSince (s before : State) : Bool :=
  (List.range 8).any fun h => (s.hp h).placements != (before.hp h).placements

/-- A new packet for the sequencer: taken, left ABSENT, or refused with PARK_FULL for want of room (R278, R285). -/
def State.acceptColl (s : State) (q : Nat) (x : Qp) (a : Arrival) (rau : Option RauFault) : State :=
  let p := a.pkt
  match s.check q x p with
  | some syn => s.refuseNew q x p syn
  | none =>
    match x.comm with
    | none => s
    | some c =>
      match s.comm c with
      | none => s
      | some cm =>
        let r := s.local totalQps q - cm.connBase
        match s.collTake c cm r p rau with
        | .drop t => t
        | .full =>
          let s := s.bumpBoth Row.overflowRefused Row.vfOverflowRefused x.func
          (s.bump Row.parkFullSent).parkFullNak q p (s.retryHint a.port.val)
        | .accept _ =>
          let s := (s.ackOnArrival q x p).countArrived q p
          match s.collTake c cm r p rau with
          | .accept t =>
            if s.pairSt == 3 && t.wroteSince s then t.updQp q fun x => { x with resp := x.resp.setPsn p .held }
            else ((t.markDone q p).settleResp 17 q).coalesce q
          | _ => s

def State.collRequest (s : State) (q : Nat) (x : Qp) (a : Arrival) (rau : Option RauFault) : State :=
  match x.resp.classify a.pkt.psn with
  | .outside => s.bump Row.outOfWindowDrop
  | .acked => s.duplicate q x a true
  | .unacked => s.duplicate q x a false
  | .new => s.acceptColl q x a rau

/-! ## By type and state (Table 06-9) -/

/-- R370: an atomic whose outcome the takeover left uncertain is answered NO_ATOMIC_CACHE. -/
def Qp.isUncertain (x : Qp) (p : Packet) : Bool := isAtomicOp p.opcode && x.uncertain.contains p.psn

/-- A packet dropped for the state of its QP is counted and not answered (R146, notes/assumptions/46). -/
def State.stateDrop (s : State) : State := { s with wq := { s.wq with stateDrops := s.wq.stateDrops + 1 } }

/-- A request for a QP that serves requests. -/
def State.takeRequest (s : State) (q : Nat) (x : Qp) (a : Arrival) (rau : Option RauFault) : State :=
  if x.st != .rtr && x.st != .rts then s.stateDrop
  else if x.isUncertain a.pkt && x.resp.classify a.pkt.psn == .new then
    (((s.bump Row.uncertainAtomics).refuse q a.pkt 0x21).settleResp 17 q).coalesce q
  else match x.type with
    | .rc => s.rcRequest q x a
    | .ud => s.udReceive q x a.pkt
    | .coll => s.collRequest q x a rau
    | .roceRc => s.roceRequest q x a

/-- A demand report: NEED_MAX rises to the NEED it carries (R215, R216). -/
def State.takeDemand (s : State) (q : Nat) (x : Qp) (p : Packet) : State :=
  if x.st != .rtr && x.st != .rts then s.stateDrop
  else if x.type != .rc && x.type != .coll then s
  else s.updQp q fun x => { x with resp := { x.resp with needMax := max x.resp.needMax (beNat (slice p.payload 0 8)) } }

/-- A response, ACK, NAK or demand report that arrived at instant `at0`. -/
def State.takeReply (s : State) (q : Nat) (x : Qp) (p : Packet) (at0 : Nat) : State :=
  if p.opcode = 0x32 then s.takeDemand q x p
  else if x.st != .rts then s.stateDrop
  else if x.type == .ud then s
  else match p.opcode.toNat with
    | 0x20 => s.handleReadResp q x p
    | 0x21 => s.handleAtomicResp q x p
    | 0x30 => s.handleAck q x p at0
    | 0x31 => s.handleNak q x p
    | _ => s

/-- A packet from a module or QPN other than the remote (R146). -/
def Qp.mismatched (x : Qp) (p : Packet) : Bool :=
  (x.type == .rc || x.type == .coll) && (p.srcModule != x.attr.remoteModule || p.srcQpn != x.attr.remoteQpn)

/-- A packet whose context is hot: mismatch, the tag, then its handling under the QP's state. A YIELDED module serves no mirrored QP:
its partner does (R369, R374). -/
def State.serve (s : State) (q : Nat) (x : Qp) (a : Arrival) (rau : Option RauFault) (at0 : Nat) : State :=
  if s.pairSt == 5 && x.mirrorable then s.stateDrop
  else if x.mismatched a.pkt then s.bump Row.qpMismatchDrop
  else
    let c := s.cipherCheck q x a
    match c.2, c.1.qp q with
    | none, _ | _, none => c.1
    | some a, some x => if isReply a.pkt.opcode then c.1.takeReply q x a.pkt at0 else c.1.takeRequest q x a rau

/-! ## Grant batches (R217) -/

/-- A QP that exists: one that is destroyed does not, though its number waits for QP_FREE (R141). -/
def State.presentQp (s : State) (q : Nat) : Option Qp := (s.qp q).filter fun x => !x.freeing

def batchEntry (b : List Byte) : Nat × Nat := (beNat (slice b 0 3), beNat (slice b 6 2))

def State.grantEntry (s : State) (src : ModAddr) (q units at0 : Nat) : State :=
  match s.presentQp q with
  | none => s.bump Row.grantInvalid
  | some x =>
    if (x.type == .rc || x.type == .coll) && x.attr.remoteModule == src && !x.attr.cipherOn then s.applyGrant q units at0
    else s.bump Row.grantInvalid

def isBatch (p : Packet) : Bool := p.opcode == 0x32 && !p.aux.getLsbD 0

def State.grantPacket (s : State) (p : Packet) (at0 : Nat) : State :=
  eachDo (List.range (min 64 (p.aux.toNat / 256 % 256))) (fun i s =>
    let e := batchEntry (slice p.payload (8 * i) 8)
    s.grantEntry p.srcModule e.1 e.2 at0) s

/-! ## From the ingress bridge -/

def isWireOpcode (o : Byte) : Bool :=
  o == 0x01 || o == 0x03 || o == 0x04 || isReadOrAtomic o || o == 0x10 || o == 0x11 || o == 0x20 || o == 0x21 ||
    o == 0x30 || o == 0x31 || o == 0x32

/-- SENDs with invalidate, BTH opcodes 0x16 and 0x17, which have no native opcode (R158, notes/assumptions/74). -/
def isInvalidate (o : Byte) : Bool := o == 0x16 || o == 0x17

def State.isRoce (s : State) (q : Nat) : Bool := (s.qp q).any fun x => x.type == .roceRc

/-- R155, Tables 06-14 and 06-15; an invalidate opcode is known on a ROCE_RC QP, where it is refused. -/
def State.goodHeader (s : State) (p : Packet) : Bool :=
  p.version == 1 && decide (p.payloadLen.toNat ≤ 4096) &&
    (isWireOpcode p.opcode || (isInvalidate p.opcode && s.isRoce p.dstQpn.toNat))

/-- The function whose share a QPN lies in. -/
def State.functionOf (s : State) (q : Nat) : Option Nat :=
  if s.qCount = 0 || s.shares ≤ q / s.qCount then none else some (s.holder (q / s.qCount))

/-- R391: the function of the packet is FREEZING or FROZEN. -/
def State.isFrozen (s : State) (p : Packet) : Bool :=
  match s.functionOf p.dstQpn.toNat with
  | some f => s.funcSt f == 2 || s.funcSt f == 3
  | none => false

def State.frozenPacket (s : State) (p : Packet) : State :=
  let q := p.dstQpn.toNat
  match s.qp q with
  | some x =>
    if x.type == .rc && !isReply p.opcode && p.psn == x.resp.e then
      (s.bump Row.parkFullSent).parkFullNak q p (s.obj Row.freezeHint)
    else s.bump Row.frozenDrop
  | none => s.bump Row.frozenDrop

/-- The target of a FORWARDING function's packets (R395). -/
def State.forwardTarget (s : State) (p : Packet) : Option Nat :=
  if p.dstModule != s.ownAddress then none
  else match s.functionOf p.dstQpn.toNat with
    | some f => if s.funcSt f = 4 then (tget s.tenant.funcs f).map FuncSt.target else none
    | none => none

/-- R395: DST_MODULE is rewritten and the packet passed as transit traffic. -/
def State.forwardOn (s : State) (p : Packet) (target : Nat) : State :=
  let k : QPkt := { QPkt.made { p with dstModule := BitVec.ofNat 20 target } 0 0 s.timer with transit := true }
  ({ s with wq := { s.wq with outbox := s.wq.outbox ++ [k] } }).bump Row.forwarded

/-- Bytes of its region that a packet's lookup translates: those it places or swaps; a READ's are translated as they are read. -/
def packetLookupLen (p : Packet) : Nat :=
  if isAtomicOp p.opcode then 8 else if p.opcode = 0x05 then 0 else p.payloadLen.toNat

/-- The region entries that a packet's key check and placement use. -/
def State.packetEntries (s : State) (p : Packet) : List (Nat × Option Nat) :=
  if usesRegion p.opcode then s.translations (p.key.toNat / 256) p.remoteAddr.toNat (packetLookupLen p) else []

/-- The context of `q` is hot: an access to it, and the packet's handling. -/
def State.lookedUp (s : State) (q : Nat) (a : Arrival) (rau : Option RauFault) (at0 : Nat) : State :=
  let s := s.access q
  if isBatch a.pkt then s.grantPacket a.pkt at0
  else
    let s := eachDo (s.packetEntries a.pkt) (fun e s => s.useTranslation e) s
    match s.qp q with
    | none => s
    | some x => s.serve q x a rau at0

/-- A released packet continues from the context lookup (R197). -/
def State.released (a : Arrival) (at0 : Nat) (s : State) : State :=
  let q := a.pkt.dstQpn.toNat
  if s.isFrozen a.pkt then s.frozenPacket a.pkt
  else match s.presentQp q with
    | none => if isBatch a.pkt then s.grantPacket a.pkt at0 else s.bump Row.unknownQpDrop
    | some x => if x.lost then s.bump Row.contextLostDrop else s.lookedUp q a none at0

/-- A packet whose region or page entries are not in the translation cache parks while they are fetched, or is refused for want
of cells; the fetch needs no command, and the packet is released in the same step (R189, R196, notes/assumptions/76). -/
def State.regionMissed (s : State) (q : Nat) (x : Qp) (a : Arrival) (rau : Option RauFault) : State :=
  if s.roomFor a then
    ((s.bump Row.parkedCount).noteResidency ⟨a, parkCells a.pkt, s.timer⟩).lookedUp q a rau s.timer
  else s.refusePark a q x

/-- The context lookup: a hot context is marked referenced; any other packet parks (R189, R192, R196). -/
def State.lookUp (s : State) (a : Arrival) (rau : Option RauFault) : State :=
  let p := a.pkt
  let q := p.dstQpn.toNat
  match s.presentQp q with
  | none => if isBatch p then s.grantPacket p s.timer else s.bump Row.unknownQpDrop
  | some x =>
    if x.lost then s.bump Row.contextLostDrop
    else if s.mustPark q x then s.park a q x
    else if (s.packetEntries p).all s.ctx.regions.contains then s.lookedUp q a rau s.timer
    else s.regionMissed q x a rau

/-- The transport engine takes packets: in OPERATIONAL with its enable at 1. -/
def State.transportRuns (s : State) : Bool := s.mode == .operational && s.enabled 3

/-- From the policing of R211 onward. -/
def State.policedOn (s : State) (a : Arrival) (rau : Option RauFault) : State :=
  let r := s.police a
  if !r.2 then r.1
  else if r.1.isFrozen a.pkt then r.1.frozenPacket a.pkt
  else r.1.lookUp a rau

/-- A packet of the management QP: one message in one packet, of at most 1,050 B (R60). One that is no such packet is dropped. -/
def State.qp0Packet (s : State) (p : Packet) : State :=
  if p.opcode != 0x01 then s.bump Row.badHeaderDrop
  else if !p.first || !p.last || p.enc || 1050 < p.payloadLen.toNat then s
  else match requestOfBody (.qp0 p.srcModule p.srcQpn) (slice p.payload 0 p.payloadLen.toNat) with
    | some i => { s with mgmt := { s.mgmt with inbox := s.mgmt.inbox ++ [i] } }
    | none => s

/-- A packet for this module. QPN 0 is the management QP, which lies in share 0 and is not ciphered. -/
def State.admitPkt (s : State) (a : Arrival) (rau : Option RauFault) : State :=
  let p := a.pkt
  if s.holding then s.bump Row.holdDrop
  else if s.mode == .operational && p.dstQpn == 0 && s.goodHeader p then
    (if (s.police a).2 then (s.police a).1.qp0Packet p else (s.police a).1)
  else if !s.transportRuns then s
  else if !s.goodHeader p then s.bump Row.badHeaderDrop
  else s.policedOn a rau

/-- R362: this module is the shadow of the packet's QP and its partner lives. A YIELDED module forwards nothing. -/
def State.toForwardHome (s : State) (p : Packet) : Bool :=
  s.transportRuns && s.pairSt != 5 && s.goodHeader p && match s.qp p.dstQpn.toNat with
    | some x => s.shadowed p.dstQpn.toNat x
    | none => false

/-- A packet that the router has found addressed to this module. -/
def State.receive (s : State) (a : Arrival) (rau : Option RauFault) : State :=
  match s.forwardTarget a.pkt with
  | some t => s.forwardOn a.pkt t
  | none =>
    if !s.holding && s.toForwardHome a.pkt then s.forwardHome a.pkt
    else s.admitPkt a rau

/-- A packet by its row's opcode. -/
def arriveAs (a : Arrival) (o : Byte) : Arrival := { a with pkt := { a.pkt with opcode := o } }

/-! ## Native and Ethernet frames -/

/-- A frame of a graft sub-link by its opcode (Table 16-1). Which ingress bridge a forwarded packet enters at is not stated: a free
value (R362). A BULK payload's layout is the firmware's: its content arrives
as the BULK command. -/
def State.graftFrame (s : State) (p : Packet) (data : Option (List Byte)) : State :=
  let body := slice p.payload 0 p.payloadLen.toNat
  match p.opcode.toNat with
  | 0x40 => s.heartbeat (heartbeatOf body)
  | 0x41 => s.records (recordsOf body.length body)
  | 0x42 => s.recordAck (beNat (slice body 0 8) % 2 ^ 32)
  | 0x43 => s
  | _ => s.useFree.admitPkt ⟨⟨s.nextFree % 4, Nat.mod_lt _ (by decide)⟩, p, data⟩ none

/-- R226, R227: a packet frame arrives, with what a read that it asks for returns. -/
def State.linkFrame (s : State) (l : Nat) (f : RxFrame) : State :=
  let r := s.acceptFrame l (frameOf f.bytes) f.fecBad
  match r.2 with
  | none => r.1
  | some p =>
    if 4 ≤ l then r.1.graftFrame p f.data
    else r.1.receive ⟨⟨l % 4, Nat.mod_lt _ (by decide)⟩, p, f.data⟩ none

/-- R158: an ECN-CE marked arrival is answered with a CNP, BTH opcode 0x81. -/
def State.sendCnp (s : State) (q : Nat) : State :=
  match s.qp q with
  | none => s
  | some x => s.post q (s.basePacket q x 0x81)

/-- A RoCE v2 packet serves ROCE_RC QPs only, a native one every other. -/
def State.wrongEncapsulation (s : State) (q : Nat) (roce : Bool) : Bool :=
  match s.qp q with
  | some x => (x.type == .roceRc) != roce
  | none => false

/-- A RoCE packet from a GID other than that of the QP's peer in ROCE_PEERS (R146, Table 06-18). -/
def State.strangeGid (s : State) (q : Nat) (f : EthFrame) : Bool :=
  match s.qp q with
  | some x => x.type == .roceRc && slice (s.rocePeer x) 0 16 != slice f.srcGid 0 16
  | none => false

/-- The VC that a frame's priority names: its tag's PCP, or its DSCP when untagged (R238). -/
def frameVc (f : EthFrame) : Nat :=
  match f.tags with
  | t :: _ => t.2.val
  | [] => f.dscp.toNat / 8

/-- R241: PFC goes out when a priority's share of the receive buffer passes 48 KiB, and its release below 16 KiB. -/
def State.ownPfc (s : State) (port : Nat) (f : EthFrame) : State :=
  let x := s.link port
  let v := frameVc f
  if s.obj Row.pfcEnable port = 0 then s
  else if decide (49152 < f.buffered) && !x.pausing.testBit v then
    (s.emit (.pfc port v true)).updLink port fun x => { x with pausing := setBit x.pausing v true }
  else if decide (f.buffered < 16384) && x.pausing.testBit v then
    (s.emit (.pfc port v false)).updLink port fun x => { x with pausing := setBit x.pausing v false }
  else s

/-- The port's counts of what it receives (Table 10-8). -/
def State.countRx (s : State) (port : Nat) (f : EthFrame) : State :=
  (s.bumpField Row.vcRx 0 8 1 port (frameVc f)).bumpField Row.vcRx 8 8 f.length port (frameVc f)

/-- R239, R158: an Ethernet frame. -/
def State.ethFrame (s : State) (port : Nat) (f : EthFrame) : State :=
  let port := s.iface port
  if !s.portUp port || !s.ethernet port || f.dstMac != leBytes 6 (Config.ethMac port) then s
  else if f.fragment || !f.checksumOk || !f.fcsOk || decide (9216 < f.length) || decide (1 < f.tags.length) then s.bump Row.badHeaderDrop
  else
    let mine := match f.ipDst with
      | none => false
      | some d => d == s.ownAddress || (match s.ownPair with
        | some (j, _) => d.toNat == s.pairAddress j
        | none => false)
    let roce := f.udpPort.toNat == 4791
    let q := f.arr.pkt.dstQpn.toNat
    let s := (s.countRx port f).ownPfc port f
    if !mine || (!roce && f.udpPort.toNat != s.obj Row.nativeUdpPort) then s
    else if roce && !s.objBit Row.rocePorts port then s
    else if s.wrongEncapsulation q roce then s
    else if roce && !f.icrcOk then s.bump Row.badHeaderDrop
    else if roce && s.strangeGid q f then s.bump Row.qpMismatchDrop
    else
      let s := if roce && f.ecnCe && s.transportRuns then s.sendCnp q else s
      s.receive f.arr none

/-! ## What every command settles (R113, R130, R205, R363) -/

/-- CQEs may be written: the module is not on its way into HOLD or in it, and its writes have not stopped (R261, R369). -/
def State.mayWrite (s : State) : Bool := s.firmwareRuns && !s.holding && !s.twin.stopped

/-- End the collectives of QPs that entered ERROR, and write the CQEs that are due, until neither adds to the other. -/
def State.settleErrors : Nat → State → State
  | 0, s => s
  | fuel + 1, s =>
    let es := s.wq.erring
    let s := { s with wq := { s.wq with erring := [] } }
    let s := eachDo es (fun e s => s.collError e.1 e.2) s
    let s := if s.mayWrite then s.settleCqes else s
    if s.wq.erring.isEmpty then s else State.settleErrors fuel s

/-- What follows for one QP: records, demand, extended PSNs. -/
def State.settleQp (s : State) (q : Nat) : State := (((s.mirrorStart q).noteWait q).lateReport q).extend q

end Sys2Proof.Machine
end

