-- ==== Sys2Proof/Machine/Rings.lean ====
section
/-! DEFINITION. Rings as software sees them: doorbell apertures, polling, re-reads of an entry announced too early,
posted receives, ABORT and failed reads (chapter 5, R105, R143). -/

namespace Sys2Proof.Machine

/-! ## Doorbell apertures (R117-R120) -/

/-- The PF, or a VF that the host has enabled. -/
def State.functionLive (s : State) (f : Nat) : Bool := f == 0 || (s.tenant.vfEnable && decide (f ≤ s.tenant.numVfs))

/-- R191: a doorbell to a QP prefetches its context. -/
def State.prefetchRing (s : State) : RingId → State
  | .send q | .recv q => s.prefetch q
  | .srq _ => s

/-- A write into a function's doorbell aperture. -/
def State.aperture (s : State) (w : ApertureWrite) : State :=
  if !s.firmwareRuns || s.holding || !s.functionLive w.func then s
  else match w.value with
    | none => s.doorbellDropped w.func
    | some v =>
      match s.slotOf w.func w.offset with
      | .none => s.doorbellDropped w.func
      | .cq c =>
        let resync := match tget s.wq.cqs c with
          | some x => x.resync
          | none => false
        let s := if resync then s.leaveResync c (BitVec.ofNat 16 v) else s
        s.cqDoorbell w.func c v
      | .ring id => if s.ignoresDoorbells id then s else (s.prefetchRing id).ringDoorbell w.func id v

/-! ## Polling and re-reads (R121-R124) -/

def State.ringFunc (s : State) : RingId → Nat
  | .send q | .recv q => match s.qp q with
    | some x => x.func
    | none => 0
  | .srq n => match tget s.wq.srqs n with
    | some x => x.func
    | none => 0

/-- A ring is read, and its entries are consumed, with its QP's context hot; otherwise the context is fetched and the ring is
read after the install (R191). -/
def State.withRing (s : State) (id : RingId) (go : State → State) : State :=
  match id with
  | .send q | .recv q => s.withContext q go
  | .srq _ => go s

/-- A poll is due: the ring is armed with a polling interval and H = K, or fallback polling runs. -/
def Ring.polled (r : Ring) : Bool :=
  match r.reread with
  | some rr => rr.fallback
  | none => r.armed && r.poll != 0 && r.h == r.k

/-- The time between two polls: POLL_INTERVAL, and in fallback polling 10 µs where that is 0 (R121, R123). -/
def Ring.pollEvery (r : Ring) : Nat := if r.poll = 0 then 10000 else r.interval

/-- The polling read that is due returns with OWN as given. -/
def State.poll (s : State) (id : RingId) (own : Bool) : State :=
  match s.ring id with
  | none => s
  | some r =>
    if !s.ringReadable id || !r.polled then s
    else (s.advanceTo r.due).withRing id fun s =>
      let s := s.updRing id fun r => { r with due := s.timer + r.pollEvery }
      let s := s.bumpBoth Row.pollReadCount Row.vfPollReadCount (s.ringFunc id)
      let s := s.readRing id r r.h
      if !own then s
      else s.updRing id fun r => { r with
        k := if r.h = r.k then r.h + 1 else r.k, pollRun := r.pollRun || r.reread.isNone, reread := none }

/-- The read of the entry at H finds OWN = 0: reading on after a poll ends, and an announced entry is re-read. -/
def State.entryEmpty (s : State) (id : RingId) : State :=
  match s.ring id with
  | none => s
  | some r =>
    if !s.mayConsume id then s
    else if r.h = r.k then s.updRing id fun r => { r with pollRun := false }
    else if r.reread.isSome then s
    else s.updRing id fun r => { r with reread := some ⟨s.timer, 0, 0, false⟩ }

/-- Re-read `j` leaves, 1 µs × j after the first read returned. -/
def State.rereadIssue (s : State) (id : RingId) (j : Nat) : State :=
  match s.ring id with
  | none => s
  | some r =>
    match r.reread with
    | none => s
    | some rr =>
      if !s.ringReadable id || rr.fallback || j != rr.issued + 1 || 8 < j then s
      else (s.advanceTo (rr.since + 1000 * j)).withRing id fun s =>
        let s := s.bumpBoth Row.rereadCount Row.vfRereadCount (s.ringFunc id)
        let s := s.readRing id r r.h
        s.updRing id fun r => { r with reread := some { rr with issued := j } }

/-- DOORBELL_AHEAD, at most once per ring between two consumed entries. -/
def State.doorbellAhead (s : State) (id : RingId) (r : Ring) : State :=
  if r.aheadRaised then s
  else
    let f := s.ringFunc id
    let s := s.bumpBoth Row.doorbellAheadCount Row.vfDoorbellAheadCount f
    let s := s.updRing id fun r => { r with aheadRaised := true }
    s.raiseTo f 0x0201 (s.ringNumber id)

/-- A re-read returns: OWN = 1 ends the procedure, the eighth OWN = 0 starts fallback polling. -/
def State.rereadReturn (s : State) (id : RingId) (j : Nat) (own : Bool) : State :=
  match s.ring id with
  | none => s
  | some r =>
    match r.reread with
    | none => s
    | some rr =>
      if rr.fallback || rr.issued < j || j = 0 then s
      else if own then s.updRing id fun r => { r with reread := none }
      else
        let n := rr.returned + 1
        let s := s.updRing id fun r => { r with
          reread := some { rr with returned := n, fallback := n == 8 }
          due := if n = 8 then s.timer + r.pollEvery else r.due }
        if n = 8 then s.doorbellAhead id r else s

/-! ## Receive entries (R125, R127, R152, R153) -/

/-- R125 for an entry of a receive or SRQ ring. -/
def badRecv (e : Sqe) : Bool :=
  e.opcode != 0x02 || !e.reservedZero || decide (2 ^ 31 < e.length.toNat) ||
    (e.x && (decide (e.length.toNat < 1) || decide (4096 < e.length.toNat)))

/-- The status a receive entry fails with at consumption, if it does. -/
def State.recvFault (s : State) (func : Nat) (e : Sqe) : Option Nat :=
  if badRecv e then some 0x0A
  else if e.x then
    (if s.segOk func false ⟨e.localKey, e.localAddr.toNat, 16 * e.length.toNat⟩ then none else some 0x02)
  else if s.segOk func true ⟨e.localKey, e.localAddr.toNat, e.length.toNat⟩ then none else some 0x02

/-- The descriptor that the key check of a receive entry uses. -/
def State.useRecvKey (s : State) (e : Sqe) : State :=
  if badRecv e then s else s.useKeys [⟨e.localKey, e.localAddr.toNat, if e.x then 16 else e.length.toNat⟩]

def RecvE.new (k : RingIndex) (e : Sqe) (fault : Option Nat) : RecvE where
  index := k
  sqe := e
  segs := if e.x then [] else [⟨e.localKey, e.localAddr.toNat, e.length.toNat⟩]
  length := if e.x then 0 else e.length.toNat
  ready := !e.x || fault.isSome
  aborted := false
  matched := false
  fault := fault

/-- The read of a fragment table. -/
def State.readTable (s : State) (e : Sqe) : State :=
  match s.regionOf e.localKey with
  | none => s
  | some r => eachDo (r.bus e.localAddr.toNat (16 * e.length.toNat)) (fun p s => s.readBus r.path p.1 p.2) s

/-- An entry of a QP's receive ring. -/
def State.takeRecvOf (s : State) (q : Nat) (x : Qp) (k : RingIndex) (e : Sqe) : State :=
  let s := if s.mirrors q x then s else s.clearTaken (.recv q)
  let s := (s.readHead (.recv q)).useRecvKey e
  let fault := s.recvFault x.func e
  let a := s.settleAborts (.recv q) k e.wrId (x.st == .error || fault.isSome)
  let s := a.1
  let r := { RecvE.new k e fault with aborted := a.2 }
  if x.st == .error then s.formRecvCqe q r 0x07 0 false []
  else
    let s := s.updQp q fun x => { x with resp := { x.resp with recvs := x.resp.recvs ++ [r] } }
    match fault with
    | some st => s.qpError q st
    | none =>
      if a.2 then s.popAborted (x.resp.recvs.length + 1) q
      else if e.x then s.readTable e else s

/-- The ABORTED CQE of an SRQ entry. No CQ belongs to an SRQ: it goes to the CQ of the ABORT's own QP (notes/assumptions/49). -/
def State.abortedSrq (s : State) (q : Nat) (r : RecvE) : State :=
  match s.qp q with
  | none => s
  | some x => s.formCqe q (s.global totalCqs x.func x.sq.cqn) [] (s.recvCqe q r 0x08 0 false)

/-- An entry of an SRQ ring. -/
def State.takeRecvSrq (s : State) (n : Nat) (y : Srq) (k : RingIndex) (e : Sqe) : State :=
  let mirrored := s.twin.position != 0 && (s.pairSt == 3 || (s.pairSt == 2 && s.twin.source))
  let s := if mirrored then s else s.clearTaken (.srq n)
  let s := (s.readHead (.srq n)).useRecvKey e
  let fault := s.recvFault y.func e
  let by_ := s.wq.aborts.find? fun a => a.ring == .srq n && a.index == k && a.wrId == e.wrId
  let a := s.settleAborts (.srq n) k e.wrId fault.isSome
  let s := a.1
  if a.2 then (match by_ with
    | some w => s.abortedSrq w.qpn (RecvE.new k e none)
    | none => s)
  else
    let s := s.updSrq n fun y => { y with entries := y.entries ++ [RecvE.new k e fault] }
    if e.x && fault.isNone then s.readTable e else s

/-- A receive entry is consumed. -/
def State.takeRecv (s : State) (id : RingId) (e : Sqe) : State :=
  if !s.mayConsume id then s
  else s.withRing id fun s =>
    match id, s.ring id with
    | .recv q, some r => match s.qp q with
      | none => s
      | some x => (s.takeEntry id).takeRecvOf q x r.h e
    | .srq n, some r => match tget s.wq.srqs n with
      | none => s
      | some y => (s.takeEntry id).takeRecvSrq n y r.h e
    | _, _ => s

/-- What the fragments of a receive entry make of it (R126, R127). -/
def State.withFrags (s : State) (func : Nat) (fs : List Frag) (r : RecvE) : RecvE :=
  let segs := fragSegs fs
  let len := (segs.map Seg.len).sum
  let fault := if 2 ^ 31 < len || fs.any (fun f => decide (2 ^ 31 < f.len.toNat)) then some 0x01
    else if segs.all (s.segOk func true) then none else some 0x02
  { r with segs := segs, length := len, ready := true, fault := fault }

/-- A fragment table has been read (R127). -/
def State.fragments (s : State) (id : RingId) (k : RingIndex) (bits : List FragBits) : State :=
  let fs := bits.map fragOf
  let s := match id with
    | .send _ => s
    | _ => s.useKeys (fragSegs fs)
  match id with
  | .send q => s.fragsDone q k fs
  | .recv q => match s.qp q with
    | none => s
    | some x =>
      match x.resp.recvs.find? fun r => r.index == k && !r.ready with
      | none => s
      | some r =>
        let r := s.withFrags x.func fs r
        let s := s.updQp q fun x => { x with resp := { x.resp with
          recvs := x.resp.recvs.map fun v => if v.index = k then r else v } }
        match r.fault with
        | some st => s.qpError q st
        | none => s
  | .srq n => s.updSrq n fun y => { y with
      entries := y.entries.map fun v => if v.index = k && !v.ready then s.withFrags y.func fs v else v }

/-! ## ABORT (R133-R136) -/

/-- The ring and index an ABORT names, by global number; none when the submitter's function does not own the target. -/
def State.abortTarget (s : State) (func : Nat) (e : Sqe) : Option (RingId × RingIndex) :=
  let n := e.remoteAddr.toNat % 2 ^ 24
  let k : RingIndex := BitVec.ofNat 16 (e.remoteAddr.toNat / 2 ^ 32)
  let id : RingId := match e.remoteAddr.toNat / 2 ^ 24 % 4 with
    | 0 => .send (s.global totalQps func n)
    | 1 => .recv (s.global totalQps func n)
    | _ => .srq (s.global totalSrqs func n)
  let count := match id with
    | .srq _ => s.sCount
    | _ => s.qCount
  if n < count && (s.ring id).isSome && s.ringFunc id == func then some (id, k) else none

/-- Index of the oldest entry of a ring not completed. -/
def State.oldest (s : State) (id : RingId) (r : Ring) : RingIndex :=
  match id with
  | .send q => match s.qp q with
    | some x => match x.wqes.find? fun w => !w.ended && !w.internal with
      | some w => w.index
      | none => r.h
    | none => r.h
  | .recv q => match s.qp q with
    | some x => match x.resp.msgs.filterMap Msg.recv, x.resp.recvs with
      | m :: _, _ => m.index
      | [], v :: _ => v.index
      | [], [] => r.h
    | none => r.h
  | .srq n => match tget s.wq.srqs n with
    | some y => match y.entries with
      | v :: _ => v.index
      | [] => r.h
    | none => r.h

/-- An ABORT against a consumed send-ring entry. -/
def State.abortSend (s : State) (q : Nat) (k : RingIndex) (wrId : BitVec 64) : State × Nat :=
  match (s.qp q).bind fun x => x.wqes.find? fun w => w.index == k && !w.internal with
  | none => (s, 1)
  | some w =>
    if w.sqe.wrId != wrId then (s, 2)
    else match w.coll with
      | some (c, n) => let r := s.abortColl c n; (r.1, if r.2 then 0 else 1)
      | none =>
        if w.st == .queued || w.st == .frags then ((s.setWqe q (w.end 0x08)).report q, 0) else (s, 1)

/-- An ABORT against a consumed entry of a receive ring: matched entries, and those before them, are committed. -/
def State.abortRecv (s : State) (q : Nat) (k : RingIndex) (wrId : BitVec 64) : State × Nat :=
  match s.qp q with
  | none => (s, 2)
  | some x =>
    match x.resp.recvs.find? fun r => r.index == k with
    | none => (s, 1)
    | some r =>
      let later := (x.resp.recvs.dropWhile fun v => v.index != k).any RecvE.matched
      if r.sqe.wrId != wrId then (s, 2)
      else if later || r.aborted then (s, 1)
      else
        let s := s.updQp q fun x => { x with resp := { x.resp with
          recvs := x.resp.recvs.map fun v => if v.index = k then { v with aborted := true } else v } }
        (s.popAborted (x.resp.recvs.length + 1) q, 0)

def State.abortSrq (s : State) (q n : Nat) (k : RingIndex) (wrId : BitVec 64) : State × Nat :=
  match (tget s.wq.srqs n).bind fun y => y.entries.find? fun r => r.index == k with
  | none => (s, 1)
  | some r =>
    if r.sqe.wrId != wrId then (s, 2)
    else ((s.updSrq n fun y => { y with entries := y.entries.filter fun v => v.index != k }).abortedSrq q r, 0)

/-- R135, Table 05-11: an ABORT is decided, or waits until its target is consumed. -/
def State.abortNow (s : State) (q : Nat) (x : Qp) (own : RingIndex) (e : Sqe) : State :=
  let tell (r : State × Nat) : State := r.1.abortCqe q own e.wrId r.2
  match s.abortTarget x.func e with
  | none => tell (s, 2)
  | some (id, k) =>
    match s.ring id with
    | none => tell (s, 2)
    | some r =>
      let low := s.oldest id r
      if ahead low r.k ≤ ahead low k then tell (s, 1)
      else if ahead low r.h ≤ ahead low k then
        let w : AbortWait := ⟨id, k, e.operandA, q, own, e.wrId⟩
        { s with wq := { s.wq with aborts := s.wq.aborts ++ [w] } }
      else match id with
        | .send t => tell (s.abortSend t k e.operandA)
        | .recv t => tell (s.abortRecv t k e.operandA)
        | .srq n => tell (s.abortSrq q n k e.operandA)

def abortWqe (q : Nat) (x : Qp) (w : Wqe) (s : State) : State := s.abortNow q x w.index w.sqe

/-! ## Consumption with the context brought in -/

def State.consumeHot (s : State) (q : Nat) (e : Sqe) (ok : Nat → Qp → Wqe → State → State) : State :=
  if s.mayConsume (.send q) then s.withRing (.send q) fun s => s.consume q e ok else s

/-- The entry a row's command carries: of the row's opcode, unless the opcode read lies outside Table 05-5 or belongs to
another kind of ring, which R125 refuses. -/
def sqeAs (e : Sqe) (o : Byte) : Sqe :=
  let send := decide (e.opcode.toNat ≤ 7) && e.opcode != 0x02 || e.opcode == 0x10 || e.opcode == 0x1F
  if send then { e with opcode := o } else e

/-- R144: a COLLECTIVE on a QP of another type is malformed. -/
def State.collectiveOn (s : State) (q : Nat) (e : CollSqe) (r : CollReads) : State :=
  match s.qp q with
  | none => s
  | some x =>
    if x.type == .coll then
      if s.mayConsume (.send q) then s.withRing (.send q) fun s => s.takeColl q e r else s
    else s.consumeHot q (collWqe e 0).sqe queueWqe

/-! ## Failed reads (R105, Table 05-13) -/

/-- A ring or fragment read ends in an error: RING_READ_FAIL, and the QP or SRQ enters ERROR. -/
def State.ringReadFail (s : State) (id : RingId) : State :=
  if (s.ring id).isNone then s
  else
    let s := s.raiseTo (s.ringFunc id) 0x0204 (s.ringNumber id)
    match id with
    | .send q | .recv q => s.qpError q 0x03
    | .srq n => s.updSrq n fun y => { y with error := true }

/-- A payload read for the entry at index `k` fails, also one for a retransmission (R172): the WQE completes LOCAL_PATH and the QP
enters ERROR. -/
def State.payloadFail (s : State) (id : RingId) (k : RingIndex) : State :=
  match id with
  | .send q => match (s.qp q).bind fun x => x.wqes.find? fun w => w.index == k && !w.internal && !w.ended with
    | some w => s.failWqe q w.index 0x03
    | none => s
  | _ => s

/-! ## Event-queue HEAD (R143) -/

/-- HEAD and ARM as written in the status page; an EQ_OVERFLOW record follows when space allows it. -/
def State.eqHead (s : State) (f : Nat) (h : RingIndex) (arm : Bool) : State :=
  if !s.firmwareRuns || s.holding then s
  else
    let s := { s with eqs := tupd s.eqs f fun e =>
      let n := ahead e.head h
      { e with head := h, used := e.used - n, arm := e.arm || arm } }
    s.eqFlushLost f

end Sys2Proof.Machine
end

