-- ==== Sys2Proof/Machine/Objects.lean ====
section
/-! DEFINITION. Control commands on queues, queue pairs and regions (R138-R151, R158, R185, R359, R360, R382, R415, R418). -/

namespace Sys2Proof

/-- Bit `k` of MASK (Table 06-5). -/
def ModifyFields.has (f : ModifyFields) (k : Nat) : Bool := f.mask.getLsbD k

end Sys2Proof

namespace Sys2Proof.Machine

/-! ## Results (Table 06-6) -/

/-- What a command leaves: the state, its RESULT code, and the VALUE and EXTRA fields where they are not NUMBER and zero. -/
structure Ctl where
  st : State
  result : Nat
  value : Option Nat := none
  extra : Nat := 0

def State.ctlOk (s : State) : Ctl := { st := s, result := 0 }
def State.ctlNo (s : State) (code : Nat) : Ctl := { st := s, result := code }

/-- The first check of a list that fails gives the result; with none, the command executes. -/
def State.ctlWhen (s : State) (checks : List (Bool × Nat)) (go : Ctl) : Ctl :=
  match checks.find? Prod.fst with
  | some (_, code) => s.ctlNo code
  | none => go

/-! ## Checks common to all commands (R140, R382, R395) -/

/-- VF P is enabled and uses share 0. -/
def State.shareLent (s : State) : Bool := s.functionLive s.shares && s.funcSt s.shares != 6

def State.gateChecks (s : State) (c : CtrlHdr) (creates : Bool) : List (Bool × Nat) :=
  let f := c.func.toNat
  [(!c.reservedZero, 1), (decide (1024 < f) || !s.functionLive f, 2), (s.funcSt f == 4, 6), (s.funcSt f == 6, 5),
    (creates && f == 0 && s.shareLent, 5)]

/-- The order between twins for a mirrored object (R360). -/
def State.twinCheck (s : State) (c : CtrlHdr) : Bool × Nat :=
  ((s.pairSt == 2 || s.pairSt == 3) && !c.twinAgrees, 6)

/-! ## Rings (R107, R108, Table 05-1) -/

/-- The HDM range the host has committed, on the host half-port. -/
def State.inHdm (s : State) (path lo len : Nat) : Bool :=
  let base := s.obj Row.hostHdmBase
  s.hostHp == some path && s.host.committed && decide (lo < base + s.obj Row.hdmWindow * gib) && decide (base < lo + len)

/-- LOG2_ENTRIES in force, if valid: 0 takes DEFAULT_RING_ENTRIES, a power of two from 64 to 65,536. -/
def State.ringLog2 (s : State) (code : Nat) : Option Nat :=
  if code = 0 then (List.range 17).find? fun n => decide (6 ≤ n) && 2 ^ n == s.obj Row.defaultRingEntries
  else if 6 ≤ code && code ≤ 16 then some code
  else none

/-- POLL_INTERVAL in force, if valid: 0xFFF takes DEFAULT_POLL. -/
def State.ringPoll (s : State) (code : Nat) : Option Nat :=
  if code ≤ 4000 then some code
  else if code = 0xFFF && s.obj Row.defaultPoll ≤ 4000 then some (s.obj Row.defaultPoll)
  else none

/-- A half-port that a ring or region of function `f` may name: not OFF, and assigned to the function (R108, R148). -/
def State.pathGiven (s : State) (f path : Nat) : Bool := (s.hp path).role != 0 && !s.tenant.denied.contains (f, path)

/-- Refusals of a ring of `entry`-byte entries. -/
def State.ringChecks (s : State) (func base log2 path poll entry : Nat) : List (Bool × Nat) :=
  let size := 2 ^ (s.ringLog2 log2).getD 0 * entry
  [((s.ringLog2 log2).isNone, 2), ((s.ringPoll poll).isNone, 2), (decide (7 < path), 2), (!s.pathGiven func path, 7),
    (s.inHdm path base size, 7), (decide (base % max 4096 size ≠ 0), 9)]

def State.mkRing (s : State) (f : RingFields) : Ring where
  base := f.base.toNat
  log2 := (s.ringLog2 f.log2.toNat).getD 6
  path := f.path.toNat
  poll := (s.ringPoll f.poll.toNat).getD 0
  cqn := f.cqn.toNat
  armed := false
  h := 0
  k := 0
  pollRun := false
  reread := none
  aheadRaised := false
  own := 0
  due := 0

/-! ## Event queues -/

def vectors (f : Nat) : Nat := if f = 0 then 2048 else 64

def State.createEq (s : State) (c : CtrlHdr) (f : EqFields) : Ctl :=
  let n := c.func.toNat
  s.ctlWhen (s.gateChecks c false ++ [(c.number != 0, 2), ((tget s.eqs n).isSome, 3), (decide (vectors n ≤ f.vector.toNat), 2)] ++
      s.ringChecks c.func.toNat f.base.toNat f.log2.toNat f.path.toNat 0 32)
    { s with
      eqs := tput s.eqs n ⟨f.base, (s.ringLog2 f.log2.toNat).getD 6, f.path.toNat, f.vector.toNat, 0, 0, false,
        (tget s.eqLost n).getD 0, 0⟩
      eqLost := tdel s.eqLost n }.ctlOk

def State.destroyEq (s : State) (c : CtrlHdr) : Ctl :=
  let n := c.func.toNat
  let lost := match tget s.eqs n with
    | some e => e.lost
    | none => 0
  s.ctlWhen (s.gateChecks c false ++ [(c.number != 0, 2), ((tget s.eqs n).isNone, 4)])
    { s with eqs := tdel s.eqs n, eqLost := if lost = 0 then s.eqLost else tput s.eqLost n lost }.ctlOk

/-! ## Completion queues -/

def CtrlHdr.gnum (s : State) (c : CtrlHdr) (total : Nat) : Nat := s.global total c.func.toNat c.number.toNat

/-- QPs that exist and whose rings name the CQ. -/
def State.liveUsers (s : State) (cq : Nat) : List Nat :=
  (s.qpsOfCq cq).filter fun q => (s.presentQp q).isSome

def State.createCq (s : State) (c : CtrlHdr) (f : CqFields) : Ctl :=
  let g := CtrlHdr.gnum s c totalCqs
  s.ctlWhen (s.gateChecks c true ++ [(decide (s.cCount ≤ c.number.toNat), 2), ((tget s.wq.cqs g).isSome, 3),
      (decide (1 < f.noFlush.toNat), 2), (decide (vectors c.func.toNat ≤ f.vector.toNat), 2)] ++
      s.ringChecks c.func.toNat f.base.toNat f.log2.toNat f.path.toNat 0 32 ++ [s.twinCheck c])
    (let q : Cq := ⟨c.func.toNat, f.base.toNat, (s.ringLog2 f.log2.toNat).getD 6, f.path.toNat, f.noFlush == 0,
       f.vector.toNat, 0, 0, false, false, false, 0⟩
     { s with wq := { s.wq with cqs := tput s.wq.cqs g q } }.ctlOk)

def State.destroyCq (s : State) (c : CtrlHdr) : Ctl :=
  let g := CtrlHdr.gnum s c totalCqs
  s.ctlWhen (s.gateChecks c false ++ [(decide (s.cCount ≤ c.number.toNat), 2), ((tget s.wq.cqs g).isNone, 4),
      (!(s.liveUsers g).isEmpty, 3), s.twinCheck c])
    { s with wq := { s.wq with cqs := tdel s.wq.cqs g, cqWait := s.wq.cqWait.filter fun w => w.cqn != g } }.ctlOk

/-- R116. -/
def State.resetCq (s : State) (c : CtrlHdr) : Ctl :=
  let g := CtrlHdr.gnum s c totalCqs
  let inReset (q : Nat) : Bool := match s.qp q with
    | some x => x.st == .reset
    | none => true
  match tget s.wq.cqs g with
  | none => s.ctlWhen (s.gateChecks c false ++ [(decide (s.cCount ≤ c.number.toNat), 2)]) (s.ctlNo 4)
  | some cq =>
    s.ctlWhen (s.gateChecks c false ++ [(decide (s.cCount ≤ c.number.toNat), 2), (!cq.error, 6),
        (!(s.liveUsers g).all inReset, 6)])
      (s.updCq g fun x => { x with head := 0, w := 0, used := 0, error := false, armEvent := false }).ctlOk

/-! ## Shared receive queues -/

def State.createSrq (s : State) (c : CtrlHdr) (f : SrqFields) : Ctl :=
  let g := CtrlHdr.gnum s c totalSrqs
  let ring := s.mkRing ⟨f.base, f.log2, f.path, f.poll, 0⟩
  s.ctlWhen (s.gateChecks c true ++ [(decide (s.sCount ≤ c.number.toNat), 2), ((tget s.wq.srqs g).isSome, 3)] ++
      s.ringChecks c.func.toNat f.base.toNat f.log2.toNat f.path.toNat f.poll.toNat 64 ++ [s.twinCheck c])
    { s with wq := { s.wq with srqs := tput s.wq.srqs g ⟨c.func.toNat, ring, [], false⟩ } }.ctlOk

def State.destroySrq (s : State) (c : CtrlHdr) : Ctl :=
  let g := CtrlHdr.gnum s c totalSrqs
  s.ctlWhen (s.gateChecks c false ++ [(decide (s.sCount ≤ c.number.toNat), 2), ((tget s.wq.srqs g).isNone, 4),
      (s.wq.qps.any (fun p => p.2.srqn == some g && !p.2.freeing), 3), s.twinCheck c])
    ((({ s with wq := { s.wq with srqs := tdel s.wq.srqs g } } : State)).endAborts (.srq g)).ctlOk

/-! ## Queue pairs: what a fresh one holds -/

def Requester.fresh (rto : Nat) : Requester :=
  ⟨0, 0, [], [], 0, 0, 0, false, 0, 0, rto, rto, 0, 0, none, 0, none, 0, 0, 0, [], 0, 0, none, false, none, none⟩

def Responder.fresh : Responder :=
  ⟨0, 0, [], none, [], none, [], false, [], none, none, 0, 0, 0, [], 0, none, 0, []⟩

def QpAttr.fresh : QpAttr := ⟨0, 0, 0, 1, false, false, 0, 0, 3⟩

def State.rtoInit (s : State) : Nat := s.obj Row.rtoInit * 1000

/-- A QP in RESET. -/
def State.newQp (s : State) (func : Nat) (type : QpType) (sq : Ring) (rq : Option Ring) (srqn : Option Nat) (rcqn : Nat)
    (comm : Option Nat) (tokens : Bool) : Qp where
  func := func
  type := type
  st := .reset
  frozenFrom := .reset
  attr := QpAttr.fresh
  sq := sq
  rq := rq
  srqn := srqn
  rcqn := rcqn
  comm := comm
  tokens := tokens
  history := []
  wqes := []
  uncovered := []
  uncoveredCount := 0
  req := Requester.fresh s.rtoInit
  resp := Responder.fresh
  tier := .warm
  referenced := false
  dirty := false
  lost := false
  freeing := false
  roceRate := 2 ^ 32
  lastCnp := none
  cipher := Cipher.fresh
  regain := []
  uncertain := []
  roceNext := 0

/-! ## CREATE_QP -/

def qpTypeOf (n : Nat) : Option QpType :=
  match n with
  | 0 => some .rc
  | 1 => some .ud
  | 2 => some .coll
  | 3 => some .roceRc
  | _ => none

/-- Communicators by function and function-local number. -/
def State.commNamed (s : State) (f n : Nat) : Option (Nat × Comm) :=
  s.colls.comms.find? fun p => p.2.func == f && p.2.number == n && !p.2.freeing

/-- A number that a communicator keeps for its submitting QP (R267). -/
def State.reservedQp (s : State) (q : Nat) : Bool :=
  s.colls.comms.any fun p => Comm.connQp s p.2 p.2.rank == q

/-- QPs of a function that exist and for which `p` holds, by number. -/
def State.countQps (s : State) (f : Nat) (p : Qp → Bool) : Nat :=
  (s.wq.qps.filter fun e => e.2.func == f && !e.2.freeing && p e.2).length

/-- CQN of a ring names no CQ of the function: outside the share, or not created. -/
def State.cqChecks (s : State) (f cqn : Nat) : List (Bool × Nat) :=
  [(decide (s.cCount ≤ cqn), 2), ((tget s.wq.cqs (s.global totalCqs f cqn)).isNone, 4)]

def State.ringFieldChecks (s : State) (f : Nat) (r : RingFields) : List (Bool × Nat) :=
  s.ringChecks f r.base.toNat r.log2.toNat r.path.toNat r.poll.toNat 64 ++ s.cqChecks f r.cqn.toNat

def State.srqChecks (s : State) (f n : Nat) : List (Bool × Nat) :=
  [(decide (s.sCount ≤ n), 2), ((tget s.wq.srqs (s.global totalSrqs f n)).isNone, 4)]

/-- R359: on a paired module, no ROCE_RC QP, and no CQ or SRQ of another home. -/
def State.homeChecks (s : State) (q : Nat) (cqs srqs : List Nat) (roce : Bool) : List (Bool × Nat) :=
  let paired := decide (1 ≤ s.pairSt) && decide (s.pairSt ≤ 3)
  [(paired && roce, 2), (paired && (cqs ++ srqs).any fun n => n % 2 != q % 2, 2)]

/-- R158: the share may hold another ROCE_RC QP. -/
def State.roceRoom (s : State) (f : Nat) : Bool :=
  s.obj Row.rocePorts % 16 != 0 && decide (s.countQps f (fun x => x.type == .roceRc) < s.perShare (s.obj Row.roceQps))

def State.createQp (s : State) (c : CtrlHdr) (f : QpFields) : Ctl :=
  let fn := c.func.toNat
  let q := CtrlHdr.gnum s c totalQps
  let useSrq := f.flags.getLsbD 1
  let tokens := f.flags.getLsbD 0
  let common := s.gateChecks c true ++ [((qpTypeOf f.type.toNat).isNone, 2),
    (c.number == 0, 2), (decide (s.qCount ≤ c.number.toNat), 2), ((s.qp q).isSome, 3)]
  let room := [(tokens && decide (s.perShare 65536 ≤ s.countQps fn Qp.tokens), 5)]
  match qpTypeOf f.type.toNat with
  | some .coll =>
    match s.commNamed fn f.srqn.toNat with
    | none => s.ctlWhen common (s.ctlNo 4)
    | some (n, m) =>
      s.ctlWhen (common ++ [(q != Comm.connQp s m m.rank, 2), (m.submit.isSome, 6)] ++ room ++ s.ringFieldChecks fn f.sq)
        ((s.updComm n fun m => { m with submit := some q }).addQp q
          (s.newQp fn .coll (s.mkRing f.sq) none none f.sq.cqn.toNat (some n) tokens)).ctlOk
  | some t =>
    let cqs := [s.global totalCqs fn f.sq.cqn.toNat, s.global totalCqs fn f.rq.cqn.toNat]
    let srqs := if useSrq then [s.global totalSrqs fn f.srqn.toNat] else []
    let recv := if useSrq then s.cqChecks fn f.rq.cqn.toNat ++ s.srqChecks fn f.srqn.toNat else s.ringFieldChecks fn f.rq
    s.ctlWhen (common ++ [(s.reservedQp q, 3)] ++ room ++ [(t == .roceRc && !s.roceRoom fn, 5)] ++ s.ringFieldChecks fn f.sq ++
        recv ++ s.homeChecks q cqs srqs (t == .roceRc) ++ [if t == .roceRc then (false, 0) else s.twinCheck c])
      (s.addQp q (s.newQp fn t (s.mkRing f.sq) (if useSrq then none else some (s.mkRing f.rq)) srqs.head? f.rq.cqn.toNat none
        tokens)).ctlOk
  | none => s.ctlWhen common (s.ctlNo 2)

/-! ## Ending a QP (R116, R141, R147, R202) -/

/-- The response-cache block of a QP goes back to its share (R180). -/
def State.freeCache (s : State) (x : Qp) : State :=
  let sh := s.shareOf x.func
  if x.resp.cacheBlock then
    { s with wq := { s.wq with cacheUsed := tput s.wq.cacheUsed sh ((tget s.wq.cacheUsed sh).getD 0 - 1) } }
  else s

/-- Actions held for a mirror record of the QP. -/
def heldOf (q : Nat) : HeldAction → Bool
  | .start p _ => p == q
  | .post k => !k.transit && k.qpn == q
  | .atomic p _ => p == q

/-- Waiting CQEs, ABORTs, held actions and fetches of a QP go. -/
def State.forgetQp (s : State) (q : Nat) : State :=
  let s := { s with wq := { s.wq with
    cqWait := s.wq.cqWait.filter fun w => w.qpn != q
    aborts := s.wq.aborts.filter fun a => a.qpn != q
    outbox := s.wq.outbox.filter fun k => k.transit || k.qpn != q } }
  let s := s.updTwin fun t => { t with held := t.held.filter fun h => !heldOf q h.2 }
  { s with ctx := { s.ctx with
    fetching := s.ctx.fetching.filter fun f => f.1 != q, fetchWait := s.ctx.fetchWait.filter fun f => f.1 != q
    slotWait := s.ctx.slotWait.filter fun n => n != q
    writeback := s.ctx.writeback.filter fun w => w.1 != q } }

/-- The QP's sequence, ring and message state as RESET leaves it; rings, CQs, type and attributes stay. -/
def State.cleared (s : State) (x : Qp) : Qp :=
  { x with
    st := .reset, sq := x.sq.restart 0 0, rq := x.rq.map fun r => r.restart 0 0, history := [], wqes := []
    uncovered := [], uncoveredCount := 0, req := Requester.fresh s.rtoInit, resp := Responder.fresh
    roceRate := 2 ^ 32, lastCnp := none, roceNext := 0, cipher := Cipher.fresh, regain := [], uncertain := [] }

/-- Collectives of a submitting QP that goes end with notices; a connection QP that goes breaks its communicator. -/
def State.endCollsOf (s : State) (q : Nat) (x : Qp) : State :=
  match x.comm with
  | none => s
  | some n =>
    match s.comm n with
    | none => s
    | some m =>
      if m.submit = some q then eachDo m.colls (fun y s => s.endColl n y.k 0x07 0 (some 0x13) none) s
      else if m.freeing then s
      else s.breakComm n (s.local totalQps q - m.connBase) 0x07

/-- A QP is destroyed: no further CQE is written for it and its work ends; its number waits for QP_FREE. -/
def State.endQp (s : State) (q : Nat) (x : Qp) : State :=
  let s := s.dropParkedOf q
  let s := s.setQp q { x with freeing := true, lost := false }
  let s := (s.endCollsOf q x).freeCache x
  let s := (s.endAborts (.send q)).endAborts (.recv q)
  let s := s.forgetQp q
  (s.setQp q { s.cleared x with freeing := true, lost := false })

def State.destroyQp (s : State) (c : CtrlHdr) : Ctl :=
  let q := CtrlHdr.gnum s c totalQps
  let gate := s.gateChecks c false ++ [(c.number == 0, 2), (decide (s.qCount ≤ c.number.toNat), 2)]
  match s.qp q with
  | none => s.ctlWhen gate (s.ctlNo 4)
  | some x =>
    s.ctlWhen (gate ++ [(x.freeing, 3), if x.mirrorable then s.twinCheck c else (false, 0)]) (s.endQp q x).ctlOk

/-- QP_FREE (R141). -/
def State.qpFree (s : State) (q : Nat) : State :=
  match s.qp q with
  | none => s
  | some x =>
    if x.freeing then
      let s := { s with wq := { s.wq with qps := tdel s.wq.qps q } }
      s.raiseTo x.func 0x0304 (s.local totalQps q)
    else s

/-! ## MODIFY_QP (R145, R147, R268, R407, R409, R415, R418) -/

/-- Attributes that belong to other QP types, and values outside their fields. -/
def State.attrChecks (s : State) (x : Qp) (f : ModifyFields) : List (Bool × Nat) :=
  let connected := x.type == .rc || x.type == .roceRc
  let remoteMax := if x.type == .roceRc then 65536 else 2 ^ 20
  [(decide (256 ≤ f.mask.toNat), 1), (decide (4 < f.newState.toNat), 2),
    (f.has 6 && x.type != .ud, 2), (f.has 7 && x.type != .roceRc, 2),
    ((f.has 0 || f.has 1 || f.has 2 || f.has 3) && !connected, 2),
    (f.has 0 && (decide (remoteMax ≤ f.remoteModule.toNat) || decide (2 ^ 24 ≤ f.remoteQpn.toNat)), 2),
    (f.has 1 && decide (2 ^ 24 ≤ f.sqPsn.toNat), 2), (f.has 2 && decide (2 ^ 24 ≤ f.rqPsn.toNat), 2),
    (f.has 3 && (decide (7 < f.rnrRetry.toNat) || f.rnrDelay == 0), 2), (f.has 4 && decide (1 < f.vcClass.toNat), 2),
    (f.has 5 && decide (1 < f.cipherOn.toNat), 2), (f.has 5 && decide (s.perShare totalSlots ≤ f.keySlot.toNat), 2),
    (f.has 5 && f.cipherOn == 1 && (x.type == .ud || x.type == .roceRc), 2),
    (f.has 7 && (f.pmtu == 0 || decide (3 < f.pmtu.toNat)), 2)]

/-- Table 06-8: the transition, without RESET and ERROR, and its required attributes. -/
def Qp.transition (x : Qp) (f : ModifyFields) : Bool :=
  let connected := x.type == .rc || x.type == .roceRc
  match x.st, f.newState.toNat with
  | .reset, 1 => true
  | .init, 2 => (!connected || (f.has 0 && f.has 2)) && (x.type != .ud || f.has 6) && (x.type != .roceRc || f.has 7)
  | .rtr, 3 => !connected || f.has 1
  | .rts, 3 => !(f.has 0 || f.has 1 || f.has 2 || f.has 6 || f.has 7)
  | .reset, 4 => false
  | _, 4 => true
  | _, 0 => true
  | _, _ => false

/-- The slot a cipher attribute names holds no PACKET key; cipher attributes in RTS do more than a rollover; a QP would run
again under the load it last ran under. -/
def State.keyFault (s : State) (q : Nat) (x : Qp) (f : ModifyFields) : Bool :=
  let g := s.globalSlot x.func f.keySlot.toNat
  let k := s.keySlot g
  let connection := x.comm.isSome && x.type == .coll
  let on := if f.has 5 then f.cipherOn == 1 else x.attr.cipherOn
  let now := if f.has 5 then g else s.globalSlot x.func x.attr.keySlot
  (f.has 5 && f.cipherOn == 1 && k.usage != 1) ||
  (x.st == .rts && f.has 5 && !connection && (f.cipherOn == 1) != x.attr.cipherOn) ||
  (x.st == .init && f.newState == 2 && on && tget s.security.lastRun q == some (now, (s.keySlot now).loads))

/-- R268: a connection QP takes only cipher attributes, in RTS, before the communicator's first collective. -/
def State.connFault (s : State) (q : Nat) (x : Qp) (f : ModifyFields) : Bool :=
  match x.comm.bind s.comm with
  | none => false
  | some m => m.submit != some q && Comm.connQp s m m.rank != q &&
      (f.newState != 3 || f.mask != 0x20 || m.nextK != 0)

/-- Apply the attributes of MASK. -/
def applyAttrs (x : Qp) (f : ModifyFields) : Qp :=
  let a := x.attr
  let psn (v : BitVec 32) : Psn := BitVec.ofNat 24 v.toNat
  let a := if f.has 0 then { a with
    remoteModule := BitVec.ofNat 20 f.remoteModule.toNat, remoteQpn := BitVec.ofNat 24 f.remoteQpn.toNat } else a
  let a := if f.has 3 then { a with rnrRetry := f.rnrRetry.toNat, rnrDelay := f.rnrDelay.toNat } else a
  let a := if f.has 4 then { a with bulk := f.vcClass == 1 } else a
  let a := if f.has 6 then { a with qKey := f.qKey } else a
  let a := if f.has 7 then { a with pmtu := f.pmtu.toNat } else a
  let x := { x with attr := a }
  let x := if f.has 1 then { x with
    req := { x.req with una := psn f.sqPsn, nxt := psn f.sqPsn }
    cipher := { x.cipher with extNxt := (psn f.sqPsn).toNat, extUna := (psn f.sqPsn).toNat } } else x
  if f.has 2 then { x with
    resp := { x.resp with e := psn f.rqPsn, re := psn f.rqPsn }
    cipher := { x.cipher with extE := (psn f.rqPsn).toNat } } else x

/-- Apply CIPHER_ON and KEY_SLOT: in RTS, a new slot under CIPHER_ON = 1 starts a rollover (R418). -/
def State.applyCipher (s : State) (x : Qp) (f : ModifyFields) : Qp :=
  if !f.has 5 then x
  else
    let slot := f.keySlot.toNat
    let roll := x.st == .rts && x.attr.cipherOn && f.cipherOn == 1 && slot != x.attr.keySlot
    let a := { x.attr with cipherOn := f.cipherOn == 1, keySlot := slot }
    if roll then { x with attr := a, cipher := { x.cipher with
      prev := some x.attr.keySlot, useNew := false, leadAt := some (s.timer + s.obj Row.rollLead * 1000), graceAt := none } }
    else { x with attr := a }

/-- The slot and LOADS a protected QP runs under are recorded (R415). -/
def State.noteRun (s : State) (q : Nat) (x : Qp) : State :=
  if x.attr.cipherOn && (x.st == .rtr || x.st == .rts) then
    let g := s.globalSlot x.func x.attr.keySlot
    { s with security := { s.security with lastRun := tput s.security.lastRun q (g, (s.keySlot g).loads) } }
  else s

def qpStOf (n : Nat) : QpSt :=
  match n with
  | 1 => .init
  | 2 => .rtr
  | 3 => .rts
  | 4 => .error
  | _ => .reset

/-- The QP with the attributes of MASK applied, whatever the transition (Table 06-5). -/
def State.withAttrs (s : State) (x : Qp) (f : ModifyFields) : Qp := applyAttrs (s.applyCipher x f) f

/-- A transition to INIT, RTR or RTS. -/
def State.moveQp (s : State) (q : Nat) (x : Qp) (f : ModifyFields) : State :=
  let y := { s.withAttrs x f with st := qpStOf f.newState.toNat }
  let s := (s.setQp q y).noteRun q y
  (s.readHead (.send q)).readHead (.recv q)

/-- The QP still holds entries, CQEs or collectives that the ERROR flush has to end (R147). -/
def State.flushing (s : State) (q : Nat) : Bool :=
  match s.qp q with
  | none => false
  | some x =>
    let owes (id : RingId) : Bool := s.ringReadable id && match s.ring id with
      | some r => r.h != r.k
      | none => false
    s.wq.cqWait.any (fun w => w.qpn == q) || !x.wqes.isEmpty || owes (.send q) || (x.rq.isSome && owes (.recv q))

/-- The ERROR flush before RESET, which raises no QP_ERROR (R147). -/
def State.startReset (s : State) (q : Nat) (x : Qp) : State :=
  if x.st == .reset || x.st == .error then s else s.flushQp q x 0x07

/-- RESET itself, once the flush is over. -/
def State.endReset (s : State) (q : Nat) : State :=
  match s.qp q with
  | none => s
  | some x =>
    let s := ((s.freeCache x).endAborts (.send q)).endAborts (.recv q)
    let s := s.forgetQp q
    s.updQp q s.cleared

/-- MODIFY_QP, but for the wait of a RESET: the state after it or, with `reset`, with the flush begun. -/
def State.modifyQp (s : State) (c : CtrlHdr) (f : ModifyFields) : Ctl :=
  let q := CtrlHdr.gnum s c totalQps
  let gate := s.gateChecks c false ++ [(c.number == 0, 2), (decide (s.qCount ≤ c.number.toNat), 2)]
  match s.qp q with
  | none => s.ctlWhen gate (s.ctlNo 4)
  | some x =>
    let n := f.newState.toNat
    s.ctlWhen (gate ++ [(x.freeing, 3), (x.lost, 6)] ++ s.attrChecks x f ++
        [(!x.transition f, 6), (s.connFault q x f, 6), (s.keyFault q x f, 6),
          if x.mirrorable then s.twinCheck c else (false, 0)])
      (if n = 0 then ((s.setQp q (s.withAttrs x f)).startReset q (s.withAttrs x f)).ctlOk
       else if n = 4 then ((s.setQp q (s.withAttrs x f)).qpError q 0x07).ctlOk
       else (s.moveQp q x f).ctlOk)

/-! ## QUERY_QP -/

def QpSt.code : QpSt → Nat
  | .reset => 0
  | .init => 1
  | .rtr => 2
  | .rts => 3
  | .error => 4
  | .frozen => 5

def State.queryQp (s : State) (c : CtrlHdr) : Ctl :=
  let q := CtrlHdr.gnum s c totalQps
  let gate := s.gateChecks c false ++ [(c.number == 0, 2), (decide (s.qCount ≤ c.number.toNat), 2)]
  match s.qp q with
  | none => s.ctlWhen gate (s.ctlNo 4)
  | some x =>
    let st := if x.lost then 0xFE else x.st.code
    s.ctlWhen (gate ++ [(x.freeing, 3)])
      { st := s, result := 0, extra := st + x.req.nxt.toNat * 2 ^ 8 + x.resp.e.toNat * 2 ^ 32 }

/-! ## Regions (R148-R151) -/

def State.pagesUsed (s : State) (f : Nat) : Nat :=
  ((s.wq.regions.filter fun p => p.2.func == f && (p.2.valid || p.2.freeing.isSome)).map fun p => p.2.pages.length).sum

def State.regionChecks (s : State) (g : Nat) (c : CtrlHdr) (f : RegionFields) : List (Bool × Nat) :=
  let acc := f.access.toNat
  let ps := f.pageSize.toNat
  let path := f.path.toNat
  let pb := pageBytes ps f.length.toNat
  let pages := (f.pages.getD []).map BitVec.toNat
  let span := if ps = 0 then f.length.toNat else pb
  let taken := match tget s.wq.regions g with
    | some r => r.valid || r.freeing.isSome
    | none => false
  [(c.number == 0, 2), (decide (s.perShare totalRegions ≤ c.number.toNat), 2), (decide (4 < ps), 2),
    (taken, 3), (f.length == 0 || decide (2 ^ 40 < f.length.toNat), 2), (ps == 0 && f.pageCount != 1, 2),
    (ps != 0 && decide (f.pageCount.toNat * pb < f.length.toNat), 2),
    ((acc.testBit 2 || acc.testBit 3) && !acc.testBit 0, 2), (decide (s.qCount ≤ f.bindQpn.toNat), 2), (decide (7 < path), 2),
    (!s.pathGiven c.func.toNat path, 7), (acc.testBit 3 && ((s.hp path).isCxlMem || !(s.hp path).atomics), 7),
    (decide (s.perShare totalPages < s.pagesUsed c.func.toNat + f.pageCount.toNat), 5), (f.pages.isNone, 8),
    (pages.any fun p => s.inHdm path p span, 7),
    (ps != 0 && (f.va.toNat % pb != 0 || pages.any fun p => p % pb != 0), 9)]

def State.regRegion (s : State) (c : CtrlHdr) (f : RegionFields) : Ctl :=
  let g := CtrlHdr.gnum s c totalRegions
  let gen : Byte := match tget s.wq.regions g with
    | some r => r.gen
    | none => 1
  let r : Region := ⟨c.func.toNat, f.va.toNat, f.length.toNat, f.path.toNat, f.pageSize.toNat, f.access.toNat % 32,
    f.bindQpn.toNat, (f.pages.getD []).map BitVec.toNat, gen, true, none, false⟩
  s.ctlWhen (s.gateChecks c true ++ s.regionChecks g c f ++ [s.twinCheck c])
    { st := ({ s with wq := { s.wq with regions := tput s.wq.regions g r } }).dropTranslations g, result := 0, value := some (g * 256 + gen.toNat) }

/-- The generation after `g`: from 255 to 1. -/
def nextGen (g : Byte) : Byte := if g = 255 then 1 else g + 1

/-- A READ or atomic that passed its checks against region `g` is still to execute. -/
def State.regionHeld (s : State) (g : Nat) : Bool := s.wq.qps.any fun p => p.2.resp.heldReqs.any fun h => h.region == g

/-- The flushing read that frees region `g` is issued once nothing that passed a check against it is left (R151). -/
def State.flushRegion (s : State) (g : Nat) : State :=
  match tget s.wq.regions g with
  | none => s
  | some r =>
    if r.freeing != some 0 || s.regionHeld g then s
    else (s.updRegion g fun x => { x with freeing := some (s.flushTicket r.path) }).wantFlush r.path

/-- Regions whose flushing read waits. -/
def State.flushRegions (s : State) : State :=
  eachDo (tkeys (s.wq.regions.filter fun p => p.2.freeing == some 0)) (fun g s => s.flushRegion g) s

/-- The generation advances at once (R150). READs and atomics that passed a check against the region still execute; then a
flushing read on PATH frees it (R151). -/
def State.endRegion (s : State) (g : Nat) : State :=
  ((s.updRegion g fun r => { r with gen := nextGen r.gen, valid := false, freeing := some 0, poisoned := false }).dropTranslations g).flushRegion g

def State.deregRegion (s : State) (c : CtrlHdr) : Ctl :=
  let g := CtrlHdr.gnum s c totalRegions
  let gate := s.gateChecks c false ++ [(c.number == 0, 2), (decide (s.perShare totalRegions ≤ c.number.toNat), 2)]
  match tget s.wq.regions g with
  | none => s.ctlWhen gate (s.ctlNo 4)
  | some r =>
    s.ctlWhen (gate ++ [(r.freeing.isSome, 3), (!r.valid, 4), s.twinCheck c]) (s.endRegion g).ctlOk

/-! ## CONFLICT (R382) -/

/-- The PF holds an object in share 0 besides its EQ. -/
def State.pfHolds (s : State) : Bool :=
  s.wq.qps.any (fun p => p.2.func == 0) || s.wq.cqs.any (fun p => p.2.func == 0) || s.wq.srqs.any (fun p => p.2.func == 0) ||
  s.wq.regions.any (fun p => p.2.func == 0 && (p.2.valid || p.2.freeing.isSome)) || s.colls.comms.any (fun p => p.2.func == 0) ||
  (tkeys s.colls.scheds ++ tkeys s.colls.bindings ++ tkeys s.colls.kernels ++ tkeys s.colls.shards).any fun k => k / 65536 == 0

def State.setFuncSt (s : State) (f n : Nat) : State :=
  { s with tenant := { s.tenant with funcs := tupd s.tenant.funcs f fun x => { x with st := n } } }

/-- VF P leaves CONFLICT once the PF's last object in share 0 is freed. -/
def State.settleConflict (s : State) : State :=
  if s.funcSt s.shares = 6 && !s.pfHolds then s.setFuncSt s.shares 1 else s

end Sys2Proof.Machine
end

