-- ==== Sys2Proof/Machine/CollObjects.lean ====
section
/-! DEFINITION. Control commands on communicators, schedule images, arithmetic bindings, kernels and shards (R266-R271,
R306, R309, R310, R315-R318, R328, R332). -/

namespace Sys2Proof.Machine

/-- Ids of one kind that function `f` holds. -/
def idsOf {α : Type} (t : Tab α) (f : Nat) : Nat := (t.filter fun p => p.1 / 65536 == f).length

/-- A range of `len` bytes from `off` passes the end of the function's share of STATE. -/
def State.pastState (s : State) (off len : Nat) : Bool := decide (s.stateShare < off + len)

/-- A function-local id is 1 to 65,535. -/
def badId (n : Nat) : Bool := n == 0 || decide (65535 < n)

/-! ## Communicators -/

/-- A level word with its defaults resolved, or none when it breaks a rule of R306. -/
def State.levelWord (s : State) (l : Nat) (w : BitVec 16) : Option LevelWord :=
  let n := w.toNat
  let fmt := n % 256
  let round := n / 2 ^ 8 % 16
  let ef := n.testBit 15
  if 7 < fmt || 3 < round || n / 2 ^ 12 % 8 != 0 || (ef && l == 0) then none
  else some ⟨if fmt = 0 then s.obj Row.levelFormat 0 l else fmt, if round = 0 then s.obj Row.levelRound 0 l else round, ef⟩

/-- Level formats never widen from a level to the next. -/
def narrowing : List LevelWord → Bool
  | a :: b :: ws => decide (fmtWidth b.fmt ≤ fmtWidth a.fmt) && narrowing (b :: ws)
  | _ => true

def State.levelWords (s : State) (ws : List (BitVec 16)) : List (Option LevelWord) :=
  (List.range 4).map fun l => s.levelWord l (ws.getD l 0)

/-- Fields of a member table entry (Table 12-3). -/
def memberModule (e : BitVec 64) : Nat := e.toNat % 2 ^ 20
def memberBase (e : BitVec 64) : Nat := e.toNat / 2 ^ 24 % 2 ^ 24

def State.stageShareMib (s : State) : Nat := s.mem.layout.stage * 1024 / s.shares

def State.commChecks (s : State) (c : CtrlHdr) (f : CommFields) : List (Bool × Nat) :=
  let fn := c.func.toNat
  let n := f.n.toNat
  let base := f.connBase.toNat
  let rank := f.myRank.toNat
  let dest := f.mtDest.toNat
  let g := s.global totalComms fn c.number.toNat
  let words := s.levelWords f.levelArith
  let table := f.table.getD []
  let own := table.getD rank 0
  [(decide (s.perShare totalComms ≤ c.number.toNat), 2), ((s.comm g).isSome, 3), (n == 0 || decide (65536 < n), 2),
    (decide (n ≤ rank), 2), (words.any Option.isNone || !narrowing (words.filterMap id), 2),
    (decide (s.stageShareMib < f.ovfBase.toNat + f.ovfSize.toNat), 2), (base == 0, 2), (decide (s.qCount < base + n), 5),
    (s.pastState dest (8 * n), 5),
    (decide (s.perShare totalComms ≤ (s.colls.comms.filter fun p => p.2.func == fn).length), 5),
    (decide (dest % 4096 ≠ 0), 9),
    ((List.range n).any fun i => let q := s.global totalQps fn (base + i); (s.qp q).isSome || s.reservedQp q, 3),
    (s.stateInUse fn [(dest, dest + 8 * n)], 3), (f.table.isNone, 8),
    (memberModule own != s.ownAddress.toNat || memberBase own != s.global totalQps fn base, 2),
    ((List.range n).any fun i => (s.pairOf (memberModule (table.getD i 0))).isSome, 2)]

/-- A connection QP: type COLL, no rings, PSNs from 0, in RTS. It names no CQ: its CQ number is outside every share. -/
def State.connection (s : State) (f : Nat) (comm : Nat) (path : Nat) (e : BitVec 64) (rank : Nat) : Qp :=
  let none_ : Ring := ⟨0, 6, path, 0, 2 ^ 32, false, 0, 0, false, none, false, 0, 0⟩
  let x := s.newQp f .coll none_ none none (2 ^ 32) (some comm) false
  { x with
    st := .rts
    attr := { x.attr with
      remoteModule := BitVec.ofNat 20 (memberModule e), remoteQpn := BitVec.ofNat 24 (memberBase e + rank) } }

def State.createComm (s : State) (c : CtrlHdr) (f : CommFields) : Ctl :=
  let fn := c.func.toNat
  let g := s.global totalComms fn c.number.toNat
  let n := f.n.toNat
  let rank := f.myRank.toNat
  let table := f.table.getD []
  let x : Comm := ⟨fn, c.number.toNat, n, rank, f.epoch.toNat, f.connBase.toNat, f.mtDest.toNat,
    (s.levelWords f.levelArith).filterMap id, f.ovfBase.toNat, f.ovfSize.toNat, 0, false, none, 0, [], [], [], false⟩
  s.ctlWhen (s.gateChecks c true ++ s.commChecks c f)
    (let bytes := (List.range n).flatMap fun i => leBytes 8 (table.getD i 0).toNat
     let s := s.stateWrite fn f.mtDest.toNat bytes
     let s := s.setComm g x
     (eachDo ((List.range n).filter fun r => r != rank) (fun r s =>
       s.addQp (Comm.connQp s x r) (s.connection fn g 0 (table.getD r 0) rank)) s).ctlOk)

/-- The connection QPs of a communicator. -/
def State.connections (s : State) (x : Comm) : List Nat :=
  ((List.range x.n).filter fun r => r != x.rank).map fun r => Comm.connQp s x r

/-- A communicator goes: its collectives end in silence and its connection QPs are destroyed; COMM_FREE is due. -/
def State.endComm (s : State) (g : Nat) : State :=
  let s := s.silenceComm g
  let s := s.updComm g fun x => { x with freeing := true, early := [], ahead := [] }
  match s.comm g with
  | none => s
  | some x => eachDo (s.connections x) (fun q s => match s.qp q with
      | some y => if y.freeing then s else s.endQp q y
      | none => s) s

def State.destroyComm (s : State) (c : CtrlHdr) : Ctl :=
  let g := s.global totalComms c.func.toNat c.number.toNat
  let gate := s.gateChecks c false ++ [(decide (s.perShare totalComms ≤ c.number.toNat), 2)]
  match s.comm g with
  | none => s.ctlWhen gate (s.ctlNo 4)
  | some x =>
    let submitting := match x.submit.bind s.presentQp with
      | some _ => true
      | none => false
    s.ctlWhen (gate ++ [(x.freeing, 4), (submitting, 3)]) (s.endComm g).ctlOk

/-- COMM_FREE. -/
def State.commFree (s : State) (f n : Nat) : State :=
  let g := s.global totalComms f n
  match s.comm g with
  | none => s
  | some x =>
    if x.freeing && x.func == f then
      let s := { s with colls := { s.colls with comms := tdel s.colls.comms g } }
      s.raiseTo f 0x0703 n
    else s

/-! ## Schedule images -/

/-- Table 12-4. -/
def schedHeaderOk (b : List Byte) (length id : Nat) : Bool :=
  leField b 0 4 == 0x4E4B5343 && leField b 4 2 == 1 && leField b 6 2 == id && length == 64 + leField b 32 8 &&
    decide (length ≤ 4194304) && leField b 16 2 * leField b 18 2 * leField b 20 2 == leField b 8 4 &&
    leField b 60 4 == crc32c (slice b 0 60 ++ b.drop 64)

def State.loadSchedule (s : State) (c : CtrlHdr) (f : ImageFields) : Ctl :=
  let fn := c.func.toNat
  let id := c.number.toNat
  let len := f.length.toNat
  let dest := f.dest.toNat
  let b := slice (f.image.getD []) 0 len
  let x : Sched := ⟨dest, len, leField b 8 4, leField b 12 2, (leField b 16 2, leField b 18 2, leField b 20 2), leField b 22 2⟩
  s.ctlWhen (s.gateChecks c true ++ [(badId id, 2), (s.pastState dest len, 2), (decide (dest % 4096 ≠ 0), 9),
      ((s.sched fn id).isSome, 3), (s.stateInUse fn [(dest, dest + len)], 3),
      (decide (s.perShare totalScheds ≤ idsOf s.colls.scheds fn), 5), (decide (4194304 < len), 0xB), (f.image.isNone, 8),
      (!schedHeaderOk b len id || !f.stepsOk, 0xB)])
    (let s := s.stateWrite fn dest b
     { s with colls := { s.colls with scheds := tput s.colls.scheds (fid fn id) x } }.ctlOk)

def State.unloadSchedule (s : State) (c : CtrlHdr) : Ctl :=
  let fn := c.func.toNat
  let id := c.number.toNat
  s.ctlWhen (s.gateChecks c false ++ [(badId id, 2), ((s.sched fn id).isNone, 4),
      (s.collUses fn fun y => y.sqe.schedId.toNat == id, 3)])
    (({ s with colls := { s.colls with scheds := tdel s.colls.scheds (fid fn id) } } : State).dropImage false (fid fn id)).ctlOk

/-! ## Arithmetic bindings -/

/-- A residual area, none for all ones. -/
def efArea (a : BitVec 64) : Option Nat := if a = BitVec.allOnes 64 then none else some a.toNat

def bindRecord (count seed : Nat) : List Byte := leBytes 8 count ++ List.replicate 8 0 ++ leBytes 8 seed ++ List.replicate 40 0

def State.arithBind (s : State) (c : CtrlHdr) (f : BindFields) : Ctl :=
  let fn := c.func.toNat
  let id := c.number.toNat
  let count := f.count.toNat
  let rec_ := f.record.toNat
  let adopt := f.flags.getLsbD 0
  let areas := (List.range 3).map fun l => efArea (f.efBase.getD l (BitVec.allOnes 64))
  let b : Binding := ⟨count, rec_, areas⟩
  s.ctlWhen (s.gateChecks c true ++ [(decide (1 < f.flags.toNat), 2), (badId id, 2), (count == 0, 2),
      (b.ranges.any fun r => decide (s.stateShare < r.2), 2), ((s.binding fn id).isSome, 3), (s.stateInUse fn b.ranges, 3),
      (decide (rec_ % 64 ≠ 0) || (areas.filterMap (fun a => a)).any fun a => decide (a % 4096 ≠ 0), 9),
      (decide (s.perShare totalScheds ≤ idsOf s.colls.bindings fn), 5),
      (adopt && !f.recordOk, 8), (adopt && leField (s.stateRead fn rec_ 64) 0 8 != count, 2)])
    (let s := if adopt then s else s.stateWrite fn rec_ (bindRecord count f.seed.toNat)
     { s with colls := { s.colls with bindings := tput s.colls.bindings (fid fn id) b } }.ctlOk)

def State.arithUnbind (s : State) (c : CtrlHdr) : Ctl :=
  let fn := c.func.toNat
  let id := c.number.toNat
  s.ctlWhen (s.gateChecks c false ++ [(badId id, 2), ((s.binding fn id).isNone, 4),
      (s.collUses fn fun y => y.sqe.schedId.toNat == id, 3)])
    { s with colls := { s.colls with bindings := tdel s.colls.bindings (fid fn id) } }.ctlOk

/-! ## Kernels -/

/-- Little-endian 32-bit words. -/
def wordsOf : Nat → List Byte → List (BitVec 32)
  | 0, _ => []
  | n + 1, b => BitVec.ofNat 32 (leField b 0 4) :: wordsOf n (b.drop 4)

/-- Table 14-9. -/
def kernelHeaderOk (b : List Byte) (length id : Nat) : Bool :=
  let n := leField b 8 1
  leField b 0 4 == 0x4E4B4B31 && leField b 4 2 == 1 && leField b 6 2 == id && decide (1 ≤ n) && decide (n ≤ 64) &&
    (leField b 9 1 == 1 || leField b 9 1 == 2) && decide (leField b 10 1 < 16) && leField b 11 1 % 2 == 0 &&
    decide (leField b 11 1 < 32) && leField b 12 16 == 0 && length == 32 + 4 * (n + 1) &&
    leField b 28 4 == crc32c (slice b 0 28 ++ b.drop 32)

def State.loadKernel (s : State) (c : CtrlHdr) (f : ImageFields) : Ctl :=
  let fn := c.func.toNat
  let id := c.number.toNat
  let len := f.length.toNat
  let dest := f.dest.toNat
  let b := slice (f.image.getD []) 0 len
  let n := leField b 8 1
  let words := wordsOf (n + 1) (b.drop 32)
  let x : Kernel := ⟨dest, len, leField b 9 1, leField b 10 1, leField b 11 1, words.take n⟩
  s.ctlWhen (s.gateChecks c true ++ [(badId id, 2), (s.pastState dest len, 2), (decide (dest % 64 ≠ 0), 9),
      ((s.kernel fn id).isSome, 3), (s.stateInUse fn [(dest, dest + len)], 3),
      (decide (s.perShare totalKernels ≤ idsOf s.colls.kernels fn), 5), (decide (292 < len), 0xB), (f.image.isNone, 8),
      (!kernelHeaderOk b len id, 0xB)])
    (match kernelFault n x.reads x.writes words with
     | some i => { st := s, result := 0xC, extra := i }
     | none =>
       let s := s.stateWrite fn dest b
       { s with colls := { s.colls with kernels := tput s.colls.kernels (fid fn id) x } }.ctlOk)

def State.unloadKernel (s : State) (c : CtrlHdr) : Ctl :=
  let fn := c.func.toNat
  let id := c.number.toNat
  s.ctlWhen (s.gateChecks c false ++ [(badId id, 2), ((s.kernel fn id).isNone, 4),
      (s.collUses fn fun y => y.kind == 9 && kernelId y.sqe == id, 3)])
    (({ s with colls := { s.colls with kernels := tdel s.colls.kernels (fid fn id) } } : State).dropImage true (fid fn id)).ctlOk

/-! ## Shards -/

def momentFmt (n : Nat) : Bool := decide (n ≤ 2)

/-- The record found at RECORD belongs to this shard (ADOPT). -/
def Shard.adopts (h : Shard) (r : List Byte) : Bool :=
  shardCrcOk r && leField r 0 8 == h.count && leField r 8 8 == h.first && leField r 16 8 == h.length && leField r 32 1 == h.pFmt &&
    leField r 33 1 == h.m1Fmt && leField r 34 1 == h.m2Fmt && leField r 35 1 == h.qFmt && leField r 40 8 == h.base

def State.defineShard (s : State) (c : CtrlHdr) (f : ShardFields) : Ctl :=
  let fn := c.func.toNat
  let id := c.number.toNat
  let h : Shard := ⟨f.count.toNat, f.first.toNat, f.length.toNat, f.record.toNat, f.base.toNat, f.pFmt.toNat, f.m1Fmt.toNat,
    f.m2Fmt.toNat, f.qFmt.toNat, none⟩
  let adopt := f.flags.getLsbD 0
  s.ctlWhen (s.gateChecks c true ++ [(decide (1 < f.flags.toNat), 2), (badId id, 2), (h.length == 0, 2),
      (decide (h.first % 32 ≠ 0), 2), (decide (h.count < h.first + h.length), 2),
      (h.pFmt == 0 || decide (2 < h.pFmt) || !momentFmt h.m1Fmt || !momentFmt h.m2Fmt || h.qFmt == 0 || decide (7 < h.qFmt), 2),
      (h.ranges.any fun r => decide (s.stateShare < r.2), 2), ((s.shard fn id).isSome, 3), (s.stateInUse fn h.ranges, 3),
      (decide (h.record % 64 ≠ 0) || decide (h.base % 4096 ≠ 0), 9),
      (decide (s.perShare totalKernels ≤ idsOf s.colls.shards fn), 5),
      (adopt && !f.recordOk, 8), (adopt && !h.adopts (s.stateRead fn h.record 64), 2)])
    (let s := if adopt then s else s.stateWrite fn h.record (h.recBytes 0 0)
     { s with colls := { s.colls with shards := tput s.colls.shards (fid fn id) h } }.ctlOk)

/-- A consumed collective uses the shard. -/
def State.shardUsed (s : State) (f id : Nat) : Bool := s.collUses f fun y => y.kind == 9 && shardId y.sqe == id

def State.removeShard (s : State) (c : CtrlHdr) : Ctl :=
  let fn := c.func.toNat
  let id := c.number.toNat
  let gate := s.gateChecks c false ++ [(badId id, 2)]
  match s.shard fn id with
  | none => s.ctlWhen gate (s.ctlNo 4)
  | some h =>
    s.ctlWhen (gate ++ [(h.xfer.isSome || s.shardUsed fn id, 3)])
      { s with colls := { s.colls with shards := tdel s.colls.shards (fid fn id) } }.ctlOk

def State.shardXfer (s : State) (c : CtrlHdr) (f : XferFields) : Ctl :=
  let fn := c.func.toNat
  let id := c.number.toNat
  let gate := s.gateChecks c false ++ [(badId id, 2)]
  let k := f.stream.toNat
  match s.shard fn id with
  | none => s.ctlWhen gate (s.ctlNo 4)
  | some h =>
    s.ctlWhen (gate ++ [(decide (1 < f.dir.toNat), 2), (k == 0 || decide (3 < k) || h.fmt k == 0, 2),
        (decide (h.length < f.start.toNat + f.elements.toNat), 2), (decide (7 < f.path.toNat), 2),
        (h.xfer.isSome || s.shardUsed fn id, 3), (!s.pathGiven fn f.path.toNat, 7)])
      (let h := { h with xfer := some (f.dir.toNat, k, f.path.toNat, f.start.toNat, f.elements.toNat, f.addr.toNat) }
       { s with colls := { s.colls with shards := tput s.colls.shards (fid fn id) h } }.ctlOk)

end Sys2Proof.Machine
end

