-- ==== Sys2Proof/Machine/Tenant.lean ====
section
/-! DEFINITION. Functions: enabling, the mailbox, function-level reset, freeze, save, restore and forwarding (R86,
R381-R396). -/

namespace Sys2Proof.Machine

def FuncSt.fresh (st : Nat) : FuncSt := ⟨st, false, none, none, 0, 0⟩

def State.func (s : State) (f : Nat) : FuncSt := (tget s.tenant.funcs f).getD (FuncSt.fresh (if f = 0 then 1 else 0))

def State.setFunc (s : State) (f : Nat) (x : FuncSt) : State :=
  { s with tenant := { s.tenant with funcs := tput s.tenant.funcs f x } }

/-- Enabled VFs in rising order. -/
def State.liveVfs (s : State) : List Nat := if s.tenant.vfEnable then (List.range s.tenant.numVfs).map (· + 1) else []

/-! ## The end of a function's objects (step 1 of R388) -/

/-- A QP goes without a CQE, an event or a notice. -/
def State.wipeQp (s : State) (q : Nat) (x : Qp) : State :=
  let s := ((s.dropParkedOf q).freeCache x).forgetQp q
  { s with wq := { s.wq with qps := tdel s.wq.qps q } }

/-- A region goes; its number keeps the generation after the one that ended. -/
def wipeRegion (f : Nat) (r : Region) : Region :=
  if r.func = f && (r.valid || r.freeing.isSome) then
    { r with gen := if r.valid then nextGen r.gen else r.gen, valid := false, freeing := none, pages := [], poisoned := false }
  else r

/-- Objects of the window of VF `f`: everything from 0xC000 to 0xCFFF of its instance; its mailbox is 0xC001. -/
def windowKey (f k : Nat) : Bool := decide (k / 256 / 4096 = 12 + 16 * f)
def mailboxKey (f k : Nat) : Bool := decide (k / 256 = 0xC001 + 65536 * f)

/-- Every object of function `f`, its EQ included, goes in silence. -/
def State.wipeObjects (s : State) (f : Nat) : State :=
  let own {α : Type} (t : Tab α) : Tab α := t.filter fun p => p.1 / 65536 != f
  let s := { s with eqs := tdel s.eqs f, eqLost := tdel s.eqLost f }
  let s := eachDo (s.colls.comms.filter fun p => p.2.func == f) (fun p s => s.silenceComm p.1) s
  let s := eachDo (s.wq.qps.filter fun p => p.2.func == f) (fun p s => s.wipeQp p.1 p.2) s
  let cqs := (s.wq.cqs.filter fun p => p.2.func == f).map Prod.fst
  { s with
    wq := { s.wq with
      cqs := s.wq.cqs.filter fun p => p.2.func != f
      srqs := s.wq.srqs.filter fun p => p.2.func != f
      regions := s.wq.regions.map fun p => (p.1, wipeRegion f p.2)
      cqWait := s.wq.cqWait.filter fun w => !cqs.contains w.cqn }
    colls := { s.colls with
      comms := s.colls.comms.filter fun p => p.2.func != f
      scheds := own s.colls.scheds, bindings := own s.colls.bindings
      kernels := own s.colls.kernels, shards := own s.colls.shards
      images := s.colls.images.filter fun e => e.2.1 / 65536 != f }
    ctx := { s.ctx with regions := s.ctx.regions.filter fun e => (tget s.wq.regions e.1).all fun r => r.func != f } }

def State.dropKeys (s : State) (p : Nat → Bool) : State :=
  { s with od := s.od.filter fun e => !p e.1, blobs := s.blobs.filter fun e => !p e.1 }

/-- With the objects, a VF's mailboxes clear (step 1 of R388). -/
def State.wipeFunction (s : State) (f : Nat) : State :=
  if f = 0 then s.wipeObjects f else (s.wipeObjects f).dropKeys (mailboxKey f)

/-! ## Function-level reset (R388) -/

/-- Share `sh`'s slices of STATE, STAGE and HDM, zeroed in the background. -/
def State.initShare (s : State) (sh : Nat) : State :=
  let l := s.mem.layout
  let part (k : Nat) (s : State) : State :=
    let n := l.size k * gib / s.shares
    let lo := l.base k * gib + sh * n
    s.memClear lo (lo + n)
  let touched (u : Nat) : Bool := ([2, 3, 4] : List Nat).any fun k =>
    let n := l.size k * gib / s.shares
    let lo := l.base k * gib + sh * n
    decide (u * gib < lo + n) && decide (lo < (u + 1) * gib)
  let map := (((List.range 1430).filter touched).map (2 ^ ·)).sum
  let s := part 4 (part 3 (part 2 s))
  s.startInit (ceilDiv (l.state + l.stage + l.hdm) s.shares) map

/-- A SAVE that runs for the function ends with result 2. -/
def State.abandonSave (s : State) (f : Nat) : State :=
  match (s.func f).saving with
  | none => s
  | some n => s.raisePf 0x1003 0 (f + 2 * 2 ^ 16) n

/-- A function's configuration space and MSI-X state are cleared. -/
def State.dropConfig (s : State) (f : Nat) : State :=
  { s with host := { s.host with
      config := s.host.config.filter fun p => p.1 / 4096 != f
      msixOn := s.host.msixOn.erase f, msixMask := s.host.msixMask.erase f
      msixTable := s.host.msixTable.filter fun p => p.1 / 8192 != f
      msixPending := s.host.msixPending.filter fun n => n / 2048 != f } }

/-- One VF enters RESETTING; its window counts clear (R387). -/
def State.resetVf (s : State) (f : Nat) : State :=
  if s.funcSt f = 0 || s.funcSt f = 5 then s
  else
    let s := (((s.abandonSave f).wipeFunction f).dropKeys (windowKey f)).dropConfig f
    let s := (s.clearShareSlots (s.shareOf f)).initShare (s.shareOf f)
    (s.setFunc f (FuncSt.fresh 5)).settleConflict

/-- An FLR of the PF resets every enabled VF and destroys the PF's own objects. -/
def State.flr (s : State) (f : Nat) : State :=
  if !s.firmwareRuns then s
  else if f = 0 then (((eachDo s.liveVfs (fun n s => s.resetVf n) s).wipeFunction 0).dropConfig 0).settleConflict
  else if s.functionLive f then s.resetVf f
  else s

/-- VF `f` enters service: VF P waits in CONFLICT while the PF holds objects in share 0 (R382). -/
def State.startVf (s : State) (f : Nat) : State :=
  if f = s.shares && s.pfHolds then (s.setFunc f (FuncSt.fresh 6)).raisePf 0x1006 0 f
  else s.setFunc f (FuncSt.fresh 1)

/-- The reset is complete. -/
def State.vfFlrDone (s : State) (f : Nat) : State :=
  if s.funcSt f ≠ 5 then s
  else
    let s := s.bump Row.flrCount
    let s := if s.functionLive f then s.startVf f
      else { s with tenant := { s.tenant with funcs := tdel s.tenant.funcs f } }
    s.raisePf 0x1005 0 f

/-! ## VF Enable (R86) -/

def State.vfEnable (s : State) (enable : Bool) (n : Nat) : State :=
  if s.host.perst then s
  else if !enable then
    let vfs := s.liveVfs
    let s := { s with tenant := { s.tenant with vfEnable := false } }
    let s := s.setObj Row.vfsEnabled 0
    eachDo vfs (fun f s => s.resetVf f) s
  else if s.tenant.vfEnable || s.shares < n then s
  else
    let s := { s with tenant := { s.tenant with vfEnable := true, numVfs := n } }
    let s := s.setObj Row.vfsEnabled n
    eachDo s.liveVfs (fun f s => if s.funcSt f = 5 then s else s.startVf f) s

/-! ## The mailbox (R386) -/

/-- The VF writes MSG_TO_PF. -/
def State.messageToPf (s : State) (f off : Nat) (data : List Byte) : State :=
  let i := f * 65536
  let s := s.setObjField Row.msgToPf off data.length (leNat data) i
  let s := s.bump Row.msgToPfSeq 1 i
  let s := s.setFunc f { s.func f with untaken := true }
  s.raisePf 0x1001 0 f (s.obj Row.msgToPfSeq i)

/-- The PF takes the message. -/
def State.takeMessage (s : State) (f : Nat) : State := s.setFunc f { s.func f with untaken := false }

/-- The PF writes MSG_FROM_PF: the count goes to the VF's status page, and vector 0 is sent. -/
def State.messageFromPf (s : State) (f off : Nat) (data : List Byte) : State :=
  let i := f * 65536
  let s := s.setObjField Row.msgFromPf off data.length (leNat data) i
  let s := s.bump Row.msgFromPfSeq 1 i
  (s.emit (.statusPage f 0x10 (s.obj Row.msgFromPfSeq i))).msix f 0

/-! ## Freeze and thaw (R390, R391, R396) -/

/-- Function and state checks of a migration command. -/
def State.moveChecks (s : State) (c : CtrlHdr) (states : List Nat) : List (Bool × Nat) :=
  [(c.number != 0, 2), (c.func == 0, 2), (!states.contains (s.funcSt c.func.toNat), 6)]

def State.pairing (s : State) : Bool := decide (1 ≤ s.pairSt) && decide (s.pairSt ≤ 3)

/-- The function holds a collective or apply object. -/
def State.holdsColl (s : State) (f : Nat) : Bool :=
  s.colls.comms.any (fun p => p.2.func == f) ||
  (tkeys s.colls.scheds ++ tkeys s.colls.bindings ++ tkeys s.colls.kernels ++ tkeys s.colls.shards).any fun k => k / 65536 == f

/-- A request that has not been answered goes back to ABSENT; an AtomicOp outstanding stays until it completes. -/
def Responder.stopHeld (r : Responder) : Responder :=
  let gone := r.heldReqs.filter fun h => !(h.issued && isAtomicOp h.arrival.pkt.opcode)
  { r with
    heldReqs := r.heldReqs.filter fun h => h.issued && isAtomicOp h.arrival.pkt.opcode
    window := gone.foldl (fun t h => tdel t h.arrival.pkt.psn.toNat) r.window }

/-- A QP of a function that freezes. READ responses not yet presented stop. -/
def State.freezeQp (s : State) (q : Nat) (x : Qp) : State :=
  let stays (k : QPkt) : Bool := k.transit || k.qpn != q || k.pkt.opcode != 0x20
  let eg : Tab EgressVc := s.traffic.egress.map fun (e : Nat × EgressVc) => (e.1, { e.2 with queue := e.2.queue.filter stays })
  let s := { s with wq := { s.wq with outbox := s.wq.outbox.filter stays }, traffic := { s.traffic with egress := eg } }
  let st := if x.st == .rts || x.st == .rtr then QpSt.frozen else x.st
  s.setQp q { x with st := st, frozenFrom := x.st, resp := x.resp.stopHeld }

/-- Half-ports that carry a function's data. -/
def State.dataPaths (s : State) (f : Nat) : List Nat :=
  ((s.wq.regions.filter fun p => p.2.func == f && p.2.valid).map fun p => p.2.path).eraseDups

def State.freezeFunc (s : State) (c : CtrlHdr) : Ctl :=
  let f := c.func.toNat
  s.ctlWhen (s.gateChecks c false ++ s.moveChecks c [1] ++ [(s.holdsColl f, 6), (s.pairing, 6)])
    (let s := s.setFuncSt f 2
     let s := eachDo (s.wq.qps.filter fun p => p.2.func == f) (fun p s => s.freezeQp p.1 p.2) s
     (eachDo (s.dataPaths f) (fun h s => s.wantFlush h) s).ctlOk)

/-- Consumed entries a function holds. -/
def State.heldSqes (s : State) (f : Nat) : Nat :=
  ((s.wq.qps.filter fun p => p.2.func == f).map fun p =>
    (p.2.wqes.filter fun w => !w.ended).length + p.2.resp.recvs.length).sum

/-- Work of the function inside the module that the freeze waits for. -/
def State.unfinished (s : State) (f : Nat) : Bool :=
  s.wq.qps.any (fun p => p.2.func == f && (!p.2.resp.heldReqs.isEmpty || s.wq.cqWait.any fun w => w.qpn == p.1)) ||
  (s.dataPaths f).any fun h => (s.hp h).flushing.isSome

/-- The drain of the freeze ends. -/
def State.funcFrozen (s : State) (f : Nat) : State :=
  if s.funcSt f ≠ 2 || s.unfinished f then s
  else (s.setFuncSt f 3).raisePf 0x1002 0 f (s.heldSqes f)

/-- A thawed QP resumes as a survivor does: from UNA, without credit (R370, R396). -/
def thawQp (x : Qp) : Qp :=
  if x.st != .frozen then x
  else { x with
    st := x.frozenFrom
    req := { x.req with
      resend := x.req.flight.map Flight.psn, retries := 0, rnrRetries := 0, rnrFrom := none, parkFrom := none, parkCount := 0
      balance := 0, credits := [], need := 0, reported := 0, lastReport := none, waitSince := none } }

def State.thawFunc (s : State) (c : CtrlHdr) : Ctl :=
  let f := c.func.toNat
  s.ctlWhen (s.gateChecks c false ++ s.moveChecks c [3])
    (let s := s.setFuncSt f 1
     let qs := (s.wq.qps.filter fun p => p.2.func == f).map Prod.fst
     (eachDo qs (fun q s => ((s.updQp q thawQp).readHead (.send q)).readHead (.recv q)) s).ctlOk)

/-! ## Save (R393) -/

/-- WRAP_SLOT names no MIGRATION key while a key is to be wrapped. -/
def State.wrapFault (s : State) (f slot : Nat) (needed : Bool) : Bool := needed && (s.keySlot (s.globalSlot f slot)).usage != 2

/-- The share holds a PACKET key. -/
def State.holdsKeys (s : State) (f : Nat) : Bool :=
  let n := s.perShare totalSlots
  s.security.slots.any fun p => p.2.usage == 1 && n != 0 && p.1 / n == s.shareOf f

/-- The 64 B header of a VF's image (Table 17-5, R8). How many sections the firmware writes, and the CRC over their bodies, are not
stated: free values. -/
def State.imageHeader (s : State) (f length : Nat) : List Byte :=
  leBytes 4 0x4E4B5649 ++ leBytes 2 1 ++ leBytes 2 0 ++ leBytes 2 (s.shareOf f) ++ leBytes 2 s.shares ++ leBytes 4 (s.obj Row.fwVersion) ++
    leBytes 8 length ++ leBytes 4 (1 + s.nextFree % 10) ++ leBytes 4 s.ownAddress.toNat ++ leBytes 28 0 ++ leBytes 4 (s.nextFree / 16)

def State.saveFunc (s : State) (c : CtrlHdr) (x : ImageXfer) (length : Nat) : Ctl :=
  let f := c.func.toNat
  let slot := x.wrapSlot.toNat
  s.ctlWhen (s.gateChecks c false ++ s.moveChecks c [3] ++ [((s.func f).saving.isSome, 6),
      (decide (s.perShare totalSlots ≤ slot), 2), (s.wrapFault f slot (s.holdsKeys f), 6)])
    (if x.length.toNat < length then { st := s, result := 5, extra := length }
     else (((s.setFunc f { s.func f with saving := some length }).emit (.vfImage f x.addr.toNat (s.imageHeader f length) length)).useFree).ctlOk)

def State.saveDone (s : State) (f : Nat) (ok : Bool) : State :=
  match (s.func f).saving with
  | none => s
  | some n =>
    let s := s.setFunc f { s.func f with saving := none }
    s.raisePf 0x1003 0 (f + (if ok then 0 else 1) * 2 ^ 16) (if ok then n else 0)

/-! ## Restore (R394, R395) -/

/-- The VF holds no object but its EQ. -/
def State.vfEmpty (s : State) (f : Nat) : Bool :=
  !(s.wq.qps.any (fun p => p.2.func == f) || s.wq.cqs.any (fun p => p.2.func == f) || s.wq.srqs.any (fun p => p.2.func == f) ||
    s.wq.regions.any (fun p => p.2.func == f && (p.2.valid || p.2.freeing.isSome)) || s.holdsColl f)

/-- Half-ports that the rings and regions of an image name. -/
def imagePaths (i : VfImage) : List Nat :=
  i.qps.flatMap (fun q => q.create.sq.path.toNat :: (if q.create.flags.getLsbD 1 then [] else [q.create.rq.path.toNat])) ++
  i.cqs.map (fun c => c.2.1.path.toNat) ++ i.srqs.map (fun c => c.2.1.path.toNat) ++
  i.regions.map (fun r => r.fields.path.toNat)

/-- A ring or region of an image would lie in the HDM window (R91, R108). -/
def State.imageInHdm (s : State) (i : VfImage) : Bool :=
  let ring (base : BitVec 64) (log2 path : Byte) (n : Nat) : Bool :=
    s.inHdm path.toNat base.toNat (2 ^ (s.ringLog2 log2.toNat).getD 0 * n)
  let rings (q : ImageQp) : List RingFields := q.create.sq :: (if q.create.flags.getLsbD 1 then [] else [q.create.rq])
  let pages (r : ImageRegion) : Bool :=
    let x := r.fields
    let span := if x.pageSize = 0 then x.length.toNat else pageBytes x.pageSize.toNat x.length.toNat
    (x.pages.getD []).any fun p => s.inHdm x.path.toNat p.toNat span
  ((i.qps.flatMap rings).any fun r => ring r.base r.log2 r.path 64) ||
    (i.cqs.any fun c => ring c.2.1.base c.2.1.log2 c.2.1.path 32) ||
    (i.srqs.any fun c => ring c.2.1.base c.2.1.log2 c.2.1.path 64) || i.regions.any pages

/-- The consumed SQEs of an image: local QPN and entry (Table 17-6). -/
def imageSqes (i : VfImage) : List (Nat × Sqe) :=
  (List.range (i.sqeBytes.length / 68)).map fun k =>
    (leField i.sqeBytes (68 * k) 4, sqeOf (BitVec.ofNat 512 (leField i.sqeBytes (68 * k + 4) 64)))

def State.imageChecks (s : State) (f : Nat) (x : ImageXfer) (al : BitVec 32) (i : VfImage) : List (Bool × Nat) :=
  [(leField i.header 0 4 != 0x4E4B5649 || leField i.header 4 2 != 1 || !i.crcOk ||
      leField i.header 12 4 / 2 ^ 24 != s.obj Row.fwVersion / 2 ^ 24, 0xB),
    (leField i.header 10 2 != s.shares || leField i.header 8 2 != s.shareOf f, 2),
    (al == 0 || decide (2 ^ 20 ≤ al.toNat) || (s.pairOf al.toNat).isSome, 2),
    (!i.rolesOk || (imagePaths i).any fun p => decide (7 < p) || !s.pathGiven f p, 7),
    (s.imageInHdm i, 7),
    (s.wrapFault f x.wrapSlot.toNat (!i.keys.isEmpty), 6)]

def State.restoreFunc (s : State) (c : CtrlHdr) (x : ImageXfer) (al : BitVec 32) (img : Option VfImage) : Ctl :=
  let f := c.func.toNat
  let gate := s.gateChecks c false ++ s.moveChecks c [1] ++ [(!s.vfEmpty f, 6), ((s.func f).restoring.isSome, 6), (s.pairing, 6),
    (decide (s.perShare totalSlots ≤ x.wrapSlot.toNat), 2)]
  match img with
  | none => s.ctlWhen gate (s.ctlNo 8)
  | some i =>
    s.ctlWhen (gate ++ s.imageChecks f x al i)
      (s.setFunc f { s.func f with restoring := some (al.toNat, i) }).ctlOk

/-- A QP of the image, as a survivor resumes one: from UNA, with the entries of section 2 in place of the ring's. -/
def State.installQp (s : State) (f : Nat) (i : VfImage) (m : ImageQp) : State :=
  let q := s.global totalQps f m.number
  let t := (qpTypeOf m.create.type.toNat).getD .rc
  let useSrq := m.create.flags.getLsbD 1
  let srqn := if useSrq then some (s.global totalSrqs f m.create.srqn.toNat) else none
  let sq := (s.mkRing m.create.sq).restart m.sqRetire m.sqRetire
  let rq := if useSrq then none else some ((s.mkRing m.create.rq).restart m.rqRetire m.rqRetire)
  let x := s.newQp f t sq rq srqn m.create.rq.cqn.toNat none (m.create.flags.getLsbD 0)
  let attr : QpAttr := ⟨m.remoteModule, m.remoteQpn, m.rnrRetry.toNat, m.rnrDelay.toNat, m.vcClass, m.cipherOn, m.keySlot, m.qKey,
    m.pmtu.toNat⟩
  let h : ShadowQp := ⟨m.sqRetire, m.sqRetire, m.rqRetire, m.una, m.started, m.expect, m.heldMap.toNat, m.sendCount, [], m.results, none⟩
  let x := { x with st := qpStOf m.st.toNat, attr := attr, history := m.tokens }
  let y := { h.resume x s.nextFree s.timer with sq := sq }
  let mine := ((imageSqes i).filter fun e => e.1 == m.number).map Prod.snd
  let sends := mine.filter fun e => e.opcode != 0x02
  let s := ((s.setQp q { y with tier := s.coldTier q }).writeBack q).useFree
  let s := if m.results.isEmpty then s else s.bindCache q
  let s := eachDo sends (fun e s => match s.qp q with
    | none => s
    | some z =>
      let w := Wqe.new e z.sq.h
      let s := s.updQp q fun z => { z with sq := { z.sq with h := z.sq.h + 1, k := z.sq.k + 1 } }
      queueWqe q z w s) s
  eachDo (mine.filter fun e => e.opcode == 0x02) (fun e s => s.updQp q fun z =>
    match z.rq with
    | none => z
    | some r => { z with
      rq := some { r with h := r.h + 1, k := r.k + 1 }
      resp := { z.resp with recvs := z.resp.recvs ++ [RecvE.new r.h e none] } }) s

def State.installCq (s : State) (f : Nat) (c : Nat × CqFields × RingIndex × RingIndex) : State :=
  let x : Cq := ⟨f, c.2.1.base.toNat, (s.ringLog2 c.2.1.log2.toNat).getD 6, c.2.1.path.toNat, c.2.1.noFlush == 0,
    c.2.1.vector.toNat, c.2.2.1, c.2.2.2, false, false, false, ahead c.2.2.1 c.2.2.2⟩
  { s with wq := { s.wq with cqs := tput s.wq.cqs (s.global totalCqs f c.1) x } }

def State.installSrq (s : State) (f : Nat) (c : Nat × SrqFields × RingIndex × List Sqe) : State :=
  let es := c.2.2.2
  let n := c.2.2.1 + BitVec.ofNat 16 es.length
  let ring := (s.mkRing ⟨c.2.1.base, c.2.1.log2, c.2.1.path, c.2.1.poll, 0⟩).restart n n
  let entries := (es.zip (List.range es.length)).map fun p => RecvE.new (c.2.2.1 + BitVec.ofNat 16 p.2) p.1 none
  { s with wq := { s.wq with srqs := tput s.wq.srqs (s.global totalSrqs f c.1) ⟨f, ring, entries, false⟩ } }

def State.installRegion (s : State) (f : Nat) (r : ImageRegion) : State :=
  let x := r.fields
  let y : Region := ⟨f, x.va.toNat, x.length.toNat, x.path.toNat, x.pageSize.toNat, x.access.toNat % 32,
    x.bindQpn.toNat, (x.pages.getD []).map BitVec.toNat, r.gen, true, none, false⟩
  { s with wq := { s.wq with regions := tput s.wq.regions (s.global totalRegions f r.number) y } }

def State.installKey (s : State) (f : Nat) (k : ImageKey) : State :=
  let g := s.globalSlot f k.slot
  s.setKeySlot g ⟨k.usage.toNat, k.gen.toNat, ((s.keySlot g).loads + 1) % 2 ^ 32, k.key⟩

/-- Table 09-10 values: subindexes 01 to 10. -/
def State.installLimit (s : State) (f i v : Nat) : State :=
  let row := [Row.txRate, Row.txBurst, Row.policeRate, Row.policeBurst].getD (i / 4) Row.txRate
  s.setObj row v f (i % 4)

def State.restoreDone (s : State) (f : Nat) : State :=
  match (s.func f).restoring with
  | none => s
  | some (al, i) =>
    let s := s.setFunc f { s.func f with restoring := none, alias_ := al }
    let s := match i.eq with
      | none => s
      | some (e, head, tail) =>
        let q : Eq := ⟨e.base, (s.ringLog2 e.log2.toNat).getD 6, e.path.toNat, e.vector.toNat, head, tail, false, 0, ahead head tail⟩
        { s with eqs := tput s.eqs f q }
    let s := eachDo i.cqs (fun c s => s.installCq f c) s
    let s := eachDo i.srqs (fun c s => s.installSrq f c) s
    let s := eachDo i.regions (fun r s => s.installRegion f r) s
    let s := eachDo i.keys (fun k s => s.installKey f k) s
    let s := eachDo i.qps (fun m s => s.installQp f i m) s
    let s := eachDo (List.range (min 16 i.limits.length)) (fun k s => s.installLimit f k (i.limits.getD k 0).toNat) s
    s.raisePf 0x1004 0 f i.qps.length

/-! ## Forwarding (R395) -/

def State.forwardFunc (s : State) (c : CtrlHdr) (target : BitVec 32) : Ctl :=
  let f := c.func.toNat
  let st := s.funcSt f
  let gate := [(!c.reservedZero, 1), (decide (1024 < f) || !s.functionLive f, 2), (st == 6, 5)] ++ s.moveChecks c [3, 4] ++
    [(decide (2 ^ 20 ≤ target.toNat), 2), (st == 3 && target == 0, 6)]
  s.ctlWhen gate
    (if target = 0 then (s.setFunc f { FuncSt.fresh 1 with saving := (s.func f).saving }).ctlOk
     else
       let s := if st = 3 then s.wipeFunction f else s
       (s.setFunc f { FuncSt.fresh 4 with target := target.toNat, saving := (s.func f).saving }).ctlOk)

end Sys2Proof.Machine
end

