-- ==== Sys2Proof/Machine/Power.lean ====
section
/-! DEFINITION. Temperatures and input power, the I3C endpoint and JTAG, the stall watchdogs, the way into SAFE and the
management controller's watchdog (R37, R39-R42, R438, R442, R454-R468). -/

namespace Sys2Proof.Machine

/-! ## Temperatures (R461-R463) -/

/-- A temperature in units of 0.125 °C as an I32. -/
def i32 (t : Int) : Nat := (t % 2 ^ 32).toNat

/-- The value of an I32 object. -/
def i32Of (n : Nat) : Int := if n < 2 ^ 31 then n else (n : Int) - 2 ^ 32

def State.sensorValid (s : State) (k : Nat) : Bool := !s.power.excluded.testBit k

/-- Valid sensors with their readings. -/
def State.validTemps (s : State) (ts : List Int) : List (Nat × Int) :=
  ((List.range 20).filter s.sensorValid).map fun k => (k, ts.getD k 0)

/-- The hottest of some sensors, the lowest-numbered of equals. -/
def hottest : List (Nat × Int) → Option (Nat × Int)
  | [] => none
  | p :: ps => match hottest ps with
    | some q => if p.2 < q.2 then some q else some p
    | none => some p

/-- The thermal limit comes into force. Before CONFIG it caps VCORE in place of the hold of R426 (R462). -/
def State.capOn (s : State) (tj : Nat) : State :=
  let s := (s.setObjBit Row.thermalStatus 0 true).bump Row.thermalCapCount
  let s := { s with power := { s.power with coolSince := none, capCounted := s.timer } }
  let s := if s.firmwareServes then s else s.setObj Row.vcoreSet 700
  s.raisePf 0x0E01 0 1 tj

/-- Time with the limit in force that THERMAL_CAP_NS does not count yet. -/
def State.capTime (s : State) : Nat := if s.thermalCap then s.timer - s.power.capCounted else 0

/-- The limit leaves force. -/
def State.capOff (s : State) : State :=
  let s := (s.bump Row.thermalCapNs s.capTime).setObjBit Row.thermalStatus 0 false
  let s := { s with power := { s.power with coolSince := none } }
  let s := if s.firmwareServes then s else s.setObj Row.vcoreSet 750
  s.raisePf 0x0E01 0 0 (s.obj Row.tjMax)

/-- CRITICAL from 104 °C on until 100 °C (R463). -/
def State.critical (s : State) (sensor : Nat) (t : Int) : State :=
  if 832 ≤ t && !s.objBit Row.thermalStatus 1 then (s.setObjBit Row.thermalStatus 1 true).raisePf 0x0E02 0 (i32 t) sensor
  else if t ≤ 800 then s.setObjBit Row.thermalStatus 1 false
  else s

/-- How long TJ_MAX has stayed at or below THERMAL_CAP_OFF. -/
def State.cooling (s : State) (t : Int) : State :=
  let since := if t ≤ i32Of (s.obj Row.thermalCapOff) then some (s.power.coolSince.getD s.timer) else none
  { s with power := { s.power with coolSince := since } }

/-- One sample of the 20 sensors, above 105 °C too (R11; notes/assumptions/52). -/
def State.thermalSample (s : State) (ts : List Int) : State :=
  let word (k : Nat) : List Byte := leBytes 4 (if s.sensorValid k then i32 (ts.getD k 0) else 0x80000000)
  let s := s.setObj Row.tjSensors (leNat ((List.range 20).flatMap word))
  match hottest (s.validTemps ts) with
  | none => s
  | some (k, t) =>
    let s := (s.setObj Row.tjMax (i32 t)).cooling t
    let s := if i32Of (s.obj Row.thermalCapOn) ≤ t && !s.thermalCap then s.capOn (i32 t) else s
    s.critical k t

/-- The limit leaves force once TJ_MAX has stayed cool for THERMAL_CAP_HOLD. -/
def State.capRelease (s : State) : State :=
  match s.power.coolSince with
  | some t => if s.thermalCap then (s.advanceTo (t + s.obj Row.thermalCapHold * 1000000)).capOff else s
  | none => s

/-- MEM_HOT follows the packages' MR4 readings (R465). -/
def State.memHot (s : State) (package mr4 : Nat) (above : Bool) : State :=
  let s := s.setObj Row.pkgRefreshRate mr4 package
  let hot := if above then insertUnique package s.power.hot else s.power.hot.erase package
  ({ s with power := { s.power with hot := hot } }).setObjBit Row.thermalStatus 2 (!hot.isEmpty)

/-- Input telemetry, and VIN_WARN outside 42-58 V (Table 20-13), outside the operating limits too (notes/assumptions/52). -/
def State.vinSample (s : State) (mv ma mw : Nat) : State :=
  let s := (s.setObj Row.vinMv (mv % 2 ^ 32)).setObj Row.iinMa (ma % 2 ^ 32)
  let s := s.setObj Row.pinMw (mw % 2 ^ 32)
  let out := decide (mv < 42000) || decide (58000 < mv)
  if out && !s.objBit Row.thermalStatus 3 then
    ((s.setObjBit Row.thermalStatus 3 true).bump Row.vinWarnCount).raisePf 0x0E03 0 mv
  else s.setObjBit Row.thermalStatus 3 out

/-! ## I3C and JTAG (R456, R458) -/

/-- The endpoint is open from step 4 of R426 on. -/
def State.i3cOpen (s : State) : Bool := s.alive && s.mode != .bootRom

def State.staticAddress (s : State) : Nat := if s.boot.pairId = 1 then 0x3A else if s.boot.pairId = 2 then 0x3B else 0x39

def State.setI3c (s : State) (a : Nat) : State :=
  if s.i3cOpen then ({ s with power := { s.power with i3c := some a } }).emit (.i3cAddress a) else s

/-- SETDAA gives the static address as the dynamic one. -/
def State.setdaa (s : State) (a : Nat) : State := if a = s.staticAddress then s.setI3c a else s

def State.jtagSelect (s : State) (n : Nat) : State := { s with power := { s.power with jtag := n } }

def natBits (n x : Nat) : List Bool := (List.range n).map fun k => x.testBit k

def State.jtagIdcode (s : State) : State :=
  if !s.power.good then s else (s.jtagSelect 0).emit (.tdo (natBits 32 Config.jtagIdcode))

def State.jtagBypass (s : State) : State := if !s.power.good then s else s.jtagSelect 1

/-- SAMPLE/PRELOAD: the boundary register takes the preloaded bits. -/
def State.jtagPreload (s : State) (b : List Bool) : State :=
  if !s.power.good then s else { s.jtagSelect 2 with power := { s.power with jtag := 2, boundary := b } }

/-- An EXTEST instruction drives the boundary only while MRST_N is asserted; otherwise its opcode selects BYPASS. -/
def State.jtagExtest (s : State) (n : Nat) (b : List Bool) : State :=
  if !s.power.good then s
  else if s.boot.mrst then { s with power := { s.power with jtag := n, boundary := b } }
  else s.jtagSelect 1

/-! ## SAFE (R438) -/

/-- An accelerator half-port with PERST# asserted: its link is down. -/
def HalfPortSt.held (p : HalfPortSt) : HalfPortSt :=
  { p with perst := true, up := false, speed := 0, width := 0, proto := 0, degraded := false, enum := .idle, flushing := none }

/-- PERST# on every accelerator half-port. -/
def State.assertAccPerst (s : State) : State :=
  { s with halfPorts := s.halfPorts.map fun p => if p.isAcc then p.held else p }

/-- Transmitters of N0-N3 and the graft links idle. -/
def State.idleLinks (s : State) : State :=
  { s with
    fabric := { s.fabric with links := List.replicate 6 LinkSt.idle }
    traffic := { s.traffic with egress := [] }
    wq := { s.wq with outbox := [] } }

def State.selfRefresh (s : State) : State :=
  ({ s with mem := { s.mem with asleep := List.range 96 } }).setObjBit Row.memStatus 6 true

/-- A QP whose work in flight has ended. -/
def Qp.still (x : Qp) : Qp :=
  { x with
    wqes := []
    regain := []
    req := { x.req with flight := [], resend := [], rnrFrom := none, parkFrom := none, waitSince := none, credits := [] }
    resp := { x.resp with msgs := [], heldReqs := [], doneSince := none, recvs := [] }
    cipher := { x.cipher with leadAt := none, graceAt := none } }

/-- A communicator whose collectives have ended. -/
def Comm.still (x : Comm) : Comm := { x with colls := [], early := [], ahead := [], ovfUsed := 0 }

/-- Work in flight in the module ends without further completions from it (R41): entries, packets, placements, collectives,
apply phases, transfers, images, casts and context fetches. -/
def State.haltWork (s : State) : State :=
  let s := s.dropCast 10
  { s with
    wq := { s.wq with
      qps := s.wq.qps.map fun p => (p.1, p.2.still)
      cqWait := []
      outbox := []
      erring := []
      aborts := [] }
    colls := { s.colls with
      comms := s.colls.comms.map fun p => (p.1, p.2.still)
      shards := s.colls.shards.map fun p => (p.1, { p.2 with xfer := none })
      chunks := State.reset.colls.chunks }
    ctx := State.reset.ctx
    reliab := { s.reliab with arbs := [] }
    tenant := { s.tenant with funcs := s.tenant.funcs.map fun p => (p.1, { p.2 with saving := none, restoring := none }) }
    twin := { s.twin with toSend := [], unacked := [], held := [], stopped := true } }

/-- Entry into SAFE with a cause. A restart of the management controller and a STORE run on; what else the controller was busy
with ends. -/
def State.enterSafe (s : State) (cause : Nat) : State :=
  if s.mode == .safe then s
  else
    let s := (s.setObj Row.safeCause cause).assertAccPerst.idleLinks.selfRefresh
    let s := { s with
      mode := .safe
      mgmt := { s.mgmt with busy := s.mgmt.busy.filter fun b => b.1 == Busy.mcRestart || b.1 == Busy.store }
      host := { s.host with entering := none, accPulse := false }
      boot := { s.boot with running := [] } }
    s.haltWork

/-! ## The stall watchdogs (R39-R42, R468) -/

/-- The watchdog of a region on which MBIST or a scan slice runs is masked; a slice's header names its region, or 0xFE for
clocked logic (Table 19-7a). -/
def State.watchMasked (s : State) (r : Nat) : Bool :=
  s.mode == .selfTest && (s.boot.phase == 2 || s.boot.running.any fun x => x.hdr.region.toNat == r)

def Watchdog.next (w : Watchdog) (flag : Bool) (count : Nat) : Watchdog :=
  if !flag then ⟨count, 0⟩ else if w.run = 0 || w.count ≠ count then ⟨count, 1⟩ else ⟨count, w.run + 1⟩

def State.watchdog (s : State) (r : Nat) : Watchdog := (tget s.pace.watchdogs r).getD ⟨0, 0⟩

def State.setWatchdog (s : State) (r : Nat) (w : Watchdog) : State :=
  { s with pace := { s.pace with watchdogs := tput s.pace.watchdogs r w } }

/-- One sample of the 118 watchdogs. -/
def State.watchdogSample (s : State) (xs : List (Bool × Nat)) : State :=
  eachDo (List.range 118) (fun r s =>
    let x := xs.getD r (false, 0)
    s.setWatchdog r (if s.watchMasked r then ⟨x.2, 0⟩ else (s.watchdog r).next x.1 x.2)) s

/-- STALL_MAP, STALL_FIRST and STALL_TIME. -/
def State.recordStall (s : State) (r : Nat) : State :=
  let s := s.setObjBit Row.stallMap r true
  if s.obj Row.stallFirst = 0xFF then (s.setObj Row.stallFirst r).setObj Row.stallTime (s.timer % 2 ^ 64) else s

/-- A stall in regions 68-117 by the module state. -/
def State.moduleStall (s : State) (r : Nat) : State :=
  if s.mode == .safe then s
  else if !s.firmwareRuns then { s.enterSafe 4 with alert := true }
  else
    let s := if r < 74 then s else s.raisePf 0x0E04 0 r (s.timer % 2 ^ 64)
    (s.faultEvent (0x0E050000 + r)).enterSafe 4

/-- A region found stalled: its flag set in eight consecutive samples, its counter unchanged across them. Its run restarts at 0
(notes/assumptions/57). Regions 0-67 are handled under R40 in every state, SAFE too (notes/assumptions/58). -/
def State.stall (s : State) (r : Nat) : State :=
  if !s.alive || (s.watchdog r).run < 8 then s
  else
    let s := (s.setWatchdog r ⟨(s.watchdog r).count, 0⟩).recordStall r
    if r < 68 then s.stallUnit r else s.moduleStall r

/-! ## The management controller's watchdog (R442) -/

/-- A second expiry within 10 s of a restart. -/
def State.repeatedExpiry (s : State) : Bool :=
  match s.boot.restartedAt with
  | some t => decide (s.timer ≤ t + 10000000000)
  | none => false

def State.mcExpiry (s : State) (digestOk : Bool) : State :=
  if !s.firmwareServes then s
  else
    let again := s.repeatedExpiry
    let s := (s.bump Row.mcWatchdogCount).faultEvent 0x0C050001
    if again || !digestOk then s.enterSafe 5
    else { s with mgmt := { s.mgmt with busy := some (.mcRestart, []) } }

/-- The controller runs again: queued requests, stored responses and SPDM sessions are gone. -/
def State.mcRestarted (s : State) : State :=
  match s.mgmt.busy with
  | some (.mcRestart, _) =>
    { s.endSessions with mgmt := ⟨none, [], [], [], [], []⟩, boot := { s.boot with restartedAt := some s.timer } }
  | _ => s

end Sys2Proof.Machine
end

