-- ==== Sys2Proof/Machine/Dict.lean ====
section
/-! DEFINITION. The object dictionary as software sees it: which objects exist, instance families, what each object
reads, DESCRIBE and NEXT (R47-R58, R78). -/

namespace Sys2Proof.Machine

/-! ## Which objects exist -/

/-- Base and instances of each family (Table 03-5). -/
def families : List (Nat × Nat) :=
  [(0x3000, 4), (0x3100, 24), (0x3200, 8), (0x3300, 96), (0x3400, 24), (0x3500, 68)]

/-- The family whose block of 256 indices holds `idx`. -/
def familyOf (idx : Nat) : Option (Nat × Nat) := families.find? fun f => f.1 == idx / 256 * 256

/-- The group masks of a family (R54). -/
def Row.groupMask (base : Nat) : ObjRow := ⟨base + 0xEF, 1, 1, 15, .bytes 16, .rw, 3, .s, .none, []⟩

def dictRows : List ObjRow := objRows ++ families.map fun f => Row.groupMask f.1

def ObjRow.coversIndex (r : ObjRow) (idx : Nat) : Bool := decide (r.index ≤ idx) && decide (idx < r.index + r.count)

def ObjRow.covers (r : ObjRow) (idx sub : Nat) : Bool :=
  r.coversIndex idx && decide (r.sub ≤ sub) && decide (sub < r.sub + r.subs)

/-- The row of an object, its instance and its place among the row's subindexes. -/
def rowAt (idx sub : Nat) : Option (ObjRow × Nat × Nat) :=
  (dictRows.find? fun r => r.covers idx sub).map fun r => (r, idx - r.index, sub - r.sub)

/-- Objects of the factory range are not listed: which exist, and what they hold, is the module's (Table 03-4). -/
def factoryRow (idx sub : Nat) : Option ObjRow :=
  let v := Config.factory (2 * (idx * 256 + sub))
  if v = 0 then none
  else
    let n := v % 1024 + 1
    some ⟨idx, 1, sub, 1, .bytes n, .ro, 1, .f, .none, [Config.factory (2 * (idx * 256 + sub) + 1) % 256 ^ n]⟩

def isFactory (idx : Nat) : Bool := decide (0xF000 ≤ idx)

def isWindow (idx : Nat) : Bool := decide (0xC000 ≤ idx) && decide (idx < 0xD000)

/-- Highest subindex of an index that exists (R48); 0x2010 and 0x201F hold only subindex 0x00 (R69). -/
def highestSub (idx : Nat) : Option Nat :=
  if isFactory idx then ((List.range 255).filter fun k => (factoryRow idx (k + 1)).isSome).getLast?.map (· + 1)
  else match dictRows.filter fun r => r.coversIndex idx with
    | [] => if idx = 0x2010 || idx = 0x201F then some 0 else none
    | rs => some ((rs.map fun r => r.sub + r.subs - 1).foldl max 0)

/-- Subindex 0x00: a U8, RO, of every class (R48); DESCRIBE reports class F (notes/assumptions/59). -/
def Row.highest (idx n : Nat) : ObjRow := ⟨idx, 1, 0, 1, .u8, .ro, 15, .f, .none, [n]⟩

/-- What an index and a subindex address. -/
inductive Target where
  | absent
  /-- A group whose mask is all zero. -/
  | emptyGroup
  /-- Instances of one row's object, in ascending order; one of them unless `shared`. -/
  | objs (r : ObjRow) (is : List Nat) (k : Nat) (shared : Bool)
  deriving DecidableEq, Repr

/-- Instances of group or broadcast index `n` of a family: 0xFF is all, 0xF0 to 0xFE the groups (R54). -/
def State.members (s : State) (base count n : Nat) : List Nat :=
  if n = 0xFF then List.range count
  else (List.range count).filter fun i => s.objBit (Row.groupMask base) i 0 (n - 0xF0)

/-- A plain index; window objects are kept by function. -/
def plainTarget (idx sub off : Nat) : Target :=
  if sub = 0 then match highestSub idx with
    | some n => .objs (Row.highest idx n) [0] 0 false
    | none => .absent
  else if isFactory idx then match factoryRow idx sub with
    | some r => .objs r [0] 0 false
    | none => .absent
  else match rowAt idx sub with
    | some (r, i, k) => .objs r [i + off] k false
    | none => .absent

/-- R53, R54, R58: `win` is the function whose window the request reaches, if any. -/
def State.target (s : State) (win : Option Nat) (idx sub : Nat) : Target :=
  if isWindow idx then match win with
    | some f => plainTarget idx sub (f * 65536)
    | none => .absent
  else match familyOf idx with
    | none => plainTarget idx sub 0
    | some (base, count) =>
      let n := idx % 256
      if n < 0xF0 then plainTarget idx sub 0
      else match plainTarget base sub 0 with
        | .objs r _ k _ =>
          if (s.members base count n).isEmpty then .emptyGroup else .objs r (s.members base count n) k true
        | t => t

/-! ## What an object reads -/

/-- Collectives that wait in QUEUED for chunks. -/
def State.queuedForChunks (s : State) (p : Comm → Bool) : Nat := (s.chunkQueue.filter fun t => p t.2.1).length

/-- SHARE_LIMITS (Table 17-1). -/
def State.shareLimits (s : State) : List Nat :=
  let p := s.shares
  let l := s.mem.layout
  [totalQps / p, totalRegions / p, totalPages / p, totalCqs / p, totalSrqs / p, totalComms / p, totalScheds / p,
    16384 / p, totalKernels / p, 4096 / p, totalSlots / p, 65536 / p, 2097152 / p, 32768 / p,
    l.state * 1024 / p, l.stage * 1024 / p, s.slotQuarters * 256 / p, l.hdm * 1024 / p, 0, 0]

def words32 (l : List Nat) : Nat := leNat (l.flatMap fun n => leBytes 4 n)

/-- Chapters 2 to 4. -/
def State.valueLow (s : State) (n i : Nat) : Option Nat :=
  match n with
  | 0x210301 => some (s.timer % 2 ^ 64)
  | 0x100005 => some (Config.hwStepping % 2 ^ 16)
  | 0x100007 => some (Config.romVersion % 2 ^ 32)
  | 0x200001 => some s.operate.toNat
  | 0x200003 => some s.mode.code
  | 0x240002 => some (if s.tenant.vfEnable then s.tenant.numVfs else 0)
  | 0x260009 => none
  | 0x26000A => some (Config.jtagIdcode % 2 ^ 32)
  | 0x300004 => some (Config.ethMac i % 2 ^ 48)
  | 0x300010 => some (s.portStatus i)
  | 0x320010 => some (s.linkStatus i)
  | _ => none

/-- Chapters 7 to 13. -/
def State.valueMid (s : State) (n : Nat) : Option Nat :=
  match n with
  | 0x410005 => some s.poolSize
  | 0x510009 => some s.activeUnits.length
  | 0x600007 => some (leNat s.mem.layout.bytes)
  | 0x600009 => some s.mem.initLeft
  | 0x600103 => some (leNat (s.mem.dir.flatMap CastEntry.bytes))
  | 0x760010 => some s.routeStatus
  | 0xA40007 => some s.pinnedNow
  | 0xA4000C => some (words32 ((List.range 4).map fun p => s.cellsUsed p))
  | 0xA4000D => some (words32 ((List.range 4).map fun p => s.meanResidency p))
  | 0xA70003 => some s.colls.chunks
  | 0xA70004 => some (s.queuedForChunks fun _ => true)
  | _ => none

/-- Chapters 15 to 20. -/
def State.valueHigh (s : State) (n : Nat) : Option Nat :=
  match n with
  | 0x800002 => some s.flash.svnMin
  | 0x800005 => some (Config.signerHash % 2 ^ 512)
  | 0x800102 => some (s.flash.owner.getD 0)
  | 0x900003 => some s.freeSpares.length
  | 0x900004 => some s.rotationState
  | 0x900101 => some s.flash.nextRecord
  | 0x900102 => some s.recordOldest
  | 0x900104 => some (leNat s.recordData)
  | 0x900201 => some (words32 [s.localPatterns.length, s.importedPatterns.length])
  | 0x910002 => some s.twin.position
  | 0x910007 => some s.twin.unacked.length
  | 0xAE0002 => some ((s.obj Row.thermalCapNs + s.capTime) % 2 ^ 64)
  | _ => none

/-- The window of function `f`. -/
def State.valueWindow (s : State) (n f k : Nat) : Option Nat :=
  match n with
  | 0xC00001 => some f
  | 0xC00002 => some (s.shareOf f)
  | 0xC00003 => some (s.funcSt f)
  | 0xC00004 => some (words32 s.shareLimits)
  | 0xC00301 => some (s.obj Row.txRate f k)
  | 0xC00305 => some (s.obj Row.txBurst f k)
  | 0xC00309 => some (s.obj Row.policeRate f k)
  | 0xC0030D => some (s.obj Row.policeBurst f k)
  | 0xC00311 => some (s.obj Row.policeDrop f k)
  | 0xC00403 => some s.colls.chunks
  | 0xC00404 => some (s.queuedForChunks fun x => x.func == f)
  | _ => none

/-- The value of a fixed-size object. -/
def State.value (s : State) (r : ObjRow) (i k : Nat) : Nat :=
  let n := r.index * 256 + r.sub
  let v := if isWindow r.index then s.valueWindow n (i / 65536) k
    else ((s.valueLow n i).orElse fun _ => s.valueMid n).orElse fun _ => s.valueHigh n
  v.getD (s.obj r i k)

/-- Pairs that exist with the torus as written (R231). -/
def State.pairCount (s : State) : Nat := s.torusY * (s.torusX / 2)

/-- Present size of PAIR_LIVE in bytes. -/
def State.pairLiveSize (s : State) : Nat :=
  match tget s.blobs (Row.pairLive.key 0 0) with
  | some b => b.length
  | none => ceilDiv (2 * s.pairCount) 8

def State.pairLiveBytes (s : State) : List Byte :=
  (List.range s.pairLiveSize).map fun n =>
    BitVec.ofNat 8 ((List.range 8).foldl (fun b k => if s.fabric.pairDead.contains (8 * n + k) then b else b + 2 ^ k) 0)

def asciiBytes (t : String) : List Byte := t.toList.map fun c => BitVec.ofNat 8 c.toNat

/-- The bytes of a STRING or DOMAIN object. -/
def State.bytesOf (s : State) (r : ObjRow) : List Byte :=
  match r.index * 256 + r.sub with
  | 0x100001 => asciiBytes "Lyandez Silicon"
  | 0x100002 => asciiBytes "NK24-A1"
  | 0x100004 => Config.serial
  | 0x76000A => s.pairLiveBytes
  | 0x800101 => Config.certChain
  | 0x800203 => s.slotMap
  | 0x900202 => s.patternTable.flatMap Pattern.bytes
  | _ => s.blob r

/-- STRING and DOMAIN objects vary in size. -/
def ObjType.varies : ObjType → Bool
  | .string | .domain _ => true
  | _ => false

/-- BYTES, STRING and DOMAIN objects are read from an offset. -/
def ObjType.segmented : ObjType → Bool
  | .bytes _ | .string | .domain _ => true
  | _ => false

/-- The whole value of an object, as READ moves it. -/
def State.content (s : State) (r : ObjRow) (i k : Nat) : List Byte :=
  if r.ty.varies then s.bytesOf r else leBytes r.ty.size (s.value r i k)

/-! ## DESCRIBE and NEXT -/

def ObjType.code : ObjType → Nat
  | .bool => 1
  | .u8 => 2
  | .u16 => 3
  | .u32 => 4
  | .u64 => 5
  | .i32 => 6
  | .f32 => 7
  | .bytes _ => 8
  | .string => 9
  | .domain _ => 10

def Access.code : Access → Nat
  | .ro => 0
  | .rw => 1
  | .wo => 2
  | .rwd => 3

def Persist.code : Persist → Nat
  | .v => 0
  | .s => 1
  | .f => 2

/-- First 8 B of the default (R52, Table 03-7). -/
def State.defaultBytes (s : State) (r : ObjRow) (i k : Nat) : List Byte :=
  match r.ty with
  | .string | .domain _ => if r.persist == .f then slice (s.bytesOf r) 0 8
    else if r.index * 256 + r.sub = 0x910004 then slice Config.pairedSerial 0 8 else leBytes 8 0
  | t => slice (leBytes t.size (r.dflt (i % 65536) k)) 0 8

/-- The response data of DESCRIBE. -/
def State.describe (s : State) (r : ObjRow) (i k : Nat) : List Byte :=
  [r.ty.code, r.access.code, r.priv, r.persist.code].map (BitVec.ofNat 8) ++ leBytes 4 r.ty.size ++ s.defaultBytes r i k

/-- Objects as index * 256 + subindex, in ascending order: the least one of a row that is at least `n`. -/
def ObjRow.firstFrom (r : ObjRow) (n : Nat) : Option Nat :=
  let idx := n / 256
  let sub := n % 256
  let at_ (j b : Nat) : Option Nat := if r.coversIndex j then some (j * 256 + b) else none
  if idx < r.index then some (r.index * 256)
  else if !r.coversIndex idx then none
  else if sub = 0 then some (idx * 256)
  else if sub < r.sub + r.subs then at_ idx (max sub r.sub)
  else at_ (idx + 1) 0

def leastOf : List (Option Nat) → Option Nat
  | [] => none
  | none :: xs => leastOf xs
  | some a :: xs => match leastOf xs with
    | some b => some (min a b)
    | none => some a

/-- The next object after index `idx`, subindex `sub`. The window counts only for a function that has one. -/
def nextObject (win : Bool) (idx sub : Nat) : Option Nat :=
  let n := idx * 256 + sub + 1
  let only (k : Nat) : Option Nat := if n ≤ k * 256 then some (k * 256) else none
  let rows := dictRows.filter fun r => win || !isWindow r.index
  let f := Config.factoryNext (max n 0xF00000)
  let factory := if 0xF00000 ≤ f && n ≤ f && f < 2 ^ 24 then some f else none
  leastOf ([only 0x2010, only 0x201F, factory] ++ rows.map fun r => r.firstFrom n)

/-- Objects that the boot ROM serves (R425). -/
def bootServes (idx sub : Nat) : Bool :=
  let n := idx * 256 + sub
  (decide (0x100001 ≤ n) && decide (n ≤ 0x100007)) || n == 0x200003 || n == 0x800004 ||
    (decide (0x250001 ≤ n) && decide (n ≤ 0x250007)) || (decide (0x250101 ≤ n) && decide (n ≤ 0x250106)) ||
    (decide (0x210201 ≤ n) && decide (n ≤ 0x210203))

/-- They in ascending order. -/
def bootObjects : List Nat :=
  (List.range 7).map (0x100001 + ·) ++ [0x200003] ++ (List.range 3).map (0x210201 + ·) ++
    (List.range 7).map (0x250001 + ·) ++ (List.range 6).map (0x250101 + ·) ++ [0x800004]

def nextBoot (idx sub : Nat) : Option Nat := bootObjects.find? fun n => decide (idx * 256 + sub < n)

/-- The response data of NEXT. -/
def nextBytes : Option Nat → List Byte
  | some n => leBytes 2 (n / 256) ++ leBytes 1 n
  | none => [0xFF, 0xFF, 0xFF]

end Sys2Proof.Machine
end

