-- ==== Sys2Proof/Machine/HostPort.lean ====
section
/-! DEFINITION. The port complex: link training and enumeration, host loss and the entry into HOLD, the host's
configuration, HDM and snoop requests, accelerator requests, and the ends of flushing reads (chapter 4, R261). -/

namespace Sys2Proof.Machine

/-! ## The configuration page and the boot ROM's port settings (R64, R65, R82) -/

/-- The half-port settings break rule 0x0101_0001 or one of 0x0104_0001 to 0x0104_0003. -/
def State.capOk (s : State) : Bool := (List.range 8).all fun h => [8, 16, 32].contains (s.obj Row.speedCap h)

/-- Half-ports written in the host role. -/
def State.hostsWritten (s : State) : List Nat := (List.range 8).filter fun h => s.obj Row.role h == 1

/-- Half-ports b that have a role of their own on a port set ×16. -/
def State.splitWide (s : State) : List Nat :=
  (List.range 8).filter fun h => h % 2 == 1 && s.x16Written (h - 1) && s.obj Row.role h != 0

/-- Half-ports that ask device protocols off the host role. -/
def State.strayProtocols (s : State) : List Nat :=
  (List.range 8).filter fun h => s.obj Row.role h != 1 && s.obj Row.cxlDevProtocols h != 0

def State.portsOk (s : State) : Bool :=
  s.capOk && s.hostsWritten.length == 1 && s.splitWide.isEmpty && s.strayProtocols.isEmpty

/-- The values of the page whose half-port settings the boot ROM brings up; none where the defaults of R82 stand in. -/
def State.bootPage (s : State) : Option State :=
  s.bestCopy.bind fun c =>
    let t : State := { s with od := c.od }
    if t.portsOk then some t else none

def State.bootOd (s : State) : Tab Nat :=
  match s.bootPage with
  | some t => t.od
  | none => []

/-! ## Link training (R83-R85) -/

def speedCode (gts : Nat) : Nat := if gts = 8 then 3 else if gts = 16 then 4 else if gts = 32 then 5 else 0

/-- Configured width (R79). -/
def HalfPortSt.lanes (p : HalfPortSt) : Nat := if p.x16 then 16 else 8

/-- Lanes of half-port `h` that passed the analogue check (Table 19-9). -/
def State.laneOk (s : State) (h k : Nat) : Bool := !s.objBit Row.analogFail (48 + 8 * h + k)

/-- Good lanes in a row from an end of the link; lanes may be reversed (R79). -/
def State.goodLanes (s : State) (h n : Nat) : Nat :=
  let up := ((List.range n).takeWhile fun k => s.laneOk h k).length
  let down := ((List.range n).takeWhile fun k => s.laneOk h (n - 1 - k)).length
  max up down

/-- Rates and widths that reach L0. -/
def State.trains (s : State) (h gts width : Nat) : Bool :=
  let p := s.hp h
  [8, 16, 32].contains gts && decide (gts ≤ p.cap) && [1, 2, 4, 8, 16].contains width &&
    decide (width ≤ s.goodLanes h p.lanes)

def protoCode : LinkProto → Nat
  | .pcie => 1
  | .cxl11 => 2
  | .cxl20 => 3

/-- PROTOCOL of a link: an ACC_ROOT link runs PCIe, and an ACC_CXLMEM link without CXL.io and CXL.mem does (R85). -/
def protoInForce (role : Nat) (proto : LinkProto) (protocols : BitVec 4) : Nat :=
  if role = 1 then protoCode proto
  else if role = 3 && proto != .pcie && protocols.getLsbD 0 && protocols.getLsbD 2 then protoCode proto
  else 1

/-- CXL_DEV_PROTOCOLS of half-port `h` as the link offers it: before the configuration load the boot ROM takes it from the page
whose settings it brought up (R82, notes/assumptions/67). -/
def State.devProtocols (s : State) (h : Nat) : Nat :=
  if s.boot.firmware then s.obj Row.cxlDevProtocols h
  else (tget s.bootOd (Row.cxlDevProtocols.key h 0)).getD (Row.cxlDevProtocols.dflt h 0)

/-- HOST_PROTOCOL of a new host link: what was negotiated of what CXL_DEV_PROTOCOLS offers. -/
def State.hostProtocols (s : State) (h : Nat) (proto : LinkProto) (protocols : BitVec 4) : Nat :=
  if proto == .pcie then 0
  else 1 + (protocols.getLsbD 1 && (s.devProtocols h).testBit 0).toNat * 2 +
    (protocols.getLsbD 2 && (s.devProtocols h).testBit 1).toNat * 4

/-- A half-port reaches L0. -/
def State.linkUp (s : State) (h gts width : Nat) (proto : LinkProto) (protocols : BitVec 4) : State :=
  let p := s.hp h
  if !s.alive || p.role = 0 || p.perst || p.up || !s.trains h gts width then s
  else
    let code := protoInForce p.role proto protocols
    let s := s.setHp h { p with
      up := true, speed := speedCode gts, width := width, proto := code, degraded := decide (width < p.lanes),
      enum := if p.isAcc then .waiting else .idle }
    if p.role = 1 then s.setObj Row.hostProtocol (s.hostProtocols h proto protocols)
    else if p.role = 3 && code = 1 then s.eventToFm 0 (Row.linkStatus.index + h) Row.linkStatus.sub (leBytes 4 (s.linkStatus h))
    else s

/-- A half-port whose link is down: writes without a Cmp get none any more. -/
def HalfPortSt.dropped (p : HalfPortSt) : HalfPortSt :=
  { p with
    up := false, speed := 0, width := 0, proto := 0, degraded := false, enum := .idle, flushing := none, cmps := p.presented }

/-- A half-port that is down returns to Detect. -/
def State.linkRetry (s : State) (h : Nat) : State :=
  if !s.alive || (s.hp h).role = 0 || (s.hp h).up then s else s.updHp h HalfPortSt.dropped

/-! ## Enumeration (R94, R95, R97) -/

/-- A BAR of a function. -/
abbrev FuncBar := Nat × BarReq

/-- BARs of all functions in order of assignment: largest first, and of equals the lower function and index. -/
def insertBar (b : FuncBar) : List FuncBar → List FuncBar
  | [] => [b]
  | c :: cs =>
    let m := b.2.sizes.foldl max 0
    let n := c.2.sizes.foldl max 0
    if n < m || (n == m && decide (b.1 * 8 + b.2.index.val ≤ c.1 * 8 + c.2.index.val)) then b :: c :: cs
    else c :: insertBar b cs

def sortBars (bs : List FuncBar) : List FuncBar := bs.foldr insertBar []

def foundBars (found : EnumResult) : List FuncBar :=
  found.funcs.flatMap fun f => f.bars.map fun b => (f.number.val, b)

/-- The largest size offered that fits from `cursor` up to `last`, and its naturally aligned base. -/
def fitBar (cursor last : Nat) (sizes : List Nat) : Option (Nat × Nat) :=
  let go := (sortNat sizes).reverse.find? fun n => n != 0 && decide (roundUp cursor n + n ≤ last + 1)
  go.map fun n => (roundUp cursor n, n)

/-- Assign BARs from the two cursors, 64-bit and 32-bit: the function, index, base and size of each that fits. -/
def assignBars : List FuncBar → Nat → Nat → List (Nat × Nat × Nat × Nat)
  | [], _, _ => []
  | (f, b) :: bs, c64, c32 =>
    match fitBar (if b.is64 then c64 else c32) (if b.is64 then 0x3FFFFFFFFFFF else 0xEFFFFFFF) b.sizes with
    | none => assignBars bs c64 c32
    | some (base, n) =>
      (f, b.index.val, base, n) :: (if b.is64 then assignBars bs (base + n) c32 else assignBars bs c64 (base + n))

def State.setBar (s : State) (h k base size : Nat) : State := s.setObj Row.downBar (base + size * 2 ^ 64) h k

/-- One BAR programmed; DOWN_BAR_0 to DOWN_BAR_5 report those of function 0 (notes/assumptions/68). -/
def State.giveBar (h : Nat) (t : Nat × Nat × Nat × Nat) (s : State) : State :=
  let s := s.emit (.accBar h t.1 t.2.1 t.2.2.1 t.2.2.2)
  if t.1 = 0 then s.setBar h t.2.1 t.2.2.1 t.2.2.2 else s

/-- Bus addresses of a device below half-port `h`: its functions' BARs, after which Memory Space Enable and Bus Master Enable are
set with a payload of at most 512 B (Table 04-4), or the HDM decoder of an ACC_CXLMEM link. -/
def State.assign (s : State) (h : Nat) (found : EnumResult) : State :=
  let s := eachDo (List.range 6) (fun k s => s.setBar h k 0 0) s
  if (s.hp h).isCxlMem then (s.setBar h 0 0x100000000 found.hdmSize).emit (.hdmDecoder h 0x100000000 found.hdmSize)
  else
    let s := eachDo (assignBars (sortBars (foundBars found)) 0x100000000 0x80000000) (State.giveBar h) s
    eachDo found.funcs (fun f s => s.emit (.accEnable h f.number (min 512 found.maxPayload))) s

/-- DOWN_ID: device and vendor of function 0. -/
def foundId (found : EnumResult) : Nat :=
  match found.funcs.find? fun f => f.number == 0 with
  | some f => f.deviceId.toNat * 2 ^ 16 + f.vendorId.toNat
  | none => 0

def State.setEnum (s : State) (h : Nat) (e : EnumSt) : State := s.updHp h fun p => { p with enum := e }

def State.enumerate (s : State) (h : Nat) (found : EnumResult) : State :=
  let p := s.hp h
  if !p.isAcc || !p.up || !(p.enum == .waiting || p.enum == .retrying) then s
  else if found.retryStatus then s.setEnum h .retrying
  else
    let s := s.setObj Row.downId (foundId found) h
    let s := s.updHp h fun p => { p with relaxed := found.relaxed, atomics := found.atomics }
    if found.switchUpstream then (s.setEnum h .failed).raisePf 0x0102 0 h 2 else (s.assign h found).setEnum h .done

def State.enumTimeout (s : State) (h : Nat) : State :=
  if (s.hp h).enum == .retrying then (s.setEnum h .failed).raisePf 0x0102 0 h 1 else s

/-! ## Flushing reads (R101, R103) and Cmps (R100) -/

/-- Regions whose REGION_FREE waited for flushing read `n` of half-port `h`. -/
def State.freeRegions (s : State) (h n info : Nat) : State :=
  let due := s.wq.regions.filter fun p => p.2.path == h && (match p.2.freeing with
    | some k => decide (1 ≤ k) && decide (k ≤ n)
    | none => false)
  eachDo due (fun p s =>
    let s := s.updRegion p.1 fun r => { r with freeing := none, pages := [] }
    s.raiseTo p.2.func 0x0303 (s.local totalRegions p.1) info) s

/-- A wait for a flushing read on `h` is left. -/
def State.flushWanted (s : State) (h : Nat) : Bool :=
  (s.wq.cqWait.any fun w => w.needs.any fun x => x.1 == h) ||
    s.wq.regions.any fun p => p.2.path == h && (p.2.freeing.getD 0) != 0

def State.nextFlush (s : State) (h : Nat) : State :=
  if (s.hp h).up && (s.hp h).flushing.isNone && s.flushWanted h then s.issueFlush h else s

/-- Flushing read `n` of `h` has completed. -/
def CqeWait.landed (w : CqeWait) (h n : Nat) : CqeWait :=
  { w with needs := w.needs.filter fun x => x.1 != h || decide (n < x.2) }

def State.flushDone (s : State) (h : Nat) : State :=
  match (s.hp h).flushing with
  | none => s
  | some n =>
    let k := (s.hp h).flushes
    let s := s.updHp h fun p => { p with flushing := none, flushed := n }
    let s := { s with wq := { s.wq with cqWait := s.wq.cqWait.map fun (w : CqeWait) => w.landed h k } }
    (s.freeRegions h k 0).nextFlush h

/-- The CQE waits for flushing read `n` of `h`; with the link down, for a Cmp of it too. -/
def CqeWait.waitsOn (w : CqeWait) (h n : Nat) (down : Bool) : Bool :=
  (w.needs.any fun x => x.1 == h && decide (x.2 ≤ n)) || (down && w.cmpNeeds.any fun x => x.1 == h)

/-- R103: the CQE is written with LOCAL_PATH and FLUSHED = 0. -/
def CqeWait.failed (w : CqeWait) : CqeWait :=
  { w with needs := [], cmpNeeds := [], cqe := { w.cqe with status := 3, flushed := false } }

def State.failWaits (s : State) (h n : Nat) (down : Bool) : State :=
  let qs := (s.wq.cqWait.filter fun w => w.waitsOn h n down).map CqeWait.qpn
  let mark (w : CqeWait) : CqeWait := if w.waitsOn h n down then w.failed else w
  let s := { s with wq := { s.wq with cqWait := s.wq.cqWait.map mark } }
  (eachDo qs (fun q s => s.qpError q 3) s).freeRegions h n 1

/-- A flushing read fails. With its link down, every wait on the half-port fails. -/
def State.flushFail (s : State) (h : Nat) (linkDown : Bool) : State :=
  let k := (s.hp h).flushes
  match (s.hp h).flushing with
  | none => if linkDown then s.failWaits h (k + 1) true else s
  | some _ =>
    let s := (s.updHp h fun p => { p with flushing := none }).bump Row.flushFailCount 1 h
    (s.failWaits h (if linkDown then k + 1 else k) linkDown).nextFlush h

/-- A Cmp for the oldest write of an ACC_CXLMEM half-port that has none. -/
def CqeWait.completed (w : CqeWait) (h n : Nat) : CqeWait :=
  { w with cmpNeeds := w.cmpNeeds.filter fun x => x.1 != h || decide (n < x.2) }

def State.cmp (s : State) (h : Nat) : State :=
  let p := s.hp h
  if !p.isCxlMem || p.presented ≤ p.cmps then s
  else
    let s := s.setHp h { p with cmps := p.cmps + 1 }
    { s with wq := { s.wq with cqWait := s.wq.cqWait.map fun (w : CqeWait) => w.completed h (p.cmps + 1) } }

/-! ## Accelerator links (R104, R105) -/

/-- A link loss, with the flushing reads and their waits that it fails. -/
def State.dropHp (s : State) (h : Nat) : State :=
  let s := s.updHp h fun p => { p with up := false }
  (s.flushFail h true).updHp h HalfPortSt.dropped

def State.accLinkDown (s : State) (h : Nat) : State :=
  if !(s.hp h).isAcc || !(s.hp h).up then s
  else
    let s := (s.dropHp h).bump Row.linkDownCount 1 h
    s.raisePf 0x0101 0 h (s.obj Row.linkDownCount h)

def State.accHps (s : State) : List Nat := (List.range 8).filter fun h => (s.hp h).isAcc

/-- PERST# of every half-port outside the host role is released (R104, R448). -/
def State.releaseAcc (s : State) : State :=
  eachDo ((List.range 8).filter fun h => (s.hp h).role != 1) (fun h s => s.updHp h fun p => { p with perst := false }) s

/-- The PERST# pulse of a subsystem 1 soft reset begins. -/
def State.accPulse (s : State) : State :=
  let s := eachDo s.accHps (fun h s => (s.dropHp h).updHp h HalfPortSt.held) s
  { s with host := { s.host with accPulse := true } }

def State.accPulseEnd (s : State) : State :=
  if s.host.accPulse then { s.releaseAcc with host := { s.host with accPulse := false } } else s

/-! ## Host loss and HOLD (Tables 04-6 and 11-9) -/

/-- VF Enable is cleared without a reset of the VFs (Table 19-2). -/
def State.dropVfs (s : State) : State :=
  let s := eachDo s.liveVfs (fun f s => s.abandonSave f) s
  let keep := s.tenant.funcs.filter fun p => p.1 == 0
  { s.setObj Row.vfsEnabled 0 with tenant := { s.tenant with numVfs := 0, vfEnable := false, funcs := keep } }

/-- What a loss of the host clears at the host port. -/
def State.hostPortReset (s : State) (cause : HostLossCause) : State :=
  let s := match s.hostHp with
    | none => s
    | some h => if cause == HostLossCause.d3hot then s
      else s.updHp h fun p => { p.dropped with
        perst := p.perst || cause == HostLossCause.perst, relaxed := true, atomics := false }
  let s := if cause == HostLossCause.d3hot then s else s.setObj Row.hostProtocol 0
  let s := (s.setObj Row.hostHdmBase 0).dropVfs.clearLinkSlots
  { s with
    cache := []
    host := { s.host with
      perst := s.host.perst || cause == HostLossCause.perst, committed := false, config := [], msixOn := [], msixMask := []
      msixTable := [], msixPending := [] } }

def lossCode : HostLossCause → Nat
  | .perst => 0
  | .linkDown => 1
  | .d3hot => 2

/-- Steps 1 to 4 of Table 11-9. -/
def State.enterHold (s : State) (cause : HostLossCause) : State :=
  let torn := s.applyRunning
  let s := { s with host := { s.host with entering := some (lossCode cause) } }
  let s := (s.hostPortReset cause).holdContexts
  let s := eachDo (tkeys s.colls.comms) (fun c s => s.silenceComm c) s
  let s := if torn then s.setObjBit Row.memStatus 2 true else s
  s.dropCast 10

/-- The loss of a host link that was up is counted at its half-port (R105, R106). -/
def State.countHostLoss (s : State) (cause : HostLossCause) : State :=
  match s.hostHp with
  | some h => if cause != .d3hot && (s.hp h).up then s.bump Row.linkDownCount 1 h else s
  | none => s

def State.hostLoss (s : State) (cause : HostLossCause) : State :=
  let s := if s.alive then s.countHostLoss cause else s
  if !s.alive then s
  else if s.mode == .operational && s.host.entering.isNone then s.enterHold cause
  else
    let s := match s.hostHp with
      | some h => if s.holding || cause == HostLossCause.d3hot then s else s.dropHp h
      | none => s
    s.hostPortReset cause

/-- Steps 5 and 6, and the graft unit's part. -/
def State.holdDone (s : State) : State :=
  match s.host.entering with
  | none => s
  | some _ =>
    let s := { s with mode := .hold, host := { s.host with entering := none } }
    (s.bump Row.holdCount).holdYield

def State.hostPerstOff (s : State) : State :=
  let s := { s with host := { s.host with perst := false } }
  match s.hostHp with
  | some h => s.updHp h fun p => { p with perst := false }
  | none => s

/-! ## Host requests (R87-R91) -/

/-- The host's link is up. -/
def State.hostUp (s : State) : Bool :=
  s.alive && !s.host.perst && (match s.hostHp with
    | some h => (s.hp h).up
    | none => false)

/-- A dword write to a function's configuration space is kept for the reads that follow. Those that the manual gives an effect
act: MSI-X Enable and its function mask, and on the PF Relaxed Ordering and AtomicOp Requester Enable (notes/assumptions/65). -/
def State.configWrite (s : State) (f off data : Nat) : State :=
  let s := { s with host := { s.host with config := tput s.host.config (f * 4096 + off) data } }
  let mark (l : List Nat) (b : Bool) : List Nat := if b then insertUnique f l else l.erase f
  let s := if off = Config.msixCap f then { s with host := { s.host with
    msixOn := mark s.host.msixOn (data.testBit 31), msixMask := mark s.host.msixMask (data.testBit 30) } } else s
  match s.hostHp with
  | none => s
  | some h =>
    let s := if f = 0 && off = Config.pcieCap + 8 then s.updHp h fun p => { p with relaxed := data.testBit 4 } else s
    if f = 0 && off = Config.pcieCap + 40 then s.updHp h fun p => { p with atomics := data.testBit 6 } else s

/-- Fields of the configuration space that the manual fixes, over what the implementation gives: TotalVFs is the share count
(R86), MSI-X has 2,048 vectors on the PF and 64 on a VF (R87), and payloads reach 512 B with 10-bit tags and no ASPM (Table 04-4). -/
def State.configFixed (s : State) (f off v : Nat) : Nat :=
  if f = 0 && off = Config.sriovCap + 12 then v % 2 ^ 16 + s.shares % 2 ^ 16 * 2 ^ 16
  else if off = Config.msixCap f then v / 2 ^ 27 * 2 ^ 27 + ((if f = 0 then 2048 else 64) - 1) * 2 ^ 16 + v % 2 ^ 16
  else if off = Config.pcieCap + 4 then v / 8 * 8 + 2
  else if off = Config.pcieCap + 12 then v / 2 ^ 12 * 2 ^ 12 + v % 2 ^ 10
  else if off = Config.pcieCap + 36 then setBit (setBit v 16 true) 17 true
  else v

def State.configRead (s : State) (f off : Nat) : Nat :=
  let last := match tget s.host.config (f * 4096 + off) with
    | some v => v + 1
    | none => 0
  s.configFixed f off (Config.configRead (f * 4096 + off) last % 2 ^ 32)

/-- Where the MSI-X table and the pending-bit array stand in BAR2/3 (Table 04-3). -/
def msixBase (f : Nat) : Nat := if f = 0 then 0x10000 else 0x8000
def msixPba (f : Nat) : Nat := if f = 0 then 0x18000 else 0xC000
def msixCount (f : Nat) : Nat := if f = 0 then 2048 else 64

/-- A vector that is unmasked signals what was pending. -/
def State.msixUnmask (s : State) (f v : Nat) : State :=
  if s.host.msixPending.contains (f * 2048 + v) && !(s.msixDword f v 3).testBit 0 then
    ({ s with host := { s.host with msixPending := s.host.msixPending.erase (f * 2048 + v) } } : State).msix f v
  else s

/-- A dword of BAR2/3 written: the MSI-X table; the mailbox and the status page's HEAD have commands of their own. -/
def State.bar2Write (s : State) (f off data : Nat) : State :=
  if !s.firmwareServes || off < msixBase f || msixBase f + 16 * msixCount f ≤ off then s
  else
    let d := off - msixBase f
    let s := { s with host := { s.host with msixTable := tput s.host.msixTable (f * 2048 * 4 + d / 4) data } }
    s.msixUnmask f (d / 16)

/-- A dword of BAR2/3: MODULE_STATE at offset 0 from PERST# deassertion on, and before CONFIG zero elsewhere (R87); a VF's MSG_FROM_PF_SEQ
at 0x10 and its function state at 0x14 (R386). -/
def State.bar2Read (s : State) (f off : Nat) : State :=
  if off = 0 then s.emit (.hostData (leBytes 4 s.mode.code) false)
  else if !s.firmwareServes then s.emit (.hostData (leBytes 4 0) false)
  else if msixBase f ≤ off && off < msixBase f + 16 * msixCount f then
    let d := off - msixBase f
    s.emit (.hostData (leBytes 4 (s.msixDword f (d / 16) (d / 4 % 4))) false)
  else if msixPba f ≤ off && off < msixPba f + msixCount f / 8 then
    let v := (off - msixPba f) * 8
    s.emit (.hostData (leBytes 4 (((List.range 32).map fun k =>
      (s.host.msixPending.contains (f * 2048 + v + k)).toNat * 2 ^ k).sum)) false)
  else if f ≠ 0 && off = 0x10 then s.emit (.hostData (leBytes 4 (s.obj Row.msgFromPfSeq (f * 65536))) false)
  else if f ≠ 0 && off = 0x14 then s.emit (.hostData (leBytes 4 (s.funcSt f)) false)
  else (s.emit (.hostData (leBytes 4 s.nextFree) false)).useFree

/-- CXL Memory Device media status: 0 not ready, 1 ready, 3 disabled (R90). -/
def MState.media : MState → Nat
  | .config | .operational | .hold => 1
  | .safe => 3
  | _ => 0

/-- A dword request of the host to a function's configuration space or BAR, or to the Memory Device Status register, whose bits
[3:2] are the media status. Reads of the doorbell aperture return zero (R119); its writes are commands of their own. -/
def State.hostConfig (s : State) (access : HostAccess) (offset data : Nat) : State :=
  let off := offset / 4 * 4
  let live (f : Nat) : Bool := f == 0 || (s.tenant.vfEnable && decide (f ≤ s.tenant.numVfs))
  if !s.hostUp then s
  else match access.space with
    | .config f => if !live f then s else if access.write then s.configWrite f (off % 4096) data
        else s.emit (.hostData (leBytes 4 (s.configRead f (off % 4096))) false)
    | .bar0 f => if access.write || !live f then s else s.emit (.hostData (leBytes 4 0) false)
    | .bar2 f => if !live f then s else if access.write then s.bar2Write f off data else s.bar2Read f off
    | .deviceStatus => if access.write then s else s.emit (.hostData (leBytes 4 (s.mode.media * 4)) false)

def State.hdmCommit (s : State) (base : Nat) : State :=
  if !s.hostUp || !s.objBit Row.hostProtocol 2 || s.obj Row.hdmWindow = 0 then s
  else { s.setObj Row.hostHdmBase base with host := { s.host with committed := true } }

/-- Offset of a host address in the HDM window. -/
def State.hdmOffset (s : State) (addr : Nat) : Option Nat :=
  let base := s.obj Row.hostHdmBase
  if s.hostUp && s.host.committed && base ≤ addr && addr < base + s.obj Row.hdmWindow * gib then some (addr - base)
  else none

/-- HDM is served: in CONFIG, OPERATIONAL and HOLD, within the HDM partition (R90). -/
def State.hdmServed (s : State) (off : Nat) : Bool := s.firmwareRuns && decide (off + 64 ≤ s.mem.layout.hdm * gib)

def State.hdmAddr (s : State) (off : Nat) : Nat := s.mem.layout.base 4 * gib + off

/-- A 64 B read of the HDM window. Outside CONFIG, OPERATIONAL and HOLD it is poisoned whether or not a decoder is committed; so is
one of the window beyond the partition. A served one is a class-3 request to its channel (Table 01-3). -/
def State.hdmRead (s : State) (addr : Nat) (uncorrectable : Bool) : State :=
  let poison := s.emit (.hostData (List.replicate 64 0xFF) true)
  if !s.firmwareRuns then (if s.hostUp && s.objBit Row.hostProtocol 2 then poison else s)
  else match s.hdmOffset (addr / 64 * 64) with
    | none => s
    | some off =>
      if !s.hdmServed off then poison
      else
        s.memAsk 3 (s.hdmAddr off) (.hdmRead uncorrectable)

def State.hdmWrite (s : State) (addr : Nat) (bytes : List (Option Byte)) : State :=
  match s.hdmOffset (addr / 64 * 64) with
  | none => s
  | some off => if s.hdmServed off then s.memAsk 3 (s.hdmAddr off) (.hdmWrite bytes) else s

/-- A snoop to the line of a host address. -/
def State.snoop (s : State) (addr : Nat) : State :=
  let line := addr / 64
  if s.cache.contains line then { s.emit (.snoopInvalid line) with cache := s.cache.erase line } else s

/-! ## Accelerator requests (R96) -/

/-- The upstream doorbell window. -/
def upstreamBase : Nat := 0x400000000000

def State.upstream (s : State) (h : Nat) (isWrite : Bool) (addr : Nat) (bytes : List Byte) (enables : Bool) : State :=
  if !(s.hp h).isAcc || !(s.hp h).up then s
  else
    let off := addr - upstreamBase
    let f := off / s.apertureSize
    if isWrite && upstreamBase ≤ addr && off < 64 * gib && s.functionLive f then
      s.aperture ⟨f, off % s.apertureSize, bytes, enables⟩
    else (s.emit (.unsupported h)).bump Row.urCount 1 h

/-! ## CXL IDE (R92) -/

def State.ideFails (s : State) : State :=
  if !s.objBit Row.hostProtocol 3 then s
  else ((s.secLog 3 0 0xFFFF 0 0 0 0).bump Row.ideFail).hostLoss .linkDown

end Sys2Proof.Machine
end

