-- ==== Sys2Proof/Machine/Boot.lean ====
section
/-! DEFINITION. Resets, the boot sequence, self-test, firmware verification and the configuration load (chapter 19,
R64, R65, R82, R398-R400, R453, R454, R464). -/

namespace Sys2Proof.Machine

/-! ## The configuration page (R64, R65) -/

/-- The copy that STORE writes: the other one than the best, and copy 0 when neither is valid. -/
def State.storeTarget (s : State) : Nat :=
  match s.bestCopy with
  | none => 0
  | some c => if s.flash.copies.getD 0 none == some c then 1 else 0

def State.setCopy (s : State) (k : Nat) (c : Option CfgCopy) : State :=
  { s with flash := { s.flash with copies := s.flash.copies.set k c, torn := none } }

/-- A STORE that is cut or fails leaves its copy invalid. -/
def State.tearCopy (s : State) (k : Nat) : State :=
  { s with flash := { s.flash with copies := s.flash.copies.set k none, torn := some k } }

/-- A STORE that is cut leaves its copy invalid. -/
def State.cutStore (s : State) : State :=
  match s.mgmt.busy with
  | some (.store, _) => s.tearCopy s.storeTarget
  | _ => s

/-- Rows of class S; OWNER_ROOT stands in its own record (R52, R405). -/
def storedRows : List ObjRow := dictRows.filter fun r => r.persist == .s && r.index * 256 + r.sub != 0x800102

/-- Keys of the S objects. -/
def storedKey (n : Nat) : Bool := storedRows.any fun r => r.covers (n / 256) (n % 256)

/-- What the configuration page holds of the live values. -/
def State.snapshot (s : State) (seq : Nat) : CfgCopy :=
  ⟨seq, s.od.filter fun p => storedKey p.1, [(Row.pairPeerSerial.key 0 0, s.blob Row.pairPeerSerial)]⟩

/-- Set every S object to the values of a copy, or to its default. -/
def State.loadStored (s : State) (c : Option CfgCopy) : State :=
  let vs := match c with
    | some c => c.od
    | none => []
  let od := (s.od.filter fun p => !storedKey p.1)
  let serial := match c.bind fun c => tget c.blobs (Row.pairPeerSerial.key 0 0) with
    | some b => b
    | none => Config.pairedSerial
  let s := { s with od := vs.foldl (fun (t : Tab Nat) (p : Nat × Nat) => tput t p.1 p.2) od }
  s.setBlob Row.pairPeerSerial serial

/-! ## Reset (R427, R428, R430) -/

/-- The mode of the next self-test after a module reset. -/
def State.resetFull (s : State) : Bool := s.obj Row.selftestResetMode == 0

/-- What a reset or a loss of power does to flash programming under way. -/
def State.cutFlash (s : State) : State :=
  let s := s.cutStore
  if s.obj Row.fwCommitStatus % 256 = 2 then { s with flash := { s.flash with image := false } } else s

/-- Module memory over a module reset: a slot being written becomes INCOMPLETE, and so does one being received. -/
def State.keptMem (s : State) : Mem :=
  let s := (s.dropCast 10)
  let s := match s.twin.receiving with
    | some k => s.setEntry k { s.entry k with slotState := 4 }
    | none => s
  { s.mem with
    cast := none, initLeft := 0, initActive := false, initTotal := 0, initMap := 0, asleep := List.range 96
    queues := [], waited := [], accesses := [], checks := [] }

/-- The state under reset. `keep` is what module memory keeps; `cause` and `full` are of the entry into BOOT_ROM that
follows. -/
def State.underReset (s : State) (keep : Mem) (cause : Nat) (full : Bool) : State :=
  let s := s.cutFlash
  { State.reset with
    pending := s.pending
    out := s.out
    freeCount := s.freeCount
    mode := .reset
    od := []
    mem := keep
    flash := s.flash
    host := { State.reset.host with perst := s.host.perst }
    power := { State.reset.power with jtag := s.power.jtag, boundary := s.power.boundary }
    boot := { State.reset.boot with mrst := s.boot.mrst, pulse := s.boot.pulse, fullNext := full, nextCause := cause } }

/-- The assertion of a module reset. -/
def State.assertReset (s : State) (cause : Nat) (full : Bool) : State :=
  let quiet := { s with mode := .reset }
  s.underReset quiet.keptMem cause full

/-- The local timer starts and the module enters BOOT_ROM. -/
def State.enterBoot (s : State) (pairId : Nat) : State :=
  let position := if pairId = 1 then 1 else if pairId = 2 then 2 else 0
  let s := { s with
    mode := .bootRom
    timer := 0
    ticks := []
    boot := { s.boot with pulse := false, pairId := pairId, since := 0 }
    twin := { s.twin with position := position } }
  s.setObj Row.resetCause s.boot.nextCause

/-- Power-good rises. -/
def State.powerUp (s : State) (mrstHigh : Bool) (pairId : Nat) : State :=
  if s.power.good then s
  else
    let s := { s with boot := { s.boot with mrst := !mrstHigh, pulse := false } }
    let s := s.underReset State.reset.mem 1 true
    if mrstHigh then s.enterBoot pairId else s

/-- Power-good falls: a power loss. -/
def State.powerFall (s : State) : State :=
  if !s.power.good then s
  else
    let s := { s with boot := { s.boot with pulse := false } }
    let s := s.underReset State.reset.mem 1 true
    { s with mode := .off, power := { s.power with good := false, jtag := 0 } }

/-- 110 °C in units of 0.125 °C (R464). -/
def State.trip (s : State) (reading : Int) : State := if 880 ≤ reading then s.powerFall else s

def State.mrstLow (s : State) (ns : Nat) : State :=
  if ns < 1000 then s
  else
    let s := { s with boot := { s.boot with mrst := true } }
    if !s.power.good then s else s.assertReset 2 s.resetFull

def State.mrstHigh (s : State) : State :=
  if !s.boot.mrst then s
  else { s with
    boot := { s.boot with mrst := false }
    power := { s.power with jtag := 0 } }

/-- The internal reset of a MODULE_RESET write of 1 or 2. -/
def State.pulseReset (s : State) (value : Nat) : State :=
  let full := value = 2 || s.resetFull
  let s := { s with boot := { s.boot with pulse := true } }
  s.assertReset 3 full

def State.resetRelease (s : State) (pairId : Nat) : State :=
  if s.mode == MState.reset && !s.boot.mrst then s.enterBoot pairId else s

/-! ## BOOT_ROM (R82, R426) -/

/-- Bring half-port `h` up in a role; PERST# of the host half-port is the host's. -/
def State.setRole (s : State) (h role cap : Nat) (x16 : Bool) : State :=
  s.setHp h { HalfPortSt.default with role := role, x16 := x16, cap := cap, perst := if role = 1 then s.host.perst else true }

/-- The defaults that stand in for settings that cannot be read or break a rule (R82). -/
def State.defaultPorts (s : State) : State :=
  eachDo (List.range 8) (fun h s => s.setRole h (if h = 0 then 1 else 0) 32 false) s

/-- The half-port settings the boot ROM brings up. -/
def State.bootPorts (s : State) : State :=
  match s.bootPage with
  | some t => eachDo (List.range 8) (fun h s => s.setRole h (t.obj Row.role h) (t.obj Row.speedCap h) (t.x16Written h)) s
  | none => s.defaultPorts

/-- Hot-Join as the I3C endpoint opens after a module reset (R456; step 4 of R426). -/
def State.hotJoin (s : State) : State := if s.obj Row.resetCause = 1 then s else s.emit .hotJoin

/-- SELFTEST_RESET_MODE as the page holds it: the boot ROM serves it. -/
def State.bootMode (s : State) : State :=
  match s.bestCopy.bind fun c => tget c.od (Row.selftestResetMode.key 0 0) with
  | some v => s.setObj Row.selftestResetMode v
  | none => s

def State.directoryRead (s : State) (readable : Bool) : State :=
  if s.mode != .bootRom then s
  else if !readable then s.hotJoin.defaultPorts.enterSafe 1
  else
    let s := s.bootMode.bootPorts.hotJoin
    { s with
      mode := .selfTest
      boot := { s.boot with
        quick := !s.boot.fullNext, phase := 0, since := s.timer, analogDone := [], running := [], nextSlice := 0,
        lastStart := none } }

/-! ## Self-test (R433-R437) -/

/-- SELFTEST_LAST and SELFTEST_TIME at the end of a self-test. -/
def State.noteTest (s : State) (passed : Bool) : State :=
  (s.setObj Row.selftestLast (s.boot.quick.toNat + passed.toNat * 2)).setObj Row.selftestTime
    ((s.timer - s.boot.since) / 1000 % 2 ^ 32)

def State.testFails (s : State) : State := (s.noteTest false).enterSafe 2

/-- Limits of R424 in ns. -/
def State.bootLimit (s : State) : Option Nat :=
  match s.mode with
  | .bootRom => some 1000000000
  | .selfTest => some 5000000000
  | .fwLoad => some 2000000000
  | _ => none

def State.limitPassed (s : State) : State :=
  match s.bootLimit with
  | none => s
  | some n =>
    let s := s.advanceTo (s.boot.since + n)
    let s := if s.mode == .selfTest then s.noteTest false else s
    s.enterSafe 6

def State.setPhase (s : State) (n : Nat) : State := { s with boot := { s.boot with phase := n } }

/-- One voltage step of the references phase: monitors that deviate are excluded; whether the median lies within 15 %
of the fused stage time. -/
def State.refStep (s : State) (rs : List Nat) (fused : Nat) : State × Bool :=
  let twice := twiceMedian rs
  let s := eachDo (List.range 32) (fun k s =>
    if deviates twice (rs.getD k 0) then s.setObjBit Row.paceMonExcluded k true else s) s
  let off := if twice ≤ 2 * fused then 2 * fused - twice else twice - 2 * fused
  (s, decide (100 * off ≤ 30 * fused))

/-- The steps that run: all three, or under a thermal limit the first alone (R462). -/
def State.refSteps (s : State) : List Nat := if s.thermalCap then [0] else [0, 1, 2]

def sortInt (l : List Int) : List Int :=
  l.foldr (fun x t => t.takeWhile (fun y => decide (y < x)) ++ x :: t.dropWhile (fun y => decide (y < x))) []

/-- Sensors more than 5 °C from the median of all 20. -/
def badSensors (ts : List Int) : List Nat :=
  let t := sortInt ts
  let twice := t.getD 9 0 + t.getD 10 0
  (List.range 20).filter fun k => decide (80 < (2 * ts.getD k 0 - twice).natAbs)

def State.excludeSensor (s : State) (k : Nat) : State :=
  let s := s.setObjBit Row.analogFail (208 + k) true
  { s with power := { s.power with excluded := setBit s.power.excluded k true } }

def State.references (s : State) (monitors : List (List Nat)) (fused : List Nat) (temps : List Int) : State :=
  if s.mode != .selfTest || s.boot.phase != 0 then s
  else
    let r := s.refSteps.foldl (fun (acc : State × Bool) k =>
      let t := acc.1.refStep (monitors.getD k []) (fused.getD k 0)
      (t.1, acc.2 && t.2)) (s, true)
    let bad := badSensors temps
    let s := eachDo bad (fun k s => s.excludeSensor k) r.1
    if !r.2 || 20 - bad.length < 12 then s.testFails else s.setPhase 1

/-- Lanes of the host port, which has no loopback. -/
def State.hostLanes (s : State) : List Nat :=
  match s.hostHp with
  | some h => (List.range (s.hp h).lanes).map fun k => 8 * h + k
  | none => []

/-- The checks of the analogue phase. -/
def State.analogChecks (s : State) : List AnalogueCheck :=
  let near := (List.finRange 24).map AnalogueCheck.serdesNear
  let far := if s.boot.quick then [] else (List.finRange 24).map AnalogueCheck.serdesFar
  let cxl := ((List.finRange 64).filter fun k => !s.hostLanes.contains k.val).map AnalogueCheck.cxlLoopback
  near ++ far ++ cxl ++ [.hostMargin] ++ (List.finRange 96).map AnalogueCheck.lpddr

/-- The outcome of a check that fails (Table 19-9). -/
def State.checkFails (s : State) : AnalogueCheck → State
  | .serdesNear k => (s.setObjBit Row.analogFail k.val true).setObjBit Row.laneStatus 2 true k.val
  | .serdesFar k => (s.setObjBit Row.analogFail (24 + k.val) true).setObjBit Row.laneStatus 2 true k.val
  | .cxlLoopback k => s.setObjBit Row.analogFail (48 + k.val) true
  | .hostMargin => s
  | .lpddr c => (s.setObjBit Row.analogFail (112 + c.val) true).testFails

/-- A channel leaves self-refresh for its check. -/
def State.wakeFor (s : State) : AnalogueCheck → State
  | .lpddr c => { s with mem := { s.mem with asleep := s.mem.asleep.erase c.val } }
  | _ => s

def State.analogDone (s : State) (c : AnalogueCheck) (passed : Bool) : State :=
  if s.mode != .selfTest || s.boot.phase != 1 || s.boot.analogDone.contains c || !s.analogChecks.contains c then s
  else
    let s := s.wakeFor c
    let s := { s with boot := { s.boot with analogDone := c :: s.boot.analogDone } }
    let s := if passed then s else s.checkFails c
    if s.mode == .selfTest && s.analogChecks.all fun d => s.boot.analogDone.contains d then s.setPhase 2 else s

def State.mbist (s : State) (repairs : List Nat) (bufferOk : Bool) : State :=
  if s.mode != .selfTest || s.boot.phase != 2 then s
  else
    let s := s.setObj Row.mbistRepairs (leNat (repairs.flatMap fun n => leBytes 2 n))
    if !bufferOk || repairs.any fun n => decide (64 < n) then s.testFails else s.setPhase 3

/-- Test power of the slices that run, in units of 0.25 W, with the base of 40 W. -/
def State.testPower (s : State) : Nat := 160 + (s.boot.running.map fun x => x.hdr.power.toNat).sum

/-- Least time between two starts, ns. -/
def State.sliceSpacing (s : State) : Nat := if s.boot.quick then 312500 else 625000

def State.sliceStart (s : State) (k : Nat) (hdr : SliceHdr) : State :=
  if s.mode != .selfTest || s.boot.phase != 3 || k ≠ s.boot.nextSlice || 16 ≤ s.boot.running.length ||
      480 < s.testPower + hdr.power.toNat then s
  else
    let s := match s.boot.lastStart with
      | some t => s.advanceTo (t + s.sliceSpacing)
      | none => s
    { s with boot := { s.boot with
      running := s.boot.running ++ [⟨k, hdr⟩], nextSlice := k + 1, lastStart := some s.timer } }

/-- A RAU that fails its slice or a pattern in self-test is retired (R346, R435). -/
def State.testRetire (s : State) (u cause : Nat) : State :=
  if s.role u = 2 then s
  else
    let pos := s.obj Row.rauLogical u
    let x := Section.plain cause 1 u pos
    let r := s.retire u cause none
    r.1.patina { x with action := if r.2.isSome || pos == 0xFF then 1 else 2 } none

def State.sliceFails (s : State) (k : Nat) : State :=
  let s := s.setObjBit Row.sliceFail k true
  if k < 272 then s.testRetire (k / 4) 5 else s.testFails

/-- Field-learnt patterns run after a unit's last slice, unless it has been retired. -/
def State.unitPatterns (s : State) (k : Nat) (ok : Bool) : State :=
  if k < 272 && k % 4 = 3 && s.role (k / 4) ≠ 2 && !s.flash.patterns.isEmpty then
    let s := s.bump Row.patternRuns s.flash.patterns.length
    if ok then s else s.testRetire (k / 4) 6
  else s

/-- After the last slice the self-test has passed. -/
def State.scanOver (s : State) : State :=
  if s.mode == .selfTest && s.boot.nextSlice = 1024 && s.boot.running.isEmpty then
    let s := s.noteTest true
    { s with mode := .fwLoad, boot := { s.boot with since := s.timer } }
  else s

def State.endSlice (s : State) (k : Nat) : State :=
  { s with boot := { s.boot with running := s.boot.running.filter fun x => x.slice != k } }

def State.sliceEnds (s : State) (k : Nat) (passed : SliceHdr → Bool) (patternsOk : Bool) : State :=
  match s.boot.running.find? fun x => x.slice == k with
  | none => s
  | some x =>
    let s := s.endSlice k
    let s := if passed x.hdr then s else s.sliceFails k
    (s.unitPatterns k patternsOk).scanOver

def State.sliceDone (s : State) (k : Nat) (response : BitVec 128) (patternsOk : Bool) : State :=
  let quick := s.boot.quick
  s.sliceEnds k (fun h => h.crcOk && response == (if quick then h.quickSignature else h.signature)) patternsOk

def State.sliceTimeout (s : State) (k : Nat) : State := s.sliceEnds k (fun _ => false) true

/-! ## FW_LOAD (R398, R399, R65, R253) -/

/-- The first check of R398 that fails; 0 when all pass. -/
def State.verify (s : State) (v : ImageVerdict) (present : Bool) : Nat :=
  if !present || !v.headerOk then 1
  else if !v.signerOk then 2
  else if !v.signatureOk then 3
  else if 64 < v.svn || v.svn < s.flash.svnMin then 4
  else 0

/-- The configuration load. -/
def State.loadConfig (s : State) : State :=
  let c := s.bestCopy
  let s := s.loadStored c
  match c with
  | some c => (s.setObj Row.cfgSequence c.seq).setObj Row.cfgStatus s.flash.torn.isSome.toNat
  | none => ((s.setObj Row.cfgSequence 0).setObj Row.cfgStatus 2).setObj Row.reason 0x0C080001

/-- The layout that comes into force, and initialisation by Table 11-4: CAST is kept over a module reset whose layout
leaves it in place. -/
def State.bootMemory (s : State) (powerOn : Bool) : State :=
  let old := s.mem.layout
  let ok := s.layoutOk
  let new := if ok then s.writtenLayout else old
  let keep := !powerOn && new.cast == old.cast && new.base 1 == old.base 1
  let s := if keep then s else s.clearDir
  let s := if ok then { s with mem := { s.mem with layout := new, preserve := s.obj Row.preserve } } else s
  let s := s.setObjBit Row.memStatus 1 (!ok)
  let s := { s with mem := { s.mem with asleep := [] } }
  s.initAll fun k => keep && k == 1

/-- CONFIG: the firmware starts. -/
def State.enterConfig (s : State) (v : ImageVerdict) : State :=
  let powerOn := s.obj Row.resetCause = 1
  let s := s.loadConfig
  let s := (s.setObj Row.fwVersion v.version.toNat).setObj Row.fwSvn v.svn
  let s := (s.bootMemory powerOn).releaseAcc.takeMeasures
  { s with mode := .config, boot := { s.boot with firmware := true } }

def State.fwLoaded (s : State) (v : ImageVerdict) : State :=
  if s.mode != .fwLoad then s
  else match s.verify v s.flash.image with
    | 0 => s.enterConfig v
    | n => ((s.setObj Row.bootVerify n).secLog 5 n 0xFFFF 0 0 0 0).enterSafe 3

end Sys2Proof.Machine
end

