-- ==== Sys2Proof/Machine/Check.lean ====
section
/-! DEFINITION. The consistency check: the rules of Table 03-13, their offending objects, and what a refusal and an
accepted enable write do to the reason objects (R70-R75). -/

namespace Sys2Proof.Machine

/-! ## Enable requirements (Table 03-11) -/

def requires : Nat → List Nat
  | 2 => [1, 4]
  | 3 => [2, 4, 6]
  | 4 => [9]
  | 6 => [5]
  | 7 => [3, 9]
  | 8 => [7]
  | 11 => [3, 9]
  | _ => []

/-- The word of the enable of subsystem `n`. -/
def enableWord (n : Nat) : Nat := offendingWord (0x2010 + n) 1

/-- The lowest subsystem that `n` requires and whose enable is 0. -/
def State.missing (s : State) (n : Nat) : Option Nat := (requires n).find? fun m => !s.enableObj m

/-- The lowest enabled subsystem that requires `n`. -/
def State.dependent (s : State) (n : Nat) : Option Nat :=
  (List.range 12).find? fun m => s.enableObj m && m != 0 && (requires m).contains n

/-! ## The rules -/

/-- The word of the first of some instances for which a test holds. -/
def firstWord (n base sub : Nat) (p : Nat → Bool) : Option Nat :=
  ((List.range n).find? p).map fun k => offendingWord (base + k) sub

/-- The word of one object when a rule about it fails. -/
def wordIf (bad : Bool) (index sub : Nat) : Option Nat := if bad then some (offendingWord index sub) else none

def isPow2 (n lo hi : Nat) : Bool := decide (lo ≤ n) && decide (n ≤ hi) && n == 2 ^ Nat.log2 n

/-- The first of some words. -/
def orWord (a b : Option Nat) : Option Nat := match a with
  | some x => some x
  | none => b

/-- Rules of subsystem 1. -/
def State.portRules (s : State) : List (Nat × Option Nat) :=
  [(0x01010001, firstWord 8 0x3200 3 fun h => !(([8, 16, 32] : List Nat).contains (s.obj Row.speedCap h))),
    (0x01010002, wordIf (!isPow2 s.shares 1 1024) 0x2400 1),
    (0x01020001, wordIf (decide (1024 < s.obj Row.hdmWindow)) 0x2200 1),
    (0x01020002, wordIf (s.tenant.vfEnable && decide (s.shares < s.tenant.numVfs)) 0x2400 1),
    (0x01040001, match s.hostsWritten with
      | [] => some (offendingWord 0x3200 1)
      | [_] => none
      | _ :: h :: _ => some (offendingWord (0x3200 + h) 1)),
    (0x01040002, s.splitWide.head?.map fun h => offendingWord (0x3200 + h) 1),
    (0x01040003, s.strayProtocols.head?.map fun h => offendingWord (0x3200 + h) 1),
    (0x01070001, firstWord 8 0x3200 4 fun h => s.obj Row.role h != 1 && s.obj Row.ideEnable h == 1)]

/-- Rules of subsystems 2 to 4. -/
def State.queueRules (s : State) : List (Nat × Option Nat) :=
  [(0x02010001, wordIf (!isPow2 (s.obj Row.defaultRingEntries) 64 65536) 0x2300 1),
    (0x02010002, wordIf (decide (4000 < s.obj Row.defaultPoll)) 0x2300 2),
    (0x03020001, wordIf (decide (262144 < s.obj Row.roceQps)) 0x4001 2),
    (0x03040001, wordIf ((List.range 4).any fun p => s.objBit Row.rocePorts p && !s.ethernet p) 0x4001 1),
    (0x03040002, wordIf (s.obj Row.nativeUdpPort == 4791) 0x4001 3),
    (0x04010001, wordIf (s.obj Row.hbPoolBase % 2097152 != 0) 0x4100 3),
    (0x04040001, wordIf (decide (s.obj Row.hotHighWatermark ≤ s.obj Row.hotLowWatermark)) 0x4100 1)]

/-- A pair of ports of which exactly one is set to 800GbE. -/
def State.oddPair (s : State) (p : Nat) : Bool := (s.portMode p == 4) != (s.portMode (p + 1) == 4)

/-- Rules of subsystem 5. -/
def State.fabricRules (s : State) : List (Nat × Option Nat) :=
  [(0x05010001, orWord (wordIf (decide (1048576 < s.torusX * s.torusY)) 0x7600 3)
      (wordIf (decide (s.torusX * s.torusY ≤ s.obj Row.moduleAddress)) 0x7600 1)),
    (0x05030001, wordIf (s.obj Row.routingMode == 1 && !s.bankLoaded) 0x7600 4),
    (0x05040001, firstWord 4 0x3000 1 fun p => s.torusPort p && s.ethernet p),
    (0x05040002, orWord (wordIf (s.oddPair 0) 0x3001 1) (wordIf (s.oddPair 2) 0x3003 1))]

/-- The first port and VC for which a test holds, as the word of that VC's object from subindex `sub`. -/
def vcWord (sub : Nat) (bad : Nat → Nat → Bool) : Option Nat :=
  ((List.range 32).find? fun n => bad (n / 8) (n % 8)).map fun n => offendingWord (0x3000 + n / 8) (sub + n % 8)

/-- The first function and limit for which a burst is above 16 MiB. Only a listed value can be. -/
def State.burstWord (s : State) : Option Nat :=
  (s.od.find? fun p => decide (0x710000 ≤ p.1) && decide (p.1 < 0x760000) && decide (16777216 < p.2) &&
    (Row.txBurst.covers (p.1 / 256) (p.1 % 256) || Row.policeBurst.covers (p.1 / 256) (p.1 % 256))).map
      fun p => offendingWord (p.1 / 256) (p.1 % 256)

/-- Rules of subsystem 6. -/
def State.trafficRules (s : State) : List (Nat × Option Nat) :=
  [(0x06010001, vcWord 0x48 fun p v => s.obj Row.vcWeight p v == 0),
    (0x06010002, orWord (vcWord 0x58 fun p v => decide (16777216 < s.obj Row.vcBurst p v)) s.burstWord),
    (0x06010003, wordIf (s.obj Row.tmSampleInterval == 0 || decide (1000 < s.obj Row.tmSampleInterval)) 0x7000 8),
    (0x06040001, firstWord 4 0x3000 0x40 fun p =>
      [1, 2, 3, 4].any fun v => decide (s.obj Row.vcLevel p 0 < s.obj Row.vcLevel p v))]

/-- Rules of subsystems 7 and 8. -/
def State.collRules (s : State) : List (Nat × Option Nat) :=
  [(0x07010001, orWord (wordIf (decide (65536 < s.obj Row.stageMaxMembers)) 0x5000 1)
      (wordIf (decide (67108864 < s.obj Row.stageMaxBytes)) 0x5000 2)),
    (0x07010002, wordIf (decide (s.obj Row.collTimeout ≤ s.obj Row.progressTimer)) 0x5000 3),
    (0x08010001, ((List.range 4).find? fun l => !decide (1 ≤ s.obj Row.levelRound 0 l) || decide (3 < s.obj Row.levelRound 0 l)).map
      fun l => offendingWord 0x5100 (5 + l)),
    (0x08040001, ([1, 2, 3].find? fun l =>
      decide (fmtWidth (s.obj Row.levelFormat 0 (l - 1)) < fmtWidth (s.obj Row.levelFormat 0 l))).map
      fun l => offendingWord 0x5100 (1 + l))]

/-- Partition sizes as written, by subindex of 0x6000. -/
def State.sizeObjs (s : State) : List (Nat × Nat) :=
  [(1, s.obj Row.sizeContext), (2, s.obj Row.sizeState), (3, s.obj Row.sizeCast), (4, s.obj Row.sizeStage), (5, s.obj Row.sizeHdm)]

/-- Rules of subsystem 9. Of the objects of a sum, the non-zero one with the highest number offends (R74). -/
def State.memRules (s : State) : List (Nat × Option Nat) :=
  let high := ((s.sizeObjs.filter fun p => p.2 != 0).getLast?.map Prod.fst).getD 5
  let cast := s.obj Row.sizeCast
  [(0x09010001, wordIf (s.obj Row.sizeContext != 8) 0x6000 1),
    (0x09020001, wordIf (decide (1430 < s.writtenLayout.sizes.sum)) 0x6000 high),
    (0x09020002, wordIf (decide (s.obj Row.sizeHdm < s.obj Row.hdmWindow)) 0x6000 5),
    (0x09020003, wordIf (cast != 0 && decide (cast < 2 * s.obj Row.sizeState)) 0x6000 3),
    (0x09040001, ([(2, 2), (3, 4), (4, 5)].find? fun (p : Nat × Nat) => s.preserveBreak p.1).map
      fun p => offendingWord 0x6000 p.2)]

/-- The first object that requires the cipher engine: a port's or function's REQUIRE_CIPHER, or IDE_ENABLE (R92). -/
def State.cipherWord (s : State) : Option Nat :=
  orWord (firstWord 4 0x3000 6 fun p => s.obj Row.requireCipherPort p == 1)
    (orWord (firstWord 8 0x3200 4 fun h => s.obj Row.ideEnable h == 1)
      ((s.od.find? fun p => p.2 == 1 && Row.requireCipherFunc.covers (p.1 / 256) (p.1 % 256)).map
        fun p => offendingWord (p.1 / 256) (p.1 % 256)))

/-- Rules of subsystems 10 and 11. -/
def State.otherRules (s : State) : List (Nat × Option Nat) :=
  [(0x0A030001, if s.enableObj 10 then none else s.cipherWord),
    (0x0B010001, wordIf (s.enableObj 11 && !s.pairsValid) 0x7600 9),
    (0x0B040001, wordIf (s.enableObj 11 && s.twin.position == 0) 0x201B 1)]

/-- Every rule but the dependency rules, in ascending order of code. -/
def State.rules (s : State) : List (Nat × Option Nat) :=
  s.portRules ++ s.queueRules ++ s.fabricRules ++ s.trafficRules ++ s.collRules ++ s.memRules ++ s.otherRules

/-- The first rule of a list that fails. -/
def firstFailure : List (Nat × Option Nat) → Option (Nat × Nat)
  | [] => none
  | (code, some w) :: _ => some (code, w)
  | (_, none) :: rs => firstFailure rs

/-- 0x0003_0001 over every enabled subsystem. -/
def State.dependencyRule (s : State) : Option (Nat × Nat) :=
  ((List.range 12).find? fun n => n != 0 && s.enableObj n && (s.missing n).isSome).bind fun n =>
    (s.missing n).map fun m => (0x00030001, enableWord m)

/-- The check of a write of 1 to OPERATE. -/
def State.checkOperate (s : State) : Option (Nat × Nat) :=
  match s.dependencyRule with
  | some f => some f
  | none => firstFailure s.rules

/-- The check of a write of 1 to the enable of subsystem `n`. -/
def State.checkEnable (s : State) (n : Nat) : Option (Nat × Nat) :=
  match s.missing n with
  | some m => some (0x00030001, enableWord m)
  | none =>
    let t := s.setObj Row.enable 1 (n - 1)
    firstFailure (t.rules.filter fun r => r.1 / 2 ^ 24 == n)

/-- The check of a write of 0 to the enable of subsystem `n`. -/
def State.checkDisable (s : State) (n : Nat) : Option (Nat × Nat) :=
  (s.dependent n).map fun m => (0x00030002, enableWord m)

/-! ## Reasons (R74, R75) -/

/-- A refusal: REASON unless latched, OFFENDING, and for an enable its own reason object. -/
def State.refuseEnable (s : State) (f : Nat × Nat) (sub : Option Nat) : State :=
  let s := if s.latched then s else s.setObj Row.reason f.1
  let s := s.setObj Row.offending f.2
  match sub with
  | some n => s.setObj Row.subsysReason f.1 (n - 1)
  | none => s

/-- An accepted write clears REASON and OFFENDING, unless they hold a class 0x05 code. -/
def State.clearReason (s : State) : State :=
  if s.latched then s else (s.setObj Row.reason 0).setObj Row.offending 0

end Sys2Proof.Machine
end

