-- ==== Sys2Proof/Machine/Enable.lean ====
section
/-! DEFINITION. Starting and stopping the module and its subsystems, the drain, HOLD to CONFIG, and the subsystem soft
resets (R67, R68, R70, R81, R263, R429, R469, Table 19-3). -/

namespace Sys2Proof.Machine

/-! ## Starting -/

/-- The rings of every queue pair and SRQ. -/
def State.allRings (s : State) : List RingId :=
  (tkeys s.wq.qps).flatMap (fun q => [RingId.send q, RingId.recv q]) ++ (tkeys s.wq.srqs).map RingId.srq

/-- A QP in ERROR whose entries are still to complete: a soft reset of subsystem 3 leaves them so (Table 19-3). -/
def Qp.unflushed (x : Qp) : Bool :=
  x.st == .error && ((x.wqes.any fun w => w.coll.isNone && !w.ended) || !x.resp.recvs.isEmpty || !x.resp.msgs.isEmpty)

/-- Rings are read again where entries were announced, and entries left by a soft reset complete. -/
def State.startRings (s : State) : State :=
  if !s.enabled 2 || !s.enabled 3 then s
  else
    let s := eachDo s.wq.qps (fun p s => if p.2.unflushed then s.flushQp p.1 p.2 0x81 else s) s
    eachDo s.allRings (fun r s => s.readHead r) s

/-- The routing rules that ROUTING_MODE selects. A torus port that is OFF counts as down (R221, R236). -/
def State.startRouting (s : State) : State :=
  let s := { s with fabric := { s.fabric with split := s.obj Row.routingMode == 1, broken := false } }
  match (List.range 4).find? fun p => s.torusPort p && s.portMode p == 0 with
  | some p => s.toSplit p
  | none => s

/-- Subsystem `n` starts. -/
def State.startSub (s : State) (n : Nat) : State :=
  match n with
  | 2 => s.startRings
  | 3 => s.startRings
  | 5 => eachDo [0, 1, 2, 3] (fun l s => s.startTraining l) s.startRouting
  | 6 => s.fillBuckets
  | 11 => eachDo [4, 5] (fun l s => s.startTraining l) s.seek
  | _ => s

/-- A half-port whose written role, width or rate cap takes effect without a module reset (R81). -/
def State.roleChanges (s : State) (h : Nat) : Bool :=
  (s.hp h).role != 1 && s.obj Row.role h != 1 && s.rolePending h

/-- The width of the host's port is changed by a module reset only. -/
def State.widthWritten (s : State) (h : Nat) : Bool :=
  let mate := if h % 2 = 0 then h + 1 else h - 1
  if (s.hp mate).role == 1 || s.obj Row.role mate == 1 then (s.hp h).x16 else s.x16Written h

/-- A changed half-port takes its written settings and retrains; its PERST# is released. -/
def State.changeRole (s : State) (h : Nat) : State :=
  let role := s.obj Row.role h
  let cap := s.obj Row.speedCap h
  let wide := s.widthWritten h
  let s := if (s.hp h).up then s.dropHp h else s
  s.updHp h fun p => { p with role := role, cap := cap, x16 := wide, perst := false }

def State.changeRoles (s : State) : State :=
  eachDo ((List.range 8).filter fun h => s.roleChanges h) (fun h s => s.changeRole h) s

/-- CONFIG to OPERATIONAL: every subsystem whose enable is 1 starts. -/
def State.startModule (s : State) : State :=
  let s := { s.changeRoles with mode := .operational }
  eachDo ((List.range 12).filter fun n => n != 0 && s.enableObj n) (fun n s => s.startSub n) s

/-! ## The drain (R469) -/

/-- What a drain carries. -/
inductive Work where
  | wqes | colls | reducing | casts
  deriving DecidableEq, Repr

def drainWork : Busy → List Work
  | .drainOperate => [.wqes, .colls, .casts]
  | .drainEnable 2 => [.wqes]
  | .drainEnable 3 => [.wqes]
  | .drainEnable 7 => [.colls]
  | .drainEnable 8 => [.reducing]
  | .drainEnable 9 => [.casts]
  | _ => []

/-- A send-ring entry before its commit point (Table 05-10). -/
def Wqe.uncommitted (w : Wqe) : Bool := w.coll.isNone && !w.internal && (w.st == .frags || w.st == .queued)

/-- A send-ring entry that is consumed and not ended, but for a collective's. -/
def Wqe.unfinished (w : Wqe) : Bool := w.coll.isNone && !w.internal && !w.ended

/-- Entries of QP `q` before their commit point end ABORTED; the QP keeps its state. -/
def State.abortUncommitted (s : State) (q : Nat) : State :=
  let go (w : Wqe) : Wqe := if w.uncommitted then w.end 0x08 else w
  (s.updQp q fun x => { x with wqes := x.wqes.map go }).report q

/-- The collectives that a drain ends. -/
def State.drainColls (s : State) (reducing : Bool) : List (Nat × Comm × Coll) :=
  s.inFlight.filter fun t => !reducing || kindReduces t.2.2.kind

def State.beginWork (s : State) : Work → State
  | .wqes => eachDo (tkeys s.wq.qps) (fun q s => s.abortUncommitted q) s
  | .colls => eachDo ((s.drainColls false).filter fun t => !t.2.2.committed) (fun t s => s.drainColl t.1 t.2.2.k) s
  | .reducing => eachDo ((s.drainColls true).filter fun t => !t.2.2.committed) (fun t s => s.drainColl t.1 t.2.2.k) s
  | .casts => s

/-- Shard transfers under way. -/
def State.xfers (s : State) : List Nat := (s.colls.shards.filter fun p => p.2.xfer.isSome).map Prod.fst

def State.workLeft (s : State) : Work → Bool
  | .wqes => s.wq.qps.any fun p => p.2.st == .rts && p.2.wqes.any Wqe.unfinished
  | .colls => !(s.drainColls false).isEmpty
  | .reducing => !(s.drainColls true).isEmpty
  | .casts => s.mem.cast.isSome || !s.xfers.isEmpty

/-- A transfer that is ended: how far it came is not stated, nor which bytes it brought. -/
def State.endXfer (s : State) (k : Nat) : State :=
  match tget s.colls.shards k with
  | none => s
  | some h => match h.xfer with
    | none => s
    | some x =>
      let n := s.nextFree % (x.2.2.2.2.1 + 1)
      let bytes := (List.range (n * streamElem (h.fmt x.2.1))).map (Config.outsideByte (s.freeCount + 1))
      let s := s.useFree.useFree
      s.xferDone (k / 65536) (k % 65536) 1 n bytes

/-- At the time limit, what is left is ended. -/
def State.endWork (s : State) : Work → State
  | .wqes => eachDo ((s.wq.qps.filter fun p => p.2.st == .rts && p.2.wqes.any Wqe.unfinished).map Prod.fst)
      (fun q s => s.qpError q 0x82) s
  | .colls => eachDo (s.drainColls false) (fun t s => s.drainColl t.1 t.2.2.k) s
  | .reducing => eachDo (s.drainColls true) (fun t s => s.drainColl t.1 t.2.2.k) s
  | .casts => eachDo s.xfers (fun k s => s.endXfer k) (s.failCast 10)

def State.beginDrain (s : State) (b : Busy) : State := eachDo (drainWork b) (fun w s => s.beginWork w) s

def State.forceDrain (s : State) (b : Busy) : State := eachDo (drainWork b) (fun w s => s.endWork w) s

def State.drained (s : State) (b : Busy) : Bool := !(drainWork b).any fun w => s.workLeft w

/-! ## Stopping -/

/-- N0-N3 stop: what waits for them is dropped. -/
def State.stopPorts (s : State) : State :=
  let links := (List.range 6).map fun l => if l < 4 then LinkSt.idle else s.link l
  { s with
    fabric := { s.fabric with links := links }
    traffic := { s.traffic with egress := s.traffic.egress.filter fun p => decide (32 ≤ p.1) }
    wq := { s.wq with outbox := [] } }

def State.stopGraft (s : State) : State :=
  let links := (List.range 6).map fun l => if 4 ≤ l then LinkSt.idle else s.link l
  { s.unpair with fabric := { s.fabric with links := links } }

def State.stopSub (s : State) (n : Nat) : State :=
  match n with
  | 5 => s.stopPorts
  | 11 => s.stopGraft
  | _ => s

/-- OPERATIONAL to CONFIG, after the drain. -/
def State.stopModule (s : State) : State := { s.unpair.idleLinks with mode := .config }

/-- HOLD to CONFIG: every object of every function goes in silence, and memory is initialised (R263, Table 11-4). -/
def State.leaveHold (s : State) : State :=
  let s := eachDo (List.range 1025) (fun f s => s.wipeObjects f) s
  let s := { s.unpair.idleLinks with mode := .config, host := { s.host with entering := none } }
  let s := { s with mem := { s.mem with asleep := [] } }
  (s.setObjBit Row.memStatus 6 false).initFromHold.followLayout

/-! ## Soft resets (Table 19-3) -/

/-- Values of the objects from index `lo` to `hi` (as index * 256 + subindex) go back to their defaults. -/
def State.clearRange (s : State) (lo hi : Nat) : State :=
  { s with od := s.od.filter fun p => decide (p.1 < lo) || decide (hi < p.1) }

/-- The same subindexes of every instance of a family. -/
def State.clearFamily (s : State) (base count lo hi : Nat) : State :=
  eachDo (List.range count) (fun i s => s.clearRange ((base + i) * 256 + lo) ((base + i) * 256 + hi)) s

def Ring.quiet (r : Ring) : Ring := { r with armed := false, pollRun := false, reread := none }

/-- Polling arms and re-read procedures go. -/
def State.quietRings (s : State) : State := eachDo s.allRings (fun id s => s.updRing id Ring.quiet) s

/-- Every QP not in RESET goes to ERROR; its entries complete later. -/
def State.errorAll (s : State) : State :=
  eachDo (s.wq.qps.filter fun p => p.2.st != .reset && p.2.st != .error && !p.2.lost) (fun p s =>
    let s := s.updQp p.1 fun x => { x with
      st := .error, req := { x.req with resend := [], rnrFrom := none, parkFrom := none }, resp := { x.resp with heldReqs := [] } }
    let s := { s with wq := { s.wq with erring := s.wq.erring ++ [(p.1, 0x81)] } }
    s.raiseTo p.2.func 0x0301 (s.local totalQps p.1) 0x81) s

/-- The hot tier is written back and emptied, and the cold frame dropped. -/
def State.emptyContexts (s : State) : State :=
  let s := s.bump Row.parkDrop s.ctx.parked.length
  let s := { s with ctx := { s.ctx with parked := [], fetching := [], fetchWait := [], slotWait := [], regions := [] } }
  eachDo (s.wq.qps.filter fun p => p.2.tier == .hot) (fun p s => s.evict p.1 p.2) s

/-- R242. -/
def State.resetFabric (s : State) : State :=
  let s := { s.stopPorts with fabric := { s.stopPorts.fabric with pairDead := [], laneRuns := [] } }
  let s := s.setBlob Row.pairLive []
  s.startRouting

/-- Grant entries and the grant engine's state of a QP (R216). -/
def Qp.noGrants (x : Qp) : Qp :=
  { x with
    req := { x.req with credits := [], balance := min 0 x.req.balance }
    resp := { x.resp with needMax := 0, granted := 0, arrived := 0, recent := [], grantOut := 0 } }

def State.resetTraffic (s : State) : State :=
  let s := s.fillBuckets
  let flat (e : EgressVc) : EgressVc := { e with deficit := 0 }
  { s with
    traffic := { s.traffic with egress := s.traffic.egress.map fun p => (p.1, flat p.2) }
    wq := { s.wq with qps := s.wq.qps.map fun p => (p.1, Qp.noGrants p.2) } }

/-- Every collective ends in silence and every communicator is BROKEN. -/
def State.resetColls (s : State) : State :=
  let s := eachDo (tkeys s.colls.comms) (fun c s => (s.silenceComm c).updComm c fun x => { x with broken := true }) s
  { s with colls := { s.colls with images := [] } }

def State.softReset (s : State) (n : Nat) : State :=
  match n with
  | 1 => ({ s.accPulse with cache := [] }).clearFamily 0x3200 8 0x11 0x14
  | 2 => s.quietRings.clearRange 0xA20001 0xA20008
  | 3 => s.errorAll.clearRange 0xA30001 0xA301FF
  | 4 =>
    let dropped := s.emptyContexts.obj Row.parkDrop
    (s.emptyContexts.clearRange 0xA40001 0xA400FF).setObj Row.parkDrop dropped
  | 5 => s.resetFabric.clearFamily 0x3000 4 0x11 0x3F
  | 6 => (s.resetTraffic.clearRange 0xA50001 0xA500FF).histClear
  | 7 => s.resetColls.clearRange 0xA70001 0xA700FF
  | 8 => ({ s.clearRange 0xA80001 0xA800FF with
      od := (s.clearRange 0xA80001 0xA800FF).od.filter fun p => !Row.rauGroups.covers (p.1 / 256) (p.1 % 256) })
  | 9 => s.clearRange 0xA60001 0xA60004
  | 10 => s.clearRange 0xAD0001 0xAD00FF
  | 11 => s.graftSoftReset.clearRange 0xAB0001 0xAB00FF
  | _ => s

end Sys2Proof.Machine
end

