-- ==== Sys2Proof/Machine/Blocks.lean ====
section
/-! DEFINITION. The blocks of a CTRL_CMD write: their codes, their bytes, and the command each of them runs (R140, Tables
06-2 to 06-6, 12-2, 13-9, 14-1, 14-3, 17-4). -/

namespace Sys2Proof.Machine

/-! ## The commands of CTRL_CMD -/

/-- Command code and common bytes of a block; none for what is no block. -/
def blockOf : Instr → Option (Nat × CtrlHdr)
  | .createEq c _ => some (0x01, c)
  | .createCq c _ => some (0x02, c)
  | .createSrq c _ => some (0x03, c)
  | .createQp c _ => some (0x04, c)
  | .modifyQp c _ => some (0x05, c)
  | .regRegion c _ => some (0x06, c)
  | .createComm c _ => some (0x07, c)
  | .queryQp c => some (0x08, c)
  | .loadSchedule c _ => some (0x09, c)
  | .arithBind c _ => some (0x0A, c)
  | .loadKernel c _ => some (0x0B, c)
  | .defineShard c _ => some (0x0C, c)
  | .shardXfer c _ => some (0x0D, c)
  | .freezeFunc c => some (0x0E, c)
  | .saveFunc c _ _ => some (0x0F, c)
  | .restoreFunc c _ _ _ => some (0x10, c)
  | .destroyEq c => some (0x11, c)
  | .destroyCq c => some (0x12, c)
  | .destroySrq c => some (0x13, c)
  | .destroyQp c => some (0x14, c)
  | .resetCq c => some (0x15, c)
  | .deregRegion c => some (0x16, c)
  | .destroyComm c => some (0x17, c)
  | .unloadSchedule c => some (0x19, c)
  | .arithUnbind c => some (0x1A, c)
  | .unloadKernel c => some (0x1B, c)
  | .removeShard c => some (0x1C, c)
  | .forwardFunc c _ => some (0x1D, c)
  | .thawFunc c => some (0x1E, c)
  | _ => none

/-- What a block does. A code outside the tables is BAD_COMMAND. -/
def State.runBlock (s : State) : Instr → Ctl
  | .createEq c f => s.createEq c f
  | .createCq c f => s.createCq c f
  | .createSrq c f => s.createSrq c f
  | .createQp c f => s.createQp c f
  | .modifyQp c f => s.modifyQp c f
  | .regRegion c f => s.regRegion c f
  | .createComm c f => s.createComm c f
  | .queryQp c => s.queryQp c
  | .loadSchedule c f => s.loadSchedule c f
  | .arithBind c f => s.arithBind c f
  | .loadKernel c f => s.loadKernel c f
  | .defineShard c f => s.defineShard c f
  | .shardXfer c f => s.shardXfer c f
  | .freezeFunc c => s.freezeFunc c
  | .saveFunc c f n => s.saveFunc c f n
  | .restoreFunc c f a img => s.restoreFunc c f a img
  | .destroyEq c => s.destroyEq c
  | .destroyCq c => s.destroyCq c
  | .destroySrq c => s.destroySrq c
  | .destroyQp c => s.destroyQp c
  | .resetCq c => s.resetCq c
  | .deregRegion c => s.deregRegion c
  | .destroyComm c => s.destroyComm c
  | .unloadSchedule c => s.unloadSchedule c
  | .arithUnbind c => s.arithUnbind c
  | .unloadKernel c => s.unloadKernel c
  | .removeShard c => s.removeShard c
  | .forwardFunc c t => s.forwardFunc c t
  | .thawFunc c => s.thawFunc c
  | _ => s.ctlNo 1

/-- The number of a block's own NUMBER field, and its echo of CMD; a block of an unknown code is kept as a write of its bytes. -/
def blockEcho : Instr → Nat × Nat
  | .write _ _ _ _ data => (leField data 0 1, leField data 4 4)
  | i => match blockOf i with
    | some (code, c) => (code, c.number.toNat)
    | none => (0, 0)

/-- A 16 B result (Table 06-6). -/
def resultBytes (i : Instr) (code : Nat) (value : Option Nat) (extra : Nat) : List Byte :=
  leBytes 1 (blockEcho i).1 ++ leBytes 1 code ++ leBytes 2 0 ++ leBytes 4 (value.getD (blockEcho i).2) ++ leBytes 8 extra

/-- MODIFY_QP to RESET: the QP whose ERROR flush the command waits for. -/
def State.resetOf (s : State) : Instr → Option Nat
  | .modifyQp c f => if f.newState = 0 then some (CtrlHdr.gnum s c totalQps) else none
  | _ => none

/-! ## Blocks as bytes -/

/-- Every byte outside the named ranges (first byte and length) is zero. -/
def zeroOutside (b : List Byte) (named : List (Nat × Nat)) : Bool :=
  (List.range 64).all fun k =>
    (named.any fun r => decide (r.1 ≤ k) && decide (k < r.1 + r.2)) || leField b k 1 == 0

def outsideWords (use n : Nat) : List (BitVec 64) := (List.range n).map fun k => BitVec.ofNat 64 (leNat ((List.range 8).map fun j => Config.outsideByte use (8 * k + j)))

def ringFieldsAt (b : List Byte) (base log2 cqn : Nat) : RingFields :=
  ⟨BitVec.ofNat 64 (leField b base 8), BitVec.ofNat 8 (leField b log2 1), BitVec.ofNat 8 (leField b (log2 + 1) 1),
    BitVec.ofNat 16 (leField b (log2 + 2) 2), BitVec.ofNat 32 (leField b cqn 4)⟩

/-- Named ranges of a command's fields (Table 06-3 and its like), none for an unknown code. -/
def namedFields (code : Nat) : Option (List (Nat × Nat)) :=
  match code with
  | 0x01 => some [(8, 12)]
  | 0x02 => some [(8, 13)]
  | 0x03 => some [(8, 12)]
  | 0x04 => some [(8, 2), (12, 36)]
  | 0x05 => some [(8, 1), (10, 24), (36, 5)]
  | 0x06 => some [(8, 19), (28, 16)]
  | 0x07 => some [(8, 6), (16, 8), (28, 32)]
  | 0x09 => some [(8, 12), (24, 8)]
  | 0x0A => some [(8, 49)]
  | 0x0B => some [(8, 12), (24, 8)]
  | 0x0C => some [(8, 45)]
  | 0x0D => some [(8, 3), (16, 24)]
  | 0x0F => some [(8, 18)]
  | 0x10 => some [(8, 18), (28, 4)]
  | 0x1D => some [(28, 4)]
  | 0x08 | 0x0E | 0x11 | 0x12 | 0x13 | 0x14 | 0x15 | 0x16 | 0x17 | 0x19 | 0x1A | 0x1B | 0x1C | 0x1E => some []
  | _ => none

/-- The command of a 64 B block. What it reads outside the module takes free values under `use` (a VF image cannot be spelt so:
its read fails); a block of an unknown code stays a write. -/
def parseBlock (c : CtrlHdr) (b : List Byte) (use : Nat) : Instr :=
  let w8 (k : Nat) : Byte := BitVec.ofNat 8 (leField b k 1)
  let w16 (k : Nat) : BitVec 16 := BitVec.ofNat 16 (leField b k 2)
  let w32 (k : Nat) : BitVec 32 := BitVec.ofNat 32 (leField b k 4)
  let w64 (k : Nat) : BitVec 64 := BitVec.ofNat 64 (leField b k 8)
  let image : ImageFields := ⟨w64 8, w32 16, w64 24, some (outsideBytes use (leField b 16 4)), Config.freeValue use % 2 == 1⟩
  match leField b 0 1 with
  | 0x01 => .createEq c ⟨w64 8, w8 16, w8 17, w16 18⟩
  | 0x02 => .createCq c ⟨w64 8, w8 16, w8 17, w16 18, w8 20⟩
  | 0x03 => .createSrq c ⟨w64 8, w8 16, w8 17, w16 18⟩
  | 0x04 => .createQp c ⟨w8 8, w8 9, w32 12, ringFieldsAt b 16 24 28, ringFieldsAt b 32 40 44⟩
  | 0x05 => .modifyQp c ⟨w8 8, w16 10, w32 12, w32 16, w32 20, w32 24, w8 28, w8 29, w8 30, w8 31, w16 32, w32 36, w8 40⟩
  | 0x06 => .regRegion c ⟨w64 8, w64 16, w8 24, w8 25, w8 26, w32 28, w64 32, w32 40, some (outsideWords use (leField b 40 4))⟩
  | 0x07 => .createComm c ⟨w32 8, w16 12, w32 16, w32 20, w64 28, w64 36, [w16 44, w16 46, w16 48, w16 50], w32 52, w32 56,
      some (outsideWords use (leField b 8 4))⟩
  | 0x08 => .queryQp c
  | 0x09 => .loadSchedule c image
  | 0x0A => .arithBind c ⟨w64 8, w64 16, [w64 24, w64 32, w64 40], w64 48, w8 56, Config.freeValue use % 2 == 1⟩
  | 0x0B => .loadKernel c image
  | 0x0C => .defineShard c ⟨w64 8, w64 16, w64 24, w64 32, w64 40, w8 48, w8 49, w8 50, w8 51, w8 52, Config.freeValue use % 2 == 1⟩
  | 0x0D => .shardXfer c ⟨w8 8, w8 9, w8 10, w64 16, w64 24, w64 32⟩
  | 0x0E => .freezeFunc c
  | 0x0F => .saveFunc c ⟨w64 8, w64 16, w16 24⟩ (Config.freeValue use)
  | 0x10 => .restoreFunc c ⟨w64 8, w64 16, w16 24⟩ (w32 28) none
  | 0x11 => .destroyEq c
  | 0x12 => .destroyCq c
  | 0x13 => .destroySrq c
  | 0x14 => .destroyQp c
  | 0x15 => .resetCq c
  | 0x16 => .deregRegion c
  | 0x17 => .destroyComm c
  | 0x19 => .unloadSchedule c
  | 0x1A => .arithUnbind c
  | 0x1B => .unloadKernel c
  | 0x1C => .removeShard c
  | 0x1D => .forwardFunc c (w32 28)
  | 0x1E => .thawFunc c
  | _ => .write c.hdr 0x4000 1 0 b

/-- The common bytes of block `k` of `n`. Whether the partner's objects admit the command is not in the block: a free value. -/
def parseHdr (h : ReqHdr) (k n : Nat) (b : List Byte) (use : Nat) : CtrlHdr :=
  ⟨h, Fin.ofNat 16 k, k + 1 == n, BitVec.ofNat 16 (leField b 2 2), BitVec.ofNat 32 (leField b 4 4),
    zeroOutside b ([(0, 1), (2, 6)] ++ (namedFields (leField b 0 1)).getD []), Config.freeValue use % 2 == 1⟩

/-- The blocks of a plain write of CTRL_CMD, two free values a block. -/
def parseBlocks (h : ReqHdr) (data : List Byte) (use : Nat) : List Instr :=
  let n := data.length / 64
  (List.range n).map fun k =>
    let b := slice data (64 * k) 64
    parseBlock (parseHdr h k n b (use + 2 * k)) b (use + 2 * k + 1)

end Sys2Proof.Machine
end

