-- ==== Sys2Proof/Machine/Request.lean ====
section
/-! DEFINITION. A dictionary request as bytes, and the rules it is checked against before it has an effect, in the order of
R467 (R51-R60, R72, R78, R404, R425, R438, R440, and the value ranges of every chapter's object table). -/

namespace Sys2Proof

/-- A fault in the message itself. -/
def Req.malformed (r : Req) : Bool :=
  r.hdr.vendor != 0x32E41 || r.hdr.version != 1 || r.hdr.status != 0 || r.hdr.reserved != 0 || !r.hdr.integrityOk ||
    decide (1024 < r.length.toNat) || decide (1024 < r.data.length) ||
    r.hdr.badCommand.isSome ||
    (match r.cmd with
     | .store => r.index != 0 || r.sub != 0 || r.offset != 0 || r.length != 0
     | .defaults => r.index != 0 || r.sub != 0 || r.offset != 0 || r.length != 0
     | _ => false)

/-- The command names an object that has to exist. -/
def DictCmd.names : DictCmd → Bool
  | .read => true
  | .write => true
  | .describe => true
  | _ => false

/-- Index and subindex as one number. -/
def Req.key (r : Req) : Nat := r.index.toNat * 256 + r.sub.toNat

end Sys2Proof

namespace Sys2Proof.Machine

/-! ## The request of a command -/

/-- Bytes of a CAST_CMD write (Table 11-6); a non-zero reserved byte stands at byte 2. -/
def castBytes (op : Nat) (f : CastFields) : List Byte :=
  leBytes 1 op ++ [f.slot, if f.reservedZero then 0 else 1, 0] ++ leBytes 4 f.dest.toNat ++ leBytes 8 f.step.toNat ++ leBytes 16 0

/-- Bytes of a KEY_CMD write (Table 18-3); a non-zero reserved byte stands at byte 5. -/
def keyBytes (op : Nat) (f : KeyFields) : List Byte :=
  leBytes 2 f.slot.toNat ++ leBytes 1 op ++ [f.usage, f.keyGen, if f.reservedZero then 0 else 1, 0, 0] ++
    slice f.wrapped 0 40 ++ leBytes 16 0

/-- Bytes of a PATTERN_IMPORT entry (Table 15-7); a CRC that fails is told by another CRC. -/
def patternBytes (p : PatternIn) : List Byte :=
  let b := (patInEntry p).bytes
  if p.crcOk then b else b.take 60 ++ leBytes 4 ((leField b 60 4 + 1) % 2 ^ 32)

def writeReq (h : ReqHdr) (index sub off : Nat) (data : List Byte) : Req :=
  ⟨h, .write, BitVec.ofNat 16 index, BitVec.ofNat 8 sub, BitVec.ofNat 32 off, BitVec.ofNat 16 data.length, data⟩

/-- The request a dictionary command carries; none for a block of CTRL_CMD and for what is no request. -/
def reqOf : Instr → Option Req
  | .read h i k off n => some ⟨h, .read, i, k, off, n, []⟩
  | .write h i k off data => some ⟨h, .write, i, k, off, BitVec.ofNat 16 data.length, data⟩
  | .describe h i n => some ⟨h, .describe, i, n.sub, 0, n.length, []⟩
  | .next h i n => some ⟨h, .next, i, n.sub, 0, n.length, []⟩
  | .store h i k off n => some ⟨h, .store, i, k, off, n, []⟩
  | .defaults h i k off n => some ⟨h, .defaults, i, k, off, n, []⟩
  | .operateWrite1 h => some (writeReq h 0x2000 1 0 [1])
  | .operateWrite0 h => some (writeReq h 0x2000 1 0 [0])
  | .holdToConfig h => some (writeReq h 0x2000 1 0 [0])
  | .operateWriteSafe h v => some (writeReq h 0x2000 1 0 [v])
  | .enableWrite1 h n => some (writeReq h (0x2011 + n.val) 1 0 [1])
  | .enableWrite0 h n => some (writeReq h (0x2011 + n.val) 1 0 [0])
  | .softReset h n => some (writeReq h (0x2011 + n.val) 3 0 [1])
  | .moduleReset h v => some (writeReq h 0x2500 4 0 [v])
  | .reasonRead h => some ⟨h, .read, 0x2000, 2, 0, 4, []⟩
  | .histClear h v => some (writeReq h 0x7000 9 0 [v])
  | .routingModeWrite h v => some (writeReq h 0x7600 4 0 [v])
  | .partitionWrite h k v => some (writeReq h 0x6000 k.toNat 0 (leBytes (if k = 6 then 1 else 2) v.toNat))
  | .take h f => some (writeReq h 0x6001 1 0 (castBytes 1 f))
  | .restore h f => some (writeReq h 0x6001 1 0 (castBytes 2 f))
  | .discard h f => some (writeReq h 0x6001 1 0 (castBytes 3 f))
  | .patternImport h es => some (writeReq h 0x9002 3 0 (es.flatMap patternBytes))
  | .recordSelect h id => some (writeReq h 0x9001 3 0 (leBytes 4 id.toNat))
  | .msgToPfWrite h off data => some (writeReq h 0xC001 1 off.toNat data)
  | .msgToPfRead h off n => some ⟨h, .read, 0xC001, 1, off, n, []⟩
  | .msgFromPfWrite h off data => some (writeReq h 0xC001 3 off.toNat data)
  | .keyLoad h f => some (writeReq h 0x8002 1 0 (keyBytes 1 f))
  | .keyClear h f => some (writeReq h 0x8002 1 0 (keyBytes 2 f))
  | .svnCommit h v => some (writeReq h 0x8000 3 0 [v])
  | .ownerRootWrite h v _ _ => some (writeReq h 0x8001 2 0 v)
  | .fwCommit h v _ => some (writeReq h 0x2500 2 0 [v])
  | _ => none

/-- A request as a command of its own bytes. -/
def Instr.ofReq (r : Req) : Instr :=
  match r.cmd with
  | .read => .read r.hdr r.index r.sub r.offset r.length
  | .write => .write r.hdr r.index r.sub r.offset r.data
  | .describe => .describe r.hdr r.index ⟨r.sub, r.length⟩
  | .next => .next r.hdr r.index ⟨r.sub, r.length⟩
  | .store => .store r.hdr r.index r.sub r.offset r.length
  | .defaults => .defaults r.hdr r.index r.sub r.offset r.length

/-- A block without what reaches the module from outside the request. -/
def blockBytesOnly : Instr → Instr
  | .regRegion c f => .regRegion { c with twinAgrees := false } { f with pages := none }
  | .createComm c f => .createComm c { f with table := none }
  | .loadSchedule c f => .loadSchedule c { f with image := none, stepsOk := false }
  | .loadKernel c f => .loadKernel c { f with image := none, stepsOk := false }
  | .saveFunc c f _ => .saveFunc c f 0
  | .restoreFunc c f a _ => .restoreFunc c f a none
  | .createCq c f => .createCq { c with twinAgrees := false } f
  | .createSrq c f => .createSrq { c with twinAgrees := false } f
  | .createQp c f => .createQp { c with twinAgrees := false } f
  | .modifyQp c f => .modifyQp { c with twinAgrees := false } f
  | .destroyCq c => .destroyCq { c with twinAgrees := false }
  | .destroySrq c => .destroySrq { c with twinAgrees := false }
  | .destroyQp c => .destroyQp { c with twinAgrees := false }
  | .deregRegion c => .deregRegion { c with twinAgrees := false }
  | i => i

/-- A request by its bytes, for the comparison of R62: a CTRL_CMD write by its blocks, any other by its message. -/
def requestBytes (is : List Instr) : List Instr :=
  match is with
  | [i] => match reqOf i with
    | some r => if r.cmd == .write && r.index == 0x4000 && r.sub == 1 && r.data.length % 64 == 0 && r.offset == 0
        then (parseBlocks r.hdr r.data 0).map blockBytesOnly
        else [Instr.ofReq r]
    | none => [blockBytesOnly i]
  | is => is.map blockBytesOnly

/-- The header of a request. -/
def headerOf (is : List Instr) : Option ReqHdr :=
  match is with
  | [] => none
  | i :: _ => match reqOf i with
    | some r => some r.hdr
    | none => (blockOf i).map fun b => b.2.hdr

/-- The request that a CTRL_CMD write of these blocks is, with no regard to the blocks' bytes. -/
def ctrlReq (h : ReqHdr) (n : Nat) : Req := writeReq h 0x4000 1 0 (List.replicate (64 * n) 0)

/-- The whole request of a list of commands. -/
def requestOf (is : List Instr) : Option Req :=
  match is with
  | [] => none
  | i :: _ => match reqOf i with
    | some r => some r
    | none => (blockOf i).map fun b => ctrlReq b.2.hdr is.length

/-! ## Transports (Table 03-3) -/

/-- Bit of a request's class in a privilege mask: M 1, P 2, V 4, F 8. -/
def viaBit : Via → Nat
  | .i3c _ => 1
  | .vdm _ => 2
  | .pfMailbox => 2
  | .vfMailbox _ => 4
  | .qp0 _ _ => 8

/-- Transports that count waiting requests together (R61); the PF's object-access mailbox holds four of its own
(notes/assumptions/60). -/
def sameTransport : Via → Via → Bool
  | .i3c _, .i3c _ => true
  | .vdm _, .vdm _ => true
  | .pfMailbox, .pfMailbox => true
  | .vfMailbox a, .vfMailbox b => a == b
  | .qp0 _ _, .qp0 _ _ => true
  | _, _ => false

/-- Requests a transport holds waiting (R61). -/
def waitingRoom : Via → Nat
  | .vfMailbox _ => 1
  | _ => 4

/-- The boot ROM serves the dictionary (R425). -/
def State.bootServed (s : State) : Bool := s.alive && !s.firmwareServes

/-- A request arriving on a transport is answered: the boot ROM serves I3C and PCIe VDM only, and a VF's mailbox is that of an
enabled VF. -/
def State.listens (s : State) (v : Via) : Bool :=
  s.alive && match v with
    | .i3c _ => true
    | .vdm _ => true
    | .pfMailbox => s.firmwareServes
    | .vfMailbox f => s.firmwareServes && f != 0 && s.functionLive f
    | .qp0 _ _ => s.firmwareServes

/-! ## Checks 1 to 5 of R467 -/

/-- The function whose window a request reaches (R58): a VF's own, or the enabled VF that FUNC names. -/
def State.windowOf (s : State) (r : Req) : Option Nat :=
  match r.hdr.via with
  | .vfMailbox f => some f
  | _ => if r.hdr.func != 0 && r.hdr.func != 0xFFFF && s.functionLive r.hdr.func.toNat then some r.hdr.func.toNat else none

/-- Writes that SAFE accepts, from class M only (R440). -/
def recoveryObject (n : Nat) : Bool := n == 0x250001 || n == 0x250002 || n == 0x250004 || n == 0x250101

/-- Step 4: the module state, or a state an object's chapter names, does not permit the request. -/
def State.wrongState (s : State) (r : Req) : Bool :=
  match r.cmd with
  | .store => s.mode != .config && s.mode != .operational
  | .defaults => s.mode != .config
  | .write =>
    let n := r.key
    if n = 0x200001 then s.mode == .config && s.mem.initActive && leNat r.data == 1 && r.data.length == 1
    else if s.mode == .safe then
      !(recoveryObject n && viaBit r.hdr.via == 1) || (n == 0x250002 && s.obj Row.fwCommitStatus % 256 == 2)
    else if n = 0x250002 then s.mode != .config || s.obj Row.fwCommitStatus % 256 == 2
    else false
  | _ => false

/-- R59: the source of a QP 0 request matches a valid entry of FM_ALLOW. -/
def State.fmAllowed (s : State) (m : ModAddr) : Bool :=
  (List.range 4).any fun k =>
    let e := s.obj Row.fmAllow 0 k
    e.testBit 31 && e % 2 ^ 20 == m.toNat

/-- Step 5: the class of the request does not reach the object. -/
def State.unprivileged (s : State) (r : Req) (mask : Nat) : Bool :=
  let v := r.hdr.via
  (mask &&& viaBit v) == 0 ||
    (match v with
     | .vfMailbox _ => !isWindow r.index.toNat
     | .qp0 m _ => !s.fmAllowed m
     | _ => false)

/-! ## Checks 6 to 8 -/

/-- Step 6: an object that requires an authorised session (R404). -/
def State.sessionMissing (s : State) (r : Req) (lyandez : Bool) : Bool :=
  r.cmd == .write &&
    (match r.key with
     | 0x800201 => !s.authorised r.hdr
     | 0x800003 => !s.authorised r.hdr
     | 0x800102 => !s.ownerAllowed r.hdr lyandez
     | _ => false)

/-- Step 7: the access right, the selected up*/down* bank, and the sides of the VF mailboxes. -/
def State.accessDenied (s : State) (r : Req) (o : ObjRow) : Bool :=
  match r.cmd with
  | .read => o.access == .wo
  | .write =>
    o.access == .ro || o.persist == .f ||
      (match r.key with
       | 0x760007 => s.obj Row.udBank == 0
       | 0x760008 => s.obj Row.udBank == 1
       | 0xC00101 => viaBit r.hdr.via != 4
       | 0xC00103 => viaBit r.hdr.via == 4
       | _ => false)
  | _ => false

/-- The owning enable counts as 1 (R50). -/
def State.ownerOn (s : State) : Owner → Bool
  | .none => false
  | .operate => s.operate
  | .sub n => s.enabled n

/-- Step 8: an RWD object whose owner is on, and a soft reset of a subsystem that is enabled (R72). -/
def State.mustDisable (s : State) (r : Req) (o : ObjRow) (i : Nat) : Bool :=
  r.cmd == .write &&
    ((o.access == .rwd && s.ownerOn o.owner) ||
      (o.index * 256 + o.sub == Row.softReset.index * 256 + Row.softReset.sub && r.data == [1] &&
        (decide (11 ≤ i) || s.enabled (i + 1))))

/-! ## Checks 9 and 10 -/

/-- Present size in bytes of an object. -/
def State.sizeOf_ (s : State) (o : ObjRow) (i k : Nat) : Nat := (s.content o i k).length

/-- Step 9 (R57): TYPE 2, OFFSET 0x0B, or none. -/
def State.shapeFault (s : State) (r : Req) (o : ObjRow) (i k : Nat) : Option Nat :=
  let off := r.offset.toNat
  let n := r.data.length
  match r.cmd with
  | .write =>
    match o.ty with
    | .bytes m =>
      if r.key = 0x400001 then (if off != 0 || n == 0 || n % 64 != 0 || decide (1024 < n) then some 2 else none)
      else if m < off + n then some 2 else none
    | .string => if 255 < n then some 2 else if off != 0 then some 0x0B else none
    | .domain m => if m < off + n then some 2 else if off != 0 && off != s.sizeOf_ o i k then some 0x0B else none
    | t => if off != 0 || n != t.size then some 2 else none
  | .read =>
    if o.ty.segmented then (if s.sizeOf_ o i k < off then some 0x0B else none)
    else if off != 0 || decide (r.length.toNat < o.ty.size) then some 2 else none
  | _ => none

/-- Well-formed UTF-8, as a count of continuation bytes still due with the range of the next one. -/
def utf8From : List Byte → Nat → Nat → Nat → Bool
  | [], due, _, _ => due == 0
  | b :: bs, due, lo, hi =>
    let n := b.toNat
    if due = 0 then
      if n < 0x80 then utf8From bs 0 0x80 0xBF
      else if 0xC2 ≤ n && n ≤ 0xDF then utf8From bs 1 0x80 0xBF
      else if n = 0xE0 then utf8From bs 2 0xA0 0xBF
      else if n = 0xED then utf8From bs 2 0x80 0x9F
      else if 0xE1 ≤ n && n ≤ 0xEF then utf8From bs 2 0x80 0xBF
      else if n = 0xF0 then utf8From bs 3 0x90 0xBF
      else if 0xF1 ≤ n && n ≤ 0xF3 then utf8From bs 3 0x80 0xBF
      else if n = 0xF4 then utf8From bs 3 0x80 0x8F
      else false
    else if lo ≤ n && n ≤ hi then utf8From bs (due - 1) 0x80 0xBF
    else false

def utf8Ok (bs : List Byte) : Bool := utf8From bs 0 0x80 0xBF

/-- Inclusive ranges of numeric objects, with a step the value is a multiple of: key of the row, least, greatest, step. Objects
whose range Table 03-13 checks are stored as written and are not listed. -/
def valueRanges : List (Nat × Nat × Nat × Nat) :=
  [(0x210001, 0, 2, 1), (0x210002, 2, 10, 1), (0x320001, 0, 3, 1), (0x320005, 1, 1000, 1), (0x400201, 10, 10000, 1),
    (0x400202, 1, 1000, 1), (0x400203, 10, 10000, 1), (0x400204, 1, 400, 1), (0x400205, 1, 40, 1), (0x400206, 1, 64, 1),
    (0x400207, 1, 255, 1), (0x410001, 64, 524288, 1), (0x410002, 128, 1048576, 1), (0x410006, 1, 1000, 1), (0x410007, 1, 65535, 1)] ++
  [(0x700001, 0, 1048576, 4096), (0x700002, 1, 100, 1), (0x700003, 65536, 67108864, 4096), (0x700004, 1, 65535, 1),
    (0x700005, 0, 1000, 1), (0x700006, 1, 10000, 1), (0x300040, 0, 3, 1), (0x300001, 0, 4, 1), (0x300002, 0, 4094, 1),
    (0x760002, 1, 1048576, 1), (0x760003, 1, 1048576, 1), (0x760004, 0, 2, 1), (0x760006, 0, 1, 1), (0x76000B, 50, 100000, 1),
    (0x76000C, 1, 3600, 1), (0x500003, 1, 600000, 1), (0x500004, 10, 600000, 1), (0x510001, 1, 7, 1)] ++
  [(0x900002, 1, 255, 1), (0x240003, 1, 65535, 1), (0x800301, 1000, 10000, 1), (0x800302, 10, 60000, 1), (0x800303, 1000, 60000, 1),
    (0x250004, 1, 2, 1), (0x250101, 0, 1, 1), (0x260008, 10, 60000, 1)]

/-- A rate or burst of R209 and R210: RATE up to 512,000, BURST from 4,160 B, and up to 16 MiB while subsystem 6 runs. -/
def State.limitFault (s : State) (n v : Nat) : Bool :=
  if n = 0x300050 || n = 0x710001 || n = 0x710009 then decide (512000 < v)
  else if n = 0x300058 || n = 0x710005 || n = 0x71000D then decide (v < 4160) || (s.enabled 6 && decide (2 ^ 24 < v))
  else false

/-- Step 10 for the numeric value `v` of row `o`, instance `i`. -/
def State.valueFault (s : State) (o : ObjRow) (i v : Nat) : Bool :=
  let n := o.index * 256 + o.sub
  (o.ty == .bool && decide (1 < v)) ||
    (valueRanges.any fun t => t.1 == n && !(decide (t.2.1 ≤ v) && decide (v ≤ t.2.2.1) && v % t.2.2.2 == 0)) ||
    s.limitFault n v ||
    (match n with
     | 0x320002 => i % 2 == 1 && v == 1
     | 0x300048 => v == 0 && s.enabled 6
     | 0x760004 => v == 1 && s.enabled 5 && !s.bankLoaded
     | 0x76000D => v != 4 && v != 6
     | 0x76000E => v % 2 ^ 20 != 0
     | 0x900001 => v != 0 && !(decide (60 ≤ v) && decide (v ≤ 86400))
     | 0x900103 => (tget s.flash.records v).isNone
     | 0x260006 => !(decide (680 ≤ i32Of v) && decide (i32Of v ≤ 824)) || decide (i32Of v - 16 < i32Of (s.obj Row.thermalCapOff))
     | 0x260007 => !(decide (560 ≤ i32Of v) && decide (i32Of v ≤ 808)) || decide (i32Of (s.obj Row.thermalCapOn) - 16 < i32Of v)
     | _ => false)

/-- Bits of a group mask for instances a family does not have (R54). -/
def maskFault (o : ObjRow) (off : Nat) (data : List Byte) : Bool :=
  match families.find? fun f => f.1 + 0xEF == o.index with
  | none => false
  | some f => decide (2 ^ f.2 ≤ leNat data * 256 ^ off)

/-- Step 10: a value outside the object's own permitted values. -/
def State.rangeFault (s : State) (r : Req) (o : ObjRow) (i k : Nat) : Bool :=
  r.cmd == .write &&
    (match o.ty with
     | .bytes _ =>
       let v := overlay (s.content o i k) r.offset.toNat r.data
       maskFault o r.offset.toNat r.data ||
         (r.key == 0x76000F && beNat v % 2 ^ 20 != 0) ||
         (r.key == 0x900203 && (r.offset != 0 || r.data.isEmpty || r.data.length % 64 != 0))
     | .string => !utf8Ok r.data
     | .domain _ => false
     | _ => s.valueFault o i (leNat r.data))

/-! ## The order of R467 -/

/-- Steps 7 to 10 for one instance. -/
def State.instanceFault (s : State) (r : Req) (o : ObjRow) (i k : Nat) : Option Nat :=
  if s.accessDenied r o then some 4
  else if s.mustDisable r o i then some 6
  else match s.shapeFault r o i k with
    | some st => some st
    | none => if s.rangeFault r o i k then some 3 else none

/-- The first status of steps 4 to 10 that applies to an object that exists; `is` are its instances. -/
def State.objectFault (s : State) (r : Req) (o : ObjRow) (is : List Nat) (k : Nat) (lyandez : Bool) : Option Nat :=
  if s.wrongState r then some 0x0F
  else if s.unprivileged r o.priv then some 5
  else if s.sessionMissing r lyandez then some 0x0E
  else is.findSome? fun i => s.instanceFault r o i k

/-- What a request comes to before it executes: a status, or the object it acts on. -/
inductive Admitted where
  | no (status : Nat)
  | object (o : ObjRow) (is : List Nat) (k : Nat) (shared : Bool)
  /-- NEXT, STORE and DEFAULTS name no object. -/
  | bare
  deriving DecidableEq, Repr

/-- R467. `lyandez` says whether the session's requester chains to the Lyandez root (R405). -/
def State.check467 (s : State) (r : Req) (lyandez : Bool) : Admitted :=
  if r.malformed then .no 0x0C
  else if !r.cmd.names then
    if s.wrongState r then .no 0x0F
    else if s.unprivileged r 15 || (viaBit r.hdr.via == 4 && r.cmd != DictCmd.next) then .no 5
    else .bare
  else if s.bootServed && !bootServes r.index.toNat r.sub.toNat then .no 0x0F
  else match s.target (s.windowOf r) r.index.toNat r.sub.toNat with
    | .absent => .no 1
    | .emptyGroup => .no 0x0A
    | .objs o is k shared =>
      match s.objectFault r o is k lyandez with
      | some st => .no st
      | none => .object o is k shared

end Sys2Proof.Machine
end

