-- ==== Sys2Proof/Machine/Service.lean ====
section
/-! DEFINITION. The management controller's request service: what an admitted request does, the order in which requests
execute, their stored responses, and what follows from every command (R55-R68, R70, R140, R147, R263, R351, R386, R400,
R404-R407, R438, R441). -/

namespace Sys2Proof.Machine

/-! ## Outcomes -/

/-- How a request ends. -/
inductive Answer where
  | now (status : Nat) (data : List Byte)
  /-- The answer waits for the end of what keeps the controller busy. -/
  | later (b : Busy)
  /-- MODULE_RESET: answered before the reset takes effect (R427). -/
  | thenReset (value : Nat)
  /-- OPERATE to 1: answered before half-ports take their written settings and retrain (R81). -/
  | thenStart
  deriving DecidableEq, Repr

structure Served where
  st : State
  ans : Answer

def State.ansOk (s : State) (data : List Byte) : Served := ⟨s, .now 0 data⟩
def State.ansNo (s : State) (status : Nat) : Served := ⟨s, .now status []⟩

/-! ## Reads (R56, R57) -/

/-- What a read of an object does besides answering: M's read of REASON releases ALERT_N (R63), and the PF's read of MSG_TO_PF
takes the message (R386). -/
def State.readEffect (s : State) (r : Req) : State :=
  if r.key = 0x200002 && viaBit r.hdr.via == 1 then { s with alert := false }
  else if r.key = 0xC00101 && viaBit r.hdr.via == 2 then match s.windowOf r with
    | some f => s.takeMessage f
    | none => s
  else s

/-- The bytes a READ returns. -/
def readBytes (r : Req) (o : ObjRow) (content : List Byte) : List Byte :=
  if o.ty.segmented then (content.drop r.offset.toNat).take r.length.toNat else content

def State.readObject (s : State) (r : Req) (o : ObjRow) (is : List Nat) (k : Nat) (shared : Bool) : Served :=
  let vs := is.map fun i => s.content o i k
  match vs with
  | [] => s.ansNo 0x0A
  | v :: rest =>
    if shared && rest.any (· != v) then s.ansNo 7
    else (s.readEffect r).ansOk (readBytes r o v)

/-! ## What a command carries from outside its bytes -/

/-- Verdicts and readings that a write of these objects brings with it. -/
structure ReqEnv where
  patterns : List PatternIn
  lyandez : Bool
  flashOk : Bool
  verdict : ImageVerdict

/-- A pattern entry read from its bytes; whether two units agree on it is a free value. -/
def patternAt (b : List Byte) (agree : Bool) : PatternIn :=
  ⟨BitVec.ofNat 8 (leField b 3 1), BitVec.ofNat 16 (leField b 4 2), BitVec.ofNat 8 (leField b 6 1), BitVec.ofNat 8 (leField b 7 1),
    BitVec.ofNat 64 (leField b 8 8), BitVec.ofNat 64 (leField b 16 8), BitVec.ofNat 64 (leField b 24 8), BitVec.ofNat 64 (leField b 32 8),
    BitVec.ofNat 32 (leField b 40 4), slice b 44 12, leField b 60 4 == crc32c (b.take 60), agree⟩

/-- A plain WRITE brings no verdicts: they are free values (notes/assumptions/50). -/
def freeEnv (use : Nat) (r : Req) : ReqEnv :=
  let bit (k : Nat) : Bool := Config.freeValue (use + k) % 2 == 1
  ⟨(List.range (r.data.length / 64)).map fun k => patternAt (slice r.data (64 * k) 64) (bit (8 + k)),
    bit 2, bit 3, ⟨bit 4, bit 5, bit 6, Config.freeValue (use + 7), BitVec.ofNat 32 (Config.freeValue use)⟩⟩

/-- The verdicts of a command. -/
def State.envOf (s : State) (i : Instr) (r : Req) : ReqEnv :=
  let e := freeEnv s.freeCount r
  match i with
  | .patternImport _ es => { e with patterns := es }
  | .ownerRootWrite _ _ chains ok => { e with lyandez := chains, flashOk := ok }
  | .fwCommit _ _ v => { e with verdict := v }
  | _ => e

/-- A plain WRITE uses its free values up. -/
def State.usedEnv (s : State) : Instr → State
  | .write _ _ _ _ _ => { s with freeCount := s.freeCount + 24 }
  | _ => s

/-! ## Storing a value -/

/-- Bits of an object that are not reserved; a write leaves reserved bits zero (R9). -/
def keepBits (n v : Nat) : Nat :=
  match n with
  | 0x100201 => v &&& 0x800FFFFF
  | 0x100205 => v % 2 ^ 24
  | 0x320007 => v % 4
  | 0x400101 => v % 16
  | 0x600006 => v % 8
  | 0x760001 => v % 2 ^ 20
  | 0x760005 => v % 16
  | _ => v

/-- Store a value as R57 moves it. -/
def State.storeObject (s : State) (o : ObjRow) (i k off : Nat) (data : List Byte) : State :=
  match o.ty with
  | .bytes _ => s.setObj o (leNat (overlay (s.content o i k) off data)) i k
  | .string => s.setBlob o data
  | .domain _ => s.setBlob o (if off = 0 then data else s.bytesOf o ++ data)
  | _ => s.setObj o (keepBits (o.index * 256 + o.sub) (leNat data)) i k

/-- The whole of a write-only command object: bytes that the write does not carry are not stated, and take free values. -/
def State.wholeWrite (s : State) (r : Req) (n : Nat) : List Byte :=
  overlay (outsideBytes (s.freeCount + 23) n) r.offset.toNat r.data

/-! ## OPERATE and the enables (R67, R68, R70, R72-R75, R263, R438) -/

/-- OPERATE written in a SAFE that the firmware serves. -/
def State.operateInSafe (s : State) : Served :=
  let s := if s.latched then s else s.setObj Row.reason 0x00060001
  (s.setObj Row.offending (offendingWord 0x2000 1)).ansNo 9

/-- A write of 1 to OPERATE in CONFIG. -/
def State.operateOn (s : State) : Served :=
  match s.checkOperate with
  | some f => (s.refuseEnable f none).ansNo 9
  | none => ⟨s.clearReason, .thenStart⟩

/-- HOLD to CONFIG; on the way into HOLD, its remaining steps are taken first (notes/assumptions/51). -/
def State.operateOffInHold (s : State) : State :=
  let s := if s.host.entering.isSome then s.holdDone else s
  s.leaveHold.clearReason

def State.writeOperate (s : State) (v : Nat) : Served :=
  match s.mode with
  | .safe => s.operateInSafe
  | .config => if v = 1 then s.operateOn else s.ansOk []
  | .operational =>
    if v = 1 then s.ansOk []
    else if s.host.entering.isSome then s.operateOffInHold.ansOk []
    else ⟨s.beginDrain .drainOperate, .later .drainOperate⟩
  | .hold => if v = 1 then s.ansOk [] else s.operateOffInHold.ansOk []
  | _ => s.ansNo 0x0F

/-- The enable of subsystem `n`. -/
def State.writeEnable (s : State) (n v : Nat) : Served :=
  if !s.operate then (s.setObj Row.enable v (n - 1)).clearReason.ansOk []
  else if s.enableObj n == (v == 1) then s.clearReason.ansOk []
  else if v = 1 then match s.checkEnable n with
    | some f => (s.refuseEnable f (some n)).ansNo 9
    | none => ((s.setObj Row.enable 1 (n - 1)).clearReason.startSub n).ansOk []
  else match s.checkDisable n with
    | some f => (s.refuseEnable f (some n)).ansNo 9
    | none =>
      let s := if n = 11 then s.handOver else s
      ⟨s.beginDrain (.drainEnable n), .later (.drainEnable n)⟩

/-! ## Command objects -/

/-- CAST_CMD (Table 11-6). -/
def State.writeCast (s : State) (b : List Byte) : State :=
  let f : CastFields := ⟨BitVec.ofNat 8 (leField b 1 1), BitVec.ofNat 32 (leField b 4 4), BitVec.ofNat 64 (leField b 8 8),
    leField b 2 2 == 0 && leField b 16 16 == 0⟩
  match leField b 0 1 with
  | 1 => s.castTake f
  | 2 => s.castRestore f
  | 3 => s.castDiscard f
  | op => s.castRefused op f 9

/-- KEY_CMD (Table 18-3), with the KEK of the session it arrives in (R406). -/
def State.writeKey (s : State) (b : List Byte) (kek : BitVec 256) : State :=
  let f : KeyFields := ⟨BitVec.ofNat 16 (leField b 0 2), BitVec.ofNat 8 (leField b 3 1), BitVec.ofNat 8 (leField b 4 1),
    leField b 5 3 == 0 && leField b 48 16 == 0, slice b 8 40⟩
  match leField b 2 1 with
  | 1 => s.keyLoad f kek
  | 2 => s.keyClear f
  | _ => s.setObj Row.keyResult 3

/-- FW_COMMIT (R441): checks 1 to 4 of R398 on the held image, then programming. -/
def State.fwCommit (s : State) (v : ImageVerdict) : State :=
  match s.verify v (!(s.blob Row.fwImage).isEmpty) with
  | 0 => s.setObj Row.fwCommitStatus 2
  | n => s.setObj Row.fwCommitStatus (4 + n * 256)

/-- Programming of the image ends. -/
def State.fwCommitDone (s : State) (ok : Bool) : State :=
  if s.obj Row.fwCommitStatus % 256 != 2 then s
  else { s.setObj Row.fwCommitStatus (if ok then 3 else 5) with flash := { s.flash with image := true } }

/-- SVN_COMMIT (R400). -/
def State.svnCommit (s : State) : State :=
  { s with flash := { s.flash with svnMin := max s.flash.svnMin (s.obj Row.fwSvn) } }

/-- OWNER_ROOT (R405). -/
def State.writeOwner (s : State) (r : Req) (flashOk : Bool) : Served :=
  if flashOk then
    let v := leNat (overlay (leBytes 64 s.owner) r.offset.toNat r.data)
    { st := { s with flash := { s.flash with owner := some v } }.measureOwner, ans := .now 0 [] }
  else s.ansNo 0x0D

/-- ROUTING_MODE while subsystem 5 runs takes effect at once (R236). -/
def State.writeRouting (s : State) (v : Nat) : State :=
  let s := s.setObj Row.routingMode v
  if !s.enabled 5 then s
  else
    let allUp := (List.range 4).all fun p => !s.torusPort p || s.portUp p
    let split := if v = 0 then false else if v = 1 then true else s.fabric.split && !allUp
    { s with fabric := { s.fabric with split := split } }

/-- PAIR_LIVE: the cleared bits of the bytes written, under the new length of the object. -/
def State.writePairLive (s : State) (r : Req) : State :=
  let off := r.offset.toNat
  let size := off + r.data.length
  let old := s.fabric.pairDead.filter fun b => decide (b < 8 * off)
  let new := (List.range (8 * r.data.length)).filter fun b => !(leField r.data (b / 8) 1).testBit (b % 8)
  let s := s.setBlob Row.pairLive (List.replicate size 0)
  { s with fabric := { s.fabric with pairDead := old ++ new.map fun b => 8 * off + b } }

/-! ## Writes -/

/-- A write to one instance of an object that passed every check. -/
def State.writeOne (s : State) (r : Req) (o : ObjRow) (i k : Nat) (e : ReqEnv) : Served :=
  let v := leNat r.data
  let f := i / 65536
  match o.index * 256 + o.sub with
  | 0x200001 => s.writeOperate v
  | 0x201101 => s.writeEnable (i + 1) v
  | 0x201103 => (if v = 1 then s.softReset (i + 1) else s).ansOk []
  | 0x250001 => (s.storeObject o i k r.offset.toNat r.data).ansOk []
  | 0x250002 => (if v = 1 then s.fwCommit e.verdict else s).ansOk []
  | 0x250004 => ⟨s, .thenReset v⟩
  | 0x700009 => (if v = 1 then s.histClear else s).ansOk []
  | 0x760004 => (s.writeRouting v).ansOk []
  | 0x76000A => (s.writePairLive r).ansOk []
  | 0x600101 => (s.writeCast (s.wholeWrite r 32)).ansOk []
  | 0x800003 => (if v = 1 then s.svnCommit else s).ansOk []
  | 0x800102 => s.writeOwner r e.flashOk
  | 0x800201 => (s.writeKey (s.wholeWrite r 64) (((s.sessionOf r.hdr).map Session.kek).getD 0)).ansOk []
  | 0x900203 => (s.importPatterns e.patterns).ansOk []
  | 0xC00101 => if (s.func f).untaken then s.ansNo 8 else (s.messageToPf f r.offset.toNat r.data).ansOk []
  | 0xC00103 => (s.messageFromPf f r.offset.toNat r.data).ansOk []
  | n =>
    let s := s.storeObject o i k r.offset.toNat r.data
    (if 0x600001 ≤ n && n ≤ 0x600006 then s.followLayout else s).ansOk []

/-- A write to every addressed instance, in ascending order (R55). -/
def State.writeObject (s : State) (r : Req) (o : ObjRow) (is : List Nat) (k : Nat) (e : ReqEnv) : Served :=
  is.foldl (fun (w : Served) i => w.st.writeOne r o i k e) (s.ansOk [])

/-! ## CTRL_CMD (R140, R147) -/

/-- The results of a write that has run: CTRL_RESULT, and the answer OK. -/
def State.ctrlOver (s : State) (h : ReqHdr) (n : Nat) : Served :=
  let b := leBytes 2 h.tag.toNat ++ leBytes 1 (viaBit h.via - 1) ++ leBytes 1 n ++ leBytes 4 0 ++ s.mgmt.results.flatten
  let s := s.setObj Row.ctrlResult (leNat b)
  { st := { s with mgmt := { s.mgmt with results := [] } }, ans := .now 0 [] }

def State.pushResult (s : State) (b : List Byte) : State :=
  { s with mgmt := { s.mgmt with results := s.mgmt.results ++ [b] } }

/-- The existing QP that a control command acts on, once its function may act (R191). -/
def State.contextOf (s : State) (i : Instr) : Option Nat :=
  match i with
  | .modifyQp c _ | .queryQp c | .destroyQp c =>
    let q := CtrlHdr.gnum s c totalQps
    if (s.gateChecks c false).any Prod.fst || s.qCount ≤ c.number.toNat then none
    else (s.qp q).bind fun x => if x.lost || x.freeing then none else some q
  | _ => none

/-- Run blocks in order until one fails or waits: for the context it acts on (R191), or for the flush of a RESET (R147). -/
def State.runBlocks : List Instr → State → State × Option Busy
  | [], s => (s, none)
  | i :: rest, s =>
    let q := s.contextOf i
    match q.filter s.contextAwaited with
    | some q => (s.wantFetch q none, some (.fetch q))
    | none =>
      let s := match q with
        | some q => s.access q
        | none => s
      let reset := s.resetOf i
      let c := s.runBlock i
      let t := c.st.pushResult (resultBytes i c.result c.value c.extra)
      if c.result != 0 then (eachDo rest (fun j t => t.pushResult (resultBytes j 0x0A none 0)) t, none)
      else match reset with
        | some q => (t, some (.flush q))
        | none => State.runBlocks rest t

/-- Run the blocks that have no result yet of a write of `is`. -/
def State.runCtrl (s : State) (h : ReqHdr) (is : List Instr) : Served :=
  match State.runBlocks (is.drop s.mgmt.results.length) s with
  | (t, some b) => ⟨t, .later b⟩
  | (t, none) => t.ctrlOver h is.length

/-- The blocks of a CTRL_CMD request. -/
def State.blocksOf (s : State) (r : Req) (is : List Instr) : List Instr :=
  match is with
  | [.write _ _ _ _ _] => parseBlocks r.hdr r.data s.freeCount
  | is => is

/-! ## Requests without an object -/

/-- NEXT (Table 03-7, R425, R467). A VF sees nothing outside the window. -/
def State.serveNext (s : State) (r : Req) : Served :=
  let n := if s.bootServed then nextBoot r.index.toNat r.sub.toNat
    else nextObject (s.windowOf r).isSome r.index.toNat r.sub.toNat
  let seen := n.filter fun n => viaBit r.hdr.via != 4 || isWindow (n / 256)
  s.ansOk (nextBytes seen)

/-- DEFAULTS (R66). -/
def State.serveDefaults (s : State) : Served := (s.loadStored none).followLayout.ansOk []

/-! ## One request (R467) -/

/-- The first command of a request. -/
def firstOf (is : List Instr) : Instr := is.headD (.storeDone false)

/-- An admitted write. -/
def State.serveWrite (s : State) (r : Req) (o : ObjRow) (i : List Nat) (k : Nat) (is : List Instr) : Served :=
  if r.key = 0x400001 then
    let bs := s.blocksOf r is
    ({ s with freeCount := s.freeCount + (if is.length = bs.length && (reqOf (firstOf is)).isNone then 0 else 2 * bs.length) }).runCtrl r.hdr bs
  else
    let w := s.writeObject r o i k (s.envOf (firstOf is) r)
    { w with st := w.st.usedEnv (firstOf is) }

/-- What a request does and how it is answered. -/
def State.serveReq (s : State) (r : Req) (is : List Instr) : Served :=
  match s.check467 r (s.envOf (firstOf is) r).lyandez with
  | .no 0x0E => (s.secLog 6 0 0xFFFF 0 0 0 0).ansNo 0x0E
  | .no st => s.ansNo st
  | .bare => match r.cmd with
    | .next => s.serveNext r
    | .store => ⟨s, .later .store⟩
    | _ => s.serveDefaults
  | .object o i k shared => match r.cmd with
    | .read => s.readObject r o i k shared
    | .describe => s.ansOk (match i with
      | j :: _ => s.describe o j k
      | [] => [])
    | _ => s.serveWrite r o i k is

/-! ## Answers and stored responses (R61, R62) -/

def cmdCode : DictCmd → Nat
  | .read => 1
  | .write => 2
  | .describe => 3
  | .next => 4
  | .store => 5
  | .defaults => 6

def responseOf (r : Req) (status : Nat) (data : List Byte) : Response :=
  ⟨r.hdr.via, BitVec.ofNat 8 ((match r.hdr.badCommand with
    | some c => c.toNat
    | none => cmdCode r.cmd) + 0x80), BitVec.ofNat 8 status, r.hdr.tag, r.hdr.func, r.index, r.sub, r.offset, data⟩

/-- A response leaves on its transport; on QP 0 it is a packet (R60). -/
def State.answer (s : State) (p : Response) : State :=
  let s := s.emit (.response p)
  match p.via with
  | .qp0 m q => s.postQp0 m q p.bytes
  | _ => s

/-- Answer an executed request and store the response for its endpoint; a failed integrity check stores none. -/
def State.respond (s : State) (r : Req) (is : List Instr) (status : Nat) (data : List Byte) : State :=
  let p := responseOf r status data
  let s := s.answer p
  if !r.hdr.integrityOk then s
  else { s with mgmt := { s.mgmt with
    answered := (s.mgmt.answered.filter fun a => a.1 != r.hdr.via) ++ [(r.hdr.via, requestBytes is, p)] } }

/-- The stored response of a request repeated with identical bytes. -/
def State.storedFor (s : State) (r : Req) (is : List Instr) : Option Response :=
  (s.mgmt.answered.find? fun a => a.1 == r.hdr.via && a.2.1 == requestBytes is && r.hdr.integrityOk).map fun a => a.2.2

/-- Execute a request, or repeat its stored response. -/
def State.execute (s : State) (is : List Instr) : State :=
  match requestOf is with
  | none => s
  | some r => match s.storedFor r is with
    | some p => s.answer p
    | none =>
      let w := s.serveReq r is
      match w.ans with
      | .now st data => w.st.respond r is st data
      | .later b => { w.st with mgmt := { w.st.mgmt with busy := some (b, is) } }
      | .thenReset v => (w.st.respond r is 0 []).pulseReset v
      | .thenStart => (w.st.respond r is 0 []).startModule

/-- The controller's work ends, and the request that waited for it is answered. -/
def State.answerBusy (s : State) (status : Nat) (data : List Byte) : State :=
  match s.mgmt.busy with
  | none => s
  | some (_, is) =>
    let s := { s with mgmt := { s.mgmt with busy := none } }
    match requestOf is with
    | none => s
    | some r => s.respond r is status data

/-- The management controller restarts: it answers no request. -/
def State.restarting (s : State) : Bool :=
  match s.mgmt.busy with
  | some (.mcRestart, _) => true
  | _ => false

/-- Requests waiting on a transport. -/
def State.waitingOn (s : State) (v : Via) : Nat :=
  (s.mgmt.waiting.filter fun is => match headerOf is with
    | some h => sameTransport v h.via
    | none => false).length

/-- A request arrives (R61). -/
def State.submit (s : State) (is : List Instr) : State :=
  match requestOf is with
  | none => s
  | some r =>
    if !s.listens r.hdr.via || s.restarting then s
    else if s.mgmt.busy.isNone && s.mgmt.waiting.isEmpty then s.execute is
    else if s.waitingOn r.hdr.via < waitingRoom r.hdr.via then { s with mgmt := { s.mgmt with waiting := s.mgmt.waiting ++ [is] } }
    else s.answer (responseOf r 8 [])

/-- Requests that QP 0 packets brought arrive in order. -/
def State.takeInbox (s : State) : State :=
  eachDo s.mgmt.inbox (fun i s => s.submit [i]) { s with mgmt := { s.mgmt with inbox := [] } }

/-- A block of a CTRL_CMD write arrives; the write executes with its last one. -/
def State.block (s : State) (i : Instr) : State :=
  match blockOf i with
  | none => s
  | some (_, c) =>
    let got := if c.index.val = 0 then [] else s.mgmt.blocks
    let fits := c.index.val == got.length && got.all fun j => match blockOf j with
      | some (_, d) => d.hdr == c.hdr
      | none => false
    if !fits then { s with mgmt := { s.mgmt with blocks := [] } }
    else if c.last || c.index.val == 15 then ({ s with mgmt := { s.mgmt with blocks := [] } }).submit (got ++ [i])
    else { s with mgmt := { s.mgmt with blocks := got ++ [i] } }

/-! ## What ends the controller's work -/

/-- DRAIN_END (R68, R70, R469). -/
def State.drainEnd (s : State) : State :=
  match s.mgmt.busy with
  | some (.drainOperate, _) =>
    if !s.drained .drainOperate || s.host.entering.isSome then s
    else if s.mode == .hold then (s.leaveHold.clearReason).answerBusy 0 []
    else if s.mode == .operational then (s.stopModule.clearReason).answerBusy 0 []
    else s
  | some (.drainEnable n, _) =>
    if !s.drained (.drainEnable n) then s
    else (((s.setObj Row.enable 0 (n - 1)).stopSub n).clearReason).answerBusy 0 []
  | _ => s

/-- DRAIN_TIMEOUT: what is left is ended at 2 ms. -/
def State.drainTimeout (s : State) : State :=
  match s.mgmt.busy with
  | some (.drainOperate, _) => s.forceDrain .drainOperate
  | some (.drainEnable n, _) => s.forceDrain (.drainEnable n)
  | _ => s

/-- STORE's programming ends (R64). -/
def State.storeDone (s : State) (ok : Bool) : State :=
  match s.mgmt.busy with
  | some (.store, _) =>
    if ok then
      let seq := match s.bestCopy with
        | some c => c.seq + 1
        | none => 1
      ((s.setCopy s.storeTarget (some (s.snapshot seq))).setObj Row.cfgSequence (seq % 2 ^ 32)).answerBusy 0 (leBytes 4 seq)
    else
      let s := if s.latched then s else s.setObj Row.reason 0x0C080002
      (s.tearCopy s.storeTarget).answerBusy 0x0D []
  | _ => s

/-- What a CTRL_CMD write waited for is over: its blocks go on. -/
def State.resumeCtrl (s : State) (is : List Instr) : State :=
  match requestOf is with
  | none => s
  | some r =>
    let s := { s with mgmt := { s.mgmt with busy := none } }
    let bs := s.blocksOf r is
    let w := s.runCtrl r.hdr bs
    match w.ans with
    | .now st data => w.st.respond r is st data
    | .later b => { w.st with mgmt := { w.st.mgmt with busy := some (b, is) } }
    | .thenReset _ => w.st
    | .thenStart => w.st

/-! ## What follows from every command -/

/-- QP `q` has work that waits for its context: entries consumed, or announced in a ring that may be read. -/
def State.hasWork (s : State) (q : Nat) (x : Qp) : Bool :=
  let announced (id : RingId) : Bool := s.ringReadable id && (s.ring id).any fun r => r.h != r.k
  !s.freezing x.func && (!x.wqes.isEmpty || announced (.send q) || announced (.recv q))

/-- What follows for one QP: the fetch of a context that its work needs, or records, demand, extended PSNs. -/
def State.settleOne (s : State) (q : Nat) : State :=
  match s.qp q with
  | none => s
  | some x => if !s.contextAwaited q then s.settleQp q else if s.hasWork q x then s.wantFetch q none else s

/-- The context that a control command waits for is fetched, again after a fetch that failed (R200). -/
def State.keepFetching (s : State) : State :=
  match s.mgmt.busy with
  | some (.fetch q, _) => if s.contextAwaited q then s.wantFetch q none else s
  | _ => s

/-- Errors, completions, and what each QP is due. -/
def State.round (s : State) : State :=
  let s := s.settleErrors (s.wq.qps.length + 1)
  let s := if s.transportRuns && !s.holding then eachDo (tkeys s.wq.qps) (fun q s => s.settleOne q) s else s
  let s := s.resyncOverflow.flushRegions.keepFetching.presentWritebacks
  let s := s.settleErrors (s.wq.qps.length + 1)
  if s.firmwareRuns then
    let s := s.settleConflict
    if s.mem.cast.isNone then s.relayDir (s.enableObj 11) else s
  else s

/-- The controller goes on: a RESET whose flush is over, a command whose context has come, or the next request. -/
def State.nextWork (s : State) : Option State :=
  match s.mgmt.busy with
  | some (.flush q, is) => if s.flushing q then none else some ((s.endReset q).resumeCtrl is)
  | some (.fetch q, is) => if s.contextAwaited q then none else some (s.resumeCtrl is)
  | some _ => none
  | none => match s.mgmt.waiting with
    | [] => none
    | is :: rest => some (({ s with mgmt := { s.mgmt with waiting := rest } }).execute is)

/-- Everything the controller can do now, at most `n` steps of it. -/
def State.manage : Nat → State → State
  | 0, s => s
  | n + 1, s => match s.nextWork with
    | some t => State.manage n t.round
    | none => s

/-- What follows from any command, once its own effect is done. -/
def State.settled (s : State) : State :=
  let s := s.takeInbox.round
  let s := State.manage (17 * (s.mgmt.waiting.length + 1)) s
  s.routeOutbox.routeOutbox.drainAll.settleGraft.reportCredit.serveChannels.settleQueues

/-- A context as it is written back, without what the tiers keep of it. -/
def Qp.content (x : Qp) : Qp := { x with tier := .warm, referenced := false, dirty := false }

/-- R193: hot contexts that the command changed are to be written back. -/
def State.markDirty (s before : State) : State :=
  let mark (p : Nat × Qp) : Nat × Qp :=
    if p.2.tier == .hot && (before.qp p.1).map Qp.content != some p.2.content then (p.1, { p.2 with dirty := true }) else p
  { s with wq := { s.wq with qps := s.wq.qps.map mark } }

/-- The state after a command: what follows from its own effect `s`; the queue of waiting commands is no command's. -/
def finish (before s : State) : State := { (s.settled.countStall before).markDirty before with pending := before.pending }

/-- A command's outcome: its effect, and what follows. -/
def done (s t : State) : Host.Outcome State Fault Refusal := .next (finish s t)

/-- A dictionary request as a command. -/
def served (s : State) (i : Instr) : Host.Outcome State Fault Refusal := done s (s.submit [i])

/-- A CTRL_CMD block as a command. -/
def blocked (s : State) (i : Instr) : Host.Outcome State Fault Refusal := done s (s.block i)

end Sys2Proof.Machine
end

