-- ==== Sys2Proof/Machine/CmdBoot.lean ====
section
/-! DEFINITION. Boot, reset, self-test and firmware commands (chapter 19, R453, R454, R464). -/

namespace Sys2Proof.Machine

/-- POWER_GOOD (R453). -/
def execPowerGood (mrstHigh : Bool) (pairId : BitVec 2) (s : State) : Host.Outcome State Fault Refusal :=
  done s (s.powerUp mrstHigh pairId.toNat)

/-- POWER_GOOD_FALL (R454): the cause is a power loss whichever it is. -/
def execPowerGoodFall (_cause : PowerFallCause) (s : State) : Host.Outcome State Fault Refusal := done s s.powerFall

/-- THERMAL_TRIP (R464). -/
def execThermalTrip (_sensor : Fin 20) (reading : Int) (s : State) : Host.Outcome State Fault Refusal :=
  done s (s.trip reading)

/-- MRST_N_ASSERT (R427). -/
def execMrstNAssert (ns : Nat) (s : State) : Host.Outcome State Fault Refusal := done s (s.mrstLow ns)

/-- MRST_N_DEASSERT (R427). -/
def execMrstNDeassert (s : State) : Host.Outcome State Fault Refusal := done s s.mrstHigh

/-- MODULE_RESET (R427): a write of 0x2500.04. -/
def execModuleReset (h : ReqHdr) (value : Byte) (s : State) : Host.Outcome State Fault Refusal :=
  served s (.moduleReset h value)

/-- RESET_RELEASE (R427). -/
def execResetRelease (pairId : BitVec 2) (s : State) : Host.Outcome State Fault Refusal :=
  done s (s.resetRelease pairId.toNat)

/-- FLASH_DIRECTORY_READ (R426). -/
def execFlashDirectoryRead (readable : Bool) (s : State) : Host.Outcome State Fault Refusal :=
  done s (s.directoryRead readable)

/-- BOOT_TIME_LIMIT (R424). -/
def execBootTimeLimit (s : State) : Host.Outcome State Fault Refusal := done s s.limitPassed

/-- REFERENCES_PHASE_DONE (R436). -/
def execReferencesPhaseDone (monitors : List (List Nat)) (fused : List Nat) (temps : List Int) (s : State) : Host.Outcome State Fault Refusal :=
  if (monitors.all fun m => m.length == 32) && monitors.length == 3 && fused.length == 3 && temps.length == 20
  then done s (s.references monitors fused temps)
  else .fault .illFormed

/-- ANALOGUE_CHECK_DONE (R434, Table 19-9). -/
def execAnalogueCheckDone (check : AnalogueCheck) (passed : Bool) (s : State) : Host.Outcome State Fault Refusal :=
  done s (s.analogDone check passed)

/-- MBIST_DONE (R437). -/
def execMbistDone (repairs : List Nat) (bufferOk : Bool) (s : State) : Host.Outcome State Fault Refusal :=
  if repairs.length == 4 then done s (s.mbist repairs bufferOk) else .fault .illFormed

/-- SLICE_START (R435). -/
def execSliceStart (slice : Fin 1024) (hdr : SliceHdr) (s : State) : Host.Outcome State Fault Refusal :=
  done s (s.sliceStart slice.val hdr)

/-- SLICE_DONE (R435, R346). -/
def execSliceDone (slice : Fin 1024) (response : BitVec 128) (patternsOk : Bool) (s : State) : Host.Outcome State Fault Refusal :=
  done s (s.sliceDone slice.val response patternsOk)

/-- SLICE_TIMEOUT (R435). -/
def execSliceTimeout (slice : Fin 1024) (s : State) : Host.Outcome State Fault Refusal := done s (s.sliceTimeout slice.val)

/-- FW_LOAD_DONE (R426, R398). -/
def execFwLoadDone (v : ImageVerdict) (s : State) : Host.Outcome State Fault Refusal := done s (s.fwLoaded v)

/-- FW_COMMIT (R441): a write of 0x2500.02. -/
def execFwCommit (h : ReqHdr) (value : Byte) (v : ImageVerdict) (s : State) : Host.Outcome State Fault Refusal :=
  served s (.fwCommit h value v)

/-- FW_COMMIT_DONE (R441). -/
def execFwCommitDone (ok : Bool) (s : State) : Host.Outcome State Fault Refusal := done s (s.fwCommitDone ok)

end Sys2Proof.Machine
end

