-- ==== Sys2Proof/Machine/CmdColl.lean ====
section
/-! DEFINITION. Collective commands (chapters 12 to 14). -/

namespace Sys2Proof.Machine

/-- COLL_LEAVE_QUEUED (R274). -/
def execCollLeaveQueued (comm : Nat) (k : Nat) (inputs : List (List Byte)) (s : State) : Host.Outcome State Fault Refusal :=
  done s (s.leaveQueued comm k inputs)

/-- COLL_SLOW (R287). -/
def execCollSlow (comm : Nat) (k : Nat) (s : State) : Host.Outcome State Fault Refusal := done s (s.collSlow comm k)

/-- COLL_TIMEOUT (R287). -/
def execCollTimeout (comm : Nat) (k : Nat) (s : State) : Host.Outcome State Fault Refusal := done s (s.collTimeout comm k)

/-- APPLY_BEGIN (R324). -/
def execApplyBegin (comm : Nat) (k : Nat) (s : State) : Host.Outcome State Fault Refusal := done s (s.applyBegin comm k)

/-- APPLY_GROUP (R325, R339). -/
def execApplyGroup (comm : Nat) (k : Nat) (group : Nat) (rau : Option RauFault) (s : State) : Host.Outcome State Fault Refusal :=
  done s (s.applyGroup comm k group rau)

/-- APPLY_PHASE_END (R326). -/
def execApplyPhaseEnd (comm : Nat) (k : Nat) (s : State) : Host.Outcome State Fault Refusal :=
  done s (s.applyPhaseEnd comm k)

end Sys2Proof.Machine
end

