-- ==== Sys2Proof/Machine/CmdControl.lean ====
section
/-! DEFINITION. Control commands: the blocks of CTRL_CMD and what ends their work (chapters 6, 12 to 14, 17). -/

namespace Sys2Proof.Machine

/-- CREATE_EQ (R143): a block of a CTRL_CMD write. -/
def execCreateEq (c : CtrlHdr) (f : EqFields) (s : State) : Host.Outcome State Fault Refusal := blocked s (.createEq c f)

/-- CREATE_CQ (R107): a block of a CTRL_CMD write. -/
def execCreateCq (c : CtrlHdr) (f : CqFields) (s : State) : Host.Outcome State Fault Refusal := blocked s (.createCq c f)

/-- CREATE_SRQ (R107): a block of a CTRL_CMD write. -/
def execCreateSrq (c : CtrlHdr) (f : SrqFields) (s : State) : Host.Outcome State Fault Refusal := blocked s (.createSrq c f)

/-- CREATE_QP (R144): a block of a CTRL_CMD write. -/
def execCreateQp (c : CtrlHdr) (f : QpFields) (s : State) : Host.Outcome State Fault Refusal := blocked s (.createQp c f)

/-- MODIFY_QP (R145, R147): a block of a CTRL_CMD write. -/
def execModifyQp (c : CtrlHdr) (f : ModifyFields) (s : State) : Host.Outcome State Fault Refusal := blocked s (.modifyQp c f)

/-- REG_REGION (R148): a block of a CTRL_CMD write. -/
def execRegRegion (c : CtrlHdr) (f : RegionFields) (s : State) : Host.Outcome State Fault Refusal :=
  blocked s (.regRegion c f)

/-- CREATE_COMM (R267): a block of a CTRL_CMD write. -/
def execCreateComm (c : CtrlHdr) (f : CommFields) (s : State) : Host.Outcome State Fault Refusal :=
  blocked s (.createComm c f)

/-- QUERY_QP (R140): a block of a CTRL_CMD write. -/
def execQueryQp (c : CtrlHdr) (s : State) : Host.Outcome State Fault Refusal := blocked s (.queryQp c)

/-- LOAD_SCHEDULE (R269): a block of a CTRL_CMD write. -/
def execLoadSchedule (c : CtrlHdr) (f : ImageFields) (s : State) : Host.Outcome State Fault Refusal :=
  blocked s (.loadSchedule c f)

/-- ARITH_BIND (R309): a block of a CTRL_CMD write. -/
def execArithBind (c : CtrlHdr) (f : BindFields) (s : State) : Host.Outcome State Fault Refusal := blocked s (.arithBind c f)

/-- LOAD_KERNEL (R328): a block of a CTRL_CMD write. -/
def execLoadKernel (c : CtrlHdr) (f : ImageFields) (s : State) : Host.Outcome State Fault Refusal :=
  blocked s (.loadKernel c f)

/-- DEFINE_SHARD (R315): a block of a CTRL_CMD write. -/
def execDefineShard (c : CtrlHdr) (f : ShardFields) (s : State) : Host.Outcome State Fault Refusal :=
  blocked s (.defineShard c f)

/-- SHARD_XFER (R318): a block of a CTRL_CMD write. -/
def execShardXfer (c : CtrlHdr) (f : XferFields) (s : State) : Host.Outcome State Fault Refusal := blocked s (.shardXfer c f)

/-- FREEZE_FUNC (R390): a block of a CTRL_CMD write. -/
def execFreezeFunc (c : CtrlHdr) (s : State) : Host.Outcome State Fault Refusal := blocked s (.freezeFunc c)

/-- SAVE_FUNC (R393): a block of a CTRL_CMD write. -/
def execSaveFunc (c : CtrlHdr) (f : ImageXfer) (imageLength : Nat) (s : State) : Host.Outcome State Fault Refusal :=
  blocked s (.saveFunc c f imageLength)

/-- RESTORE_FUNC (R394): a block of a CTRL_CMD write. -/
def execRestoreFunc (c : CtrlHdr) (f : ImageXfer) (alias_ : BitVec 32) (img : Option VfImage) (s : State) : Host.Outcome State Fault Refusal :=
  blocked s (.restoreFunc c f alias_ img)

/-- DESTROY_EQ (R141): a block of a CTRL_CMD write. -/
def execDestroyEq (c : CtrlHdr) (s : State) : Host.Outcome State Fault Refusal := blocked s (.destroyEq c)

/-- DESTROY_CQ (R141): a block of a CTRL_CMD write. -/
def execDestroyCq (c : CtrlHdr) (s : State) : Host.Outcome State Fault Refusal := blocked s (.destroyCq c)

/-- DESTROY_SRQ (R141): a block of a CTRL_CMD write. -/
def execDestroySrq (c : CtrlHdr) (s : State) : Host.Outcome State Fault Refusal := blocked s (.destroySrq c)

/-- DESTROY_QP (R141): a block of a CTRL_CMD write. -/
def execDestroyQp (c : CtrlHdr) (s : State) : Host.Outcome State Fault Refusal := blocked s (.destroyQp c)

/-- RESET_CQ (R116): a block of a CTRL_CMD write. -/
def execResetCq (c : CtrlHdr) (s : State) : Host.Outcome State Fault Refusal := blocked s (.resetCq c)

/-- DEREG_REGION (R150): a block of a CTRL_CMD write. -/
def execDeregRegion (c : CtrlHdr) (s : State) : Host.Outcome State Fault Refusal := blocked s (.deregRegion c)

/-- DESTROY_COMM (R268): a block of a CTRL_CMD write. -/
def execDestroyComm (c : CtrlHdr) (s : State) : Host.Outcome State Fault Refusal := blocked s (.destroyComm c)

/-- UNLOAD_SCHEDULE (R269): a block of a CTRL_CMD write. -/
def execUnloadSchedule (c : CtrlHdr) (s : State) : Host.Outcome State Fault Refusal := blocked s (.unloadSchedule c)

/-- ARITH_UNBIND (R309): a block of a CTRL_CMD write. -/
def execArithUnbind (c : CtrlHdr) (s : State) : Host.Outcome State Fault Refusal := blocked s (.arithUnbind c)

/-- UNLOAD_KERNEL (R328): a block of a CTRL_CMD write. -/
def execUnloadKernel (c : CtrlHdr) (s : State) : Host.Outcome State Fault Refusal := blocked s (.unloadKernel c)

/-- REMOVE_SHARD (R315): a block of a CTRL_CMD write. -/
def execRemoveShard (c : CtrlHdr) (s : State) : Host.Outcome State Fault Refusal := blocked s (.removeShard c)

/-- THAW_FUNC (R396): a block of a CTRL_CMD write. -/
def execThawFunc (c : CtrlHdr) (s : State) : Host.Outcome State Fault Refusal := blocked s (.thawFunc c)

/-- FORWARD_FUNC (R395): a block of a CTRL_CMD write. -/
def execForwardFunc (c : CtrlHdr) (target : BitVec 32) (s : State) : Host.Outcome State Fault Refusal :=
  blocked s (.forwardFunc c target)

/-- SHARD_XFER_DONE (R318). -/
def execShardXferDone (func : Nat) (shard : Nat) (outcome : Fin 3) (moved : Nat) (bytes : List Byte) (s : State) : Host.Outcome State Fault Refusal :=
  done s (s.xferDone func shard outcome.val moved bytes)

/-- FUNC_FROZEN (R390). -/
def execFuncFrozen (func : Nat) (s : State) : Host.Outcome State Fault Refusal := done s (s.funcFrozen func)

/-- SAVE_DONE (R393). -/
def execSaveDone (func : Nat) (ok : Bool) (s : State) : Host.Outcome State Fault Refusal := done s (s.saveDone func ok)

/-- RESTORE_DONE (R394). -/
def execRestoreDone (func : Nat) (s : State) : Host.Outcome State Fault Refusal := done s (s.restoreDone func)

/-- QP_FREE (R141). -/
def execQpFree (qpn : Nat) (s : State) : Host.Outcome State Fault Refusal := done s (s.qpFree qpn)

/-- COMM_FREE (R268). -/
def execCommFree (func : Nat) (comm : Nat) (s : State) : Host.Outcome State Fault Refusal := done s (s.commFree func comm)

end Sys2Proof.Machine
end

