-- ==== Sys2Proof/Machine/CmdDict.lean ====
section
/-! DEFINITION. Object dictionary commands (chapter 3). -/

namespace Sys2Proof.Machine

/-- READ (R57). -/
def execRead (h : ReqHdr) (index : BitVec 16) (sub : Byte) (offset : BitVec 32) (length : BitVec 16) (s : State) : Host.Outcome State Fault Refusal :=
  served s (.read h index sub offset length)

/-- WRITE (R57, R55). -/
def execWrite (h : ReqHdr) (index : BitVec 16) (sub : Byte) (offset : BitVec 32) (data : List Byte) (s : State) : Host.Outcome State Fault Refusal :=
  served s (.write h index sub offset data)

/-- DESCRIBE (R52). -/
def execDescribe (h : ReqHdr) (index : BitVec 16) (name : NameTail) (s : State) : Host.Outcome State Fault Refusal :=
  served s (.describe h index name)

/-- NEXT (R467). -/
def execNext (h : ReqHdr) (index : BitVec 16) (name : NameTail) (s : State) : Host.Outcome State Fault Refusal :=
  served s (.next h index name)

/-- STORE (R64). -/
def execStore (h : ReqHdr) (index : BitVec 16) (sub : Byte) (offset : BitVec 32) (length : BitVec 16) (s : State) : Host.Outcome State Fault Refusal :=
  served s (.store h index sub offset length)

/-- STORE_DONE (R64). -/
def execStoreDone (ok : Bool) (s : State) : Host.Outcome State Fault Refusal := done s (s.storeDone ok)

/-- DEFAULTS (R66). -/
def execDefaults (h : ReqHdr) (index : BitVec 16) (sub : Byte) (offset : BitVec 32) (length : BitVec 16) (s : State) : Host.Outcome State Fault Refusal :=
  served s (.defaults h index sub offset length)

/-- OPERATE_WRITE_1 (R67). -/
def execOperateWrite1 (h : ReqHdr) (s : State) : Host.Outcome State Fault Refusal := served s (.operateWrite1 h)

/-- OPERATE_WRITE_0 (R68). -/
def execOperateWrite0 (h : ReqHdr) (s : State) : Host.Outcome State Fault Refusal := served s (.operateWrite0 h)

/-- DRAIN_END (R469). -/
def execDrainEnd (s : State) : Host.Outcome State Fault Refusal := done s s.drainEnd

/-- DRAIN_TIMEOUT (R469). -/
def execDrainTimeout (s : State) : Host.Outcome State Fault Refusal := done s s.drainTimeout

/-- HOLD_TO_CONFIG (R263): a write of 0 to OPERATE in HOLD. -/
def execHoldToConfig (h : ReqHdr) (s : State) : Host.Outcome State Fault Refusal := served s (.holdToConfig h)

/-- OPERATE_WRITE_SAFE (R438). -/
def execOperateWriteSafe (h : ReqHdr) (value : Byte) (s : State) : Host.Outcome State Fault Refusal :=
  served s (.operateWriteSafe h value)

/-- ENABLE_WRITE_1 (R70). -/
def execEnableWrite1 (h : ReqHdr) (subsystem : Fin 14) (s : State) : Host.Outcome State Fault Refusal :=
  served s (.enableWrite1 h subsystem)

/-- ENABLE_WRITE_0 (R70). -/
def execEnableWrite0 (h : ReqHdr) (subsystem : Fin 14) (s : State) : Host.Outcome State Fault Refusal :=
  served s (.enableWrite0 h subsystem)

/-- SOFT_RESET (R429). -/
def execSoftReset (h : ReqHdr) (subsystem : Fin 14) (s : State) : Host.Outcome State Fault Refusal :=
  served s (.softReset h subsystem)

end Sys2Proof.Machine
end

