-- ==== Sys2Proof/WellFormed.lean ====
section
/-! DEFINITION. Which commands can reach the module: the operand lists whose length the spec fixes have that length.
Each check has a name; `Instr.wellFormed` gathers them. -/

namespace Sys2Proof

/-- CTYPE of a control frame (Table 10-5). -/
def ctypeOf (b : List Byte) : Nat := beNat (slice b 24 1) / 16

/-- A control frame has 40 bytes and the CTYPE of its command (Table 10-5). -/
def controlWellFormed (ctype : Nat) (b : List Byte) : Bool := b.length == 40 && ctypeOf b == ctype

/-- One lap count per speed monitor, 32 of them (R32). -/
def lapsWellFormed (laps : List Nat) : Bool := laps.length == 32

/-- One sample per watchdog region, 118 of them (R39). -/
def samplesWellFormed (samples : List (Bool × Nat)) : Bool := samples.length == 118

/-- One reading per temperature sensor, 20 of them (R461). -/
def tempsWellFormed (temps : List Int) : Bool := temps.length == 20

/-- Three readings of each of the 32 monitors, three fused references and 20 temperatures (R436). -/
def referencesWellFormed (monitors : List (List Nat)) (fused : List Nat) (temps : List Int) : Bool :=
  (monitors.all fun m => m.length == 32) && monitors.length == 3 && fused.length == 3 && tempsWellFormed temps

/-- Repair counts of the four kinds of memory that built-in self-test repairs (R437). -/
def repairsWellFormed (repairs : List Nat) : Bool := repairs.length == 4

/-- A CXL.mem write carries 64 bytes with their enables (R90). -/
def hdmWellFormed (bytes : List (Option Byte)) : Bool := bytes.length == 64

/-- The partition objects are subindexes 1 to 6, and PRESERVE, the sixth, has one byte (R250, Table 11-4). -/
def partitionWellFormed (sub : Byte) (value : BitVec 16) : Bool :=
  1 ≤ sub.toNat && sub.toNat ≤ 6 && (sub != 6 || value.toNat < 256)

/-- A context image has 256 bytes (R188). -/
def contextWellFormed (image : List Byte) : Bool := image.length == 256

/-- A command that can reach the module. -/
def Instr.wellFormed : Instr → Bool
  | .referencesPhaseDone m f t => referencesWellFormed m f t
  | .mbistDone r _ => repairsWellFormed r
  | .paceWindow l => lapsWellFormed l
  | .watchdogSample l => samplesWellFormed l
  | .hdmWrite _ b => hdmWellFormed b
  | .credit _ b => controlWellFormed 0 b
  | .replayReq _ b => controlWellFormed 1 b
  | .retrain _ b _ => controlWellFormed 2 b
  | .splitNotice _ b => controlWellFormed 3 b
  | .pairNotice _ b => controlWellFormed 4 b
  | .partitionWrite _ sub v => partitionWellFormed sub v
  | .thermalSample t => tempsWellFormed t
  | .contextFetchDone _ i => contextWellFormed i
  | _ => true

end Sys2Proof
end

