-- ==== Sys2Proof/Machine/CmdFabric.lean ====
section
/-! DEFINITION. Fabric and port commands (chapter 10). -/

namespace Sys2Proof.Machine

/-- What every control frame carries: cumulative credit and LACK (R224, R226). One that fails its check is counted. -/
def State.controlFrame (s : State) (l : Nat) (b : List Byte) (go : ControlFrame → State → State) : State :=
  let f := controlOf b
  if (s.link l).st != 2 || !s.native l then s
  else if !f.crcOk then s.countCrc l
  else go f ((s.updLink l fun x => { x with granted := f.credits }).takeLack l f.lack)

/-- A PFC frame pauses or resumes VC `v` (R241); with PFC off it is discarded and counted (Table 10-8). -/
def State.pfc (s : State) (p v quanta : Nat) : State :=
  let p := s.iface p
  if !s.ethernet p || !s.portUp p then s
  else if s.obj Row.pfcEnable p = 0 then s.bump Row.pauseDiscard 1 p
  else s.updLink p fun x => { x with paused := setBit x.paused v (quanta != 0) }

/-- The packet at the head of an ingress VC buffer is dropped as STUCK (R234). -/
def State.stuck (s : State) (p v : Nat) : State :=
  match (tget (s.link p).ingress v).getD [] with
  | [] => s
  | k :: ks => (((s.setIngress p v ks).dropOn p v true).freeUnits p v (frameUnits k.pkt)).drainAll

/-- With frames held and LACK static for 2 µs the oldest held frame goes again, and all after it (R226). -/
def State.replayDue (s : State) (l : Nat) : State :=
  if (s.link l).st != 2 || (s.link l).held.isEmpty then s else (s.advanceTo ((s.link l).lackAt + 2000)).replay l none

/-- A down port trains again (R229). -/
def State.retrainDown (s : State) (l : Nat) : State :=
  if (s.link l).st != 3 || !s.enabled (if l < 4 then 5 else 11) then s else s.startTraining l

/-- A port comes up while its subsystem runs (R229, R242). -/
def State.portTrained (s : State) (l lanes : Nat) : State :=
  if s.enabled (if l < 4 then 5 else 11) then s.portUpNow l lanes else s

/-- PFC_FRAME_RX (R241). -/
def execPfcFrameRx (port : NetPort) (priority : Vc) (quanta : Nat) (s : State) : Host.Outcome State Fault Refusal :=
  done s (s.pfc port.val priority.val quanta)

/-- PFC_PAUSE_EXPIRY (R241). -/
def execPfcPauseExpiry (port : NetPort) (vc : Vc) (s : State) : Host.Outcome State Fault Refusal :=
  done s (s.updLink (s.iface port.val) fun x => { x with paused := setBit x.paused vc.val false })

/-- PAUSE_FRAME_RX (R222). -/
def execPauseFrameRx (port : NetPort) (s : State) : Host.Outcome State Fault Refusal :=
  done s (if s.ethernet port.val && s.portUp port.val then s.bump Row.pauseDiscard 1 (s.iface port.val) else s)

/-- CONTROL_FRAME_TIMER (R224). -/
def execControlFrameTimer (link : Link) (s : State) : Host.Outcome State Fault Refusal :=
  let t := s.tickOf (16 + link.val) 500
  done s (if (t.link link.val).st == 2 && t.native link.val then t.control link.val 0 0 0 0 else t)

/-- CREDIT (R224). -/
def execCredit (link : Link) (frame : List Byte) (s : State) : Host.Outcome State Fault Refusal :=
  if controlWellFormed 0 frame then done s (s.controlFrame link.val frame fun _ s => s) else .fault .illFormed

/-- REPLAY_REQ (R226). -/
def execReplayReq (link : Link) (frame : List Byte) (s : State) : Host.Outcome State Fault Refusal :=
  if controlWellFormed 1 frame
  then done s (s.controlFrame link.val frame fun f s => s.replay link.val (some f.replayFrom))
  else .fault .illFormed

/-- RETRAIN (R228). -/
def execRetrain (link : Link) (frame : List Byte) (lanes : BitVec 4) (s : State) : Host.Outcome State Fault Refusal :=
  if controlWellFormed 2 frame
  then done s (s.controlFrame link.val frame fun _ s => s.retrain link.val lanes.toNat)
  else .fault .illFormed

/-- SPLIT_NOTICE (R236). -/
def execSplitNotice (link : Link) (frame : List Byte) (s : State) : Host.Outcome State Fault Refusal :=
  if controlWellFormed 3 frame
  then done s (s.controlFrame link.val frame fun _ s => if link.val < 4 then s.splitNotice link.val else s)
  else .fault .illFormed

/-- PAIR_NOTICE (R232, R373). -/
def execPairNotice (link : Link) (frame : List Byte) (s : State) : Host.Outcome State Fault Refusal :=
  if controlWellFormed 4 frame
  then done s (s.controlFrame link.val frame fun f s =>
    if link.val < 4 then s.noticeOfSelf link.val f.pairAddr f.liveA f.liveB else s)
  else .fault .illFormed

/-- REPLAY_TIMER (R226). -/
def execReplayTimer (link : Link) (s : State) : Host.Outcome State Fault Refusal := done s (s.replayDue link.val)

/-- LANE_FAULT (R228). -/
def execLaneFault (lane : Fin 24) (lanes : BitVec 4) (s : State) : Host.Outcome State Fault Refusal :=
  done s (s.laneFault lane.val lanes.toNat)

/-- LANE_SER_WINDOW (R228). -/
def execLaneSerWindow (lane : Fin 24) (errors : Nat) (lanes : BitVec 4) (s : State) : Host.Outcome State Fault Refusal :=
  done s (s.laneSerWindow lane.val errors lanes.toNat)

/-- LANE_RETRY_TIMER (R228). -/
def execLaneRetryTimer (link : Link) (lanes : BitVec 4) (s : State) : Host.Outcome State Fault Refusal :=
  done s (s.laneRetry link.val lanes.toNat)

/-- PORT_DOWN (R229): the same for each event of Table 10-6. -/
def execPortDown (link : Link) (_cause : PortDownCause) (s : State) : Host.Outcome State Fault Refusal :=
  done s (s.portDown link.val)

/-- PORT_RETRAIN_TIMER (R229). -/
def execPortRetrainTimer (link : Link) (s : State) : Host.Outcome State Fault Refusal := done s (s.retrainDown link.val)

/-- PORT_UP (R229). -/
def execPortUp (link : Link) (lanes : BitVec 4) (s : State) : Host.Outcome State Fault Refusal :=
  done s (s.portTrained link.val lanes.toNat)

/-- STUCK_TIMEOUT (R234). -/
def execStuckTimeout (port : NetPort) (vc : Vc) (s : State) : Host.Outcome State Fault Refusal :=
  done s (s.stuck port.val vc.val)

/-- ROUTING_MODE_WRITE (R236): a write of 0x7600.04. -/
def execRoutingModeWrite (h : ReqHdr) (value : Byte) (s : State) : Host.Outcome State Fault Refusal :=
  served s (.routingModeWrite h value)

end Sys2Proof.Machine
end

