-- ==== Sys2Proof/Machine/CmdMemory.lean ====
section
/-! DEFINITION. Module memory and cast commands (chapter 11). -/

namespace Sys2Proof.Machine

/-- A RESTORE or a mirroring that reads its slot uncorrectable ends with MEMORY_ERROR, and the slot is INCOMPLETE (Table 11-3). -/
def State.slotUe (s : State) (k : Nat) : State :=
  match s.mem.cast with
  | some r =>
    if r.slot = k && ((r.op == 2 && r.phase == .copying) || r.phase == .mirroring)
    then (s.setEntry k { s.entry k with slotState := 4 }).failCast 6
    else s
  | none => s

/-- A TAKE copy that reads STATE uncorrectable ends with MEMORY_ERROR (Table 11-3). -/
def State.copyUe (s : State) : State :=
  match s.mem.cast with
  | some r => if r.op = 1 && r.phase == .copying then s.failCast 6 else s
  | none => s

/-- What the consumer of poisoned data does (Table 11-3). -/
def State.consumeUe (s : State) : UeConsumer → State
  | .qpContext q => match s.qp q with
    | some x => if x.lost then s else s.contextLost q x
    | none => s
  | .region n => s.updRegion n fun r => { r with poisoned := r.valid }
  | .collective c k => s.endColl c k 0x15 0 (some 0x15) none
  | .castCopy => s.copyUe
  | .castRestoreOrMirror k => s.slotUe k.val
  | .host => s
  | .atomicCache q psn => s.updQp q fun x => { x with resp := { x.resp with cache := x.resp.cache.filter fun e => e.1 != psn } }
  | .castDirectory both => if both then s.clearDir else s
  | .scrub => s

/-- PARTITION_WRITE (R250): a write of 0x6000.01-06. -/
def execPartitionWrite (h : ReqHdr) (sub : Byte) (value : BitVec 16) (s : State) : Host.Outcome State Fault Refusal :=
  if 1 ≤ sub.toNat && sub.toNat ≤ 6 && (sub != 6 || value.toNat < 256) then served s (.partitionWrite h sub value)
  else .fault .illFormed

/-- INIT_DONE (R251). -/
def execInitDone (s : State) : Host.Outcome State Fault Refusal := done s s.initDone

/-- MEM_UE (R248, Table 11-3). -/
def execMemUe (addr : Nat) (consumer : UeConsumer) (s : State) : Host.Outcome State Fault Refusal :=
  done s (if s.firmwareRuns then (s.memUe addr).consumeUe consumer else s)

/-- SCRUB_READ (R254). -/
def execScrubRead (channel : Fin 96) (result : ScrubResult) (s : State) : Host.Outcome State Fault Refusal :=
  done s ((s.tickOf (32 + channel.val) 1380000).scrubRead channel.val result)

/-- CHANNEL_IDLE (R262). -/
def execChannelIdle (channel : Fin 96) (s : State) : Host.Outcome State Fault Refusal := done s (s.channelIdle channel.val)

/-- MEM_HOT (R465). -/
def execMemHot (package : Fin 24) (mr4 : Byte) (above85 : Bool) (s : State) : Host.Outcome State Fault Refusal :=
  done s (if s.firmwareRuns then s.memHot package.val mr4.toNat above85 else s)

/-- TAKE (R257, R258): a write of CAST_CMD. -/
def execTake (h : ReqHdr) (f : CastFields) (s : State) : Host.Outcome State Fault Refusal := served s (.take h f)

/-- RESTORE (R260): a write of CAST_CMD. -/
def execRestore (h : ReqHdr) (f : CastFields) (s : State) : Host.Outcome State Fault Refusal := served s (.restore h f)

/-- DISCARD (R260): a write of CAST_CMD. -/
def execDiscard (h : ReqHdr) (f : CastFields) (s : State) : Host.Outcome State Fault Refusal := served s (.discard h f)

/-- CAST_COPY_START (R258). -/
def execCastCopyStart (s : State) : Host.Outcome State Fault Refusal := done s s.castCopyStart

/-- CAST_COPY_DONE (R258). -/
def execCastCopyDone (crc : BitVec 32) (s : State) : Host.Outcome State Fault Refusal :=
  done s (s.castCopyDone crc.toNat (s.pairSt == 3))

/-- RESTORE_COPY_DONE (R260). -/
def execRestoreCopyDone (crc : BitVec 32) (s : State) : Host.Outcome State Fault Refusal :=
  done s (s.restoreCopyDone crc.toNat)

/-- CAST_MIRROR_DONE (R258). -/
def execCastMirrorDone (s : State) : Host.Outcome State Fault Refusal := done s s.castMirrorDone

end Sys2Proof.Machine
end

