-- ==== Sys2Proof/Machine/CmdPace.lean ====
section
/-! DEFINITION. Pace, watchdog and management-controller commands (chapter 2, R63, R442). -/

namespace Sys2Proof.Machine

/-- PACE_WINDOW (R32): the lap counts of one 10 µs window. -/
def execPaceWindow (laps : List Nat) (s : State) : Host.Outcome State Fault Refusal :=
  if laps.length == 32 then
    let t := s.tickOf 1 10000
    done s (if t.alive then t.paceWindow laps else t)
  else .fault .illFormed

/-- CONTROL_STEP (R35). -/
def execControlStep (s : State) : Host.Outcome State Fault Refusal := done s (s.tickOf 2 50000).controlStep

/-- WATCHDOG_SAMPLE (R39). -/
def execWatchdogSample (samples : List (Bool × Nat)) (s : State) : Host.Outcome State Fault Refusal :=
  if samples.length == 118 then
    let t := s.tickOf 4 1000
    done s (if t.alive then t.watchdogSample samples else t)
  else .fault .illFormed

/-- STALL_DETECTED (R39-R41). -/
def execStallDetected (region : Fin 118) (s : State) : Host.Outcome State Fault Refusal := done s (s.stall region.val)

/-- REASON_READ (R63): a read of 0x2000.02. -/
def execReasonRead (h : ReqHdr) (s : State) : Host.Outcome State Fault Refusal := served s (.reasonRead h)

/-- MC_WATCHDOG_EXPIRY (R442). -/
def execMcWatchdogExpiry (digestOk : Bool) (s : State) : Host.Outcome State Fault Refusal := done s (s.mcExpiry digestOk)

/-- MC_RESTART_DONE (R442). -/
def execMcRestartDone (s : State) : Host.Outcome State Fault Refusal := done s s.mcRestarted

end Sys2Proof.Machine
end

