-- ==== Sys2Proof/Machine/CmdPackets.lean ====
section
/-! DEFINITION. Frames and packets that arrive (chapters 6, 7, 10, 12, R366). -/

namespace Sys2Proof.Machine

/-- A placed PSN of a mirrored QP whose TLPs are acknowledged becomes DONE (R366). -/
def State.tlpAcked (s : State) (q : Nat) (psn : Psn) : State :=
  match s.qp q with
  | none => s
  | some x => match tget x.resp.window psn.toNat with
    | none => s
    | some r =>
      if r.st != .held || isReadOrAtomic r.opcode then s
      else
        let p := { s.basePacket q x r.opcode with psn := psn, msgId := r.msgId }
        ((s.markDone q p).settleResp 17 q).coalesce q

/-- LINK_FRAME_RX (R226, R227). -/
def execLinkFrameRx (link : Link) (f : RxFrame) (s : State) : Host.Outcome State Fault Refusal :=
  done s (s.linkFrame link.val f)

/-- ETH_FRAME_RX (R239). -/
def execEthFrameRx (port : NetPort) (f : EthFrame) (s : State) : Host.Outcome State Fault Refusal :=
  done s (s.ethFrame port.val f)

/-- PKT_SEND (R153). -/
def execPktSend (a : Arrival) (s : State) : Host.Outcome State Fault Refusal := done s (s.receive (arriveAs a 0x01) none)

/-- PKT_WRITE (R175). -/
def execPktWrite (a : Arrival) (s : State) : Host.Outcome State Fault Refusal := done s (s.receive (arriveAs a 0x03) none)

/-- PKT_WRITE_IMM (R176). -/
def execPktWriteImm (a : Arrival) (s : State) : Host.Outcome State Fault Refusal := done s (s.receive (arriveAs a 0x04) none)

/-- PKT_READ_REQ (R154). -/
def execPktReadReq (a : Arrival) (s : State) : Host.Outcome State Fault Refusal := done s (s.receive (arriveAs a 0x05) none)

/-- PKT_FETCH_ADD_REQ (R180). -/
def execPktFetchAddReq (a : Arrival) (s : State) : Host.Outcome State Fault Refusal :=
  done s (s.receive (arriveAs a 0x06) none)

/-- PKT_CMP_SWAP_REQ (R180). -/
def execPktCmpSwapReq (a : Arrival) (s : State) : Host.Outcome State Fault Refusal :=
  done s (s.receive (arriveAs a 0x07) none)

/-- PKT_READ_RESP (R173). -/
def execPktReadResp (a : Arrival) (s : State) : Host.Outcome State Fault Refusal := done s (s.receive (arriveAs a 0x20) none)

/-- PKT_ATOMIC_RESP (R178). -/
def execPktAtomicResp (a : Arrival) (s : State) : Host.Outcome State Fault Refusal :=
  done s (s.receive (arriveAs a 0x21) none)

/-- PKT_ACK (R168). -/
def execPktAck (a : Arrival) (s : State) : Host.Outcome State Fault Refusal := done s (s.receive (arriveAs a 0x30) none)

/-- PKT_NAK (R157). -/
def execPktNak (a : Arrival) (s : State) : Host.Outcome State Fault Refusal := done s (s.receive (arriveAs a 0x31) none)

/-- PKT_GRANT (R217). -/
def execPktGrant (a : Arrival) (s : State) : Host.Outcome State Fault Refusal := done s (s.receive (arriveAs a 0x32) none)

/-- PKT_COLL_DATA (R282-R285, R339). -/
def execPktCollData (a : Arrival) (rau : Option RauFault) (s : State) : Host.Outcome State Fault Refusal :=
  done s (s.receive (arriveAs a 0x10) rau)

/-- PKT_COLL_PREAMBLE (R275, R289). -/
def execPktCollPreamble (a : Arrival) (s : State) : Host.Outcome State Fault Refusal :=
  done s (s.receive (arriveAs a 0x11) none)

/-- ATOMICOP_DONE (R180). -/
def execAtomicopDone (qpn : Nat) (psn : Psn) (original : Option (BitVec 64)) (s : State) : Host.Outcome State Fault Refusal :=
  done s (s.atomicDone qpn psn original)

/-- PLACEMENT_TLP_ACKNOWLEDGED (R366). -/
def execPlacementTlpAcknowledged (qpn : Nat) (psn : Psn) (s : State) : Host.Outcome State Fault Refusal :=
  done s (s.tlpAcked qpn psn)

end Sys2Proof.Machine
end

