-- ==== Sys2Proof/Machine/CmdPorts.lean ====
section
/-! DEFINITION. Port complex and host port commands (chapter 4, R261). -/

namespace Sys2Proof.Machine

/-- LINK_UP (R83, R85). -/
def execLinkUp (hp : HalfPort) (gts : Nat) (width : Nat) (proto : LinkProto) (protocols : BitVec 4) (s : State) : Host.Outcome State Fault Refusal :=
  done s (s.linkUp hp.val gts width proto protocols)

/-- LINK_RETRY (R83). -/
def execLinkRetry (hp : HalfPort) (s : State) : Host.Outcome State Fault Refusal := done s (s.linkRetry hp.val)

/-- ACC_ENUM_START (R94, R95, R97). -/
def execAccEnumStart (hp : HalfPort) (found : EnumResult) (s : State) : Host.Outcome State Fault Refusal :=
  done s (s.enumerate hp.val found)

/-- ENUM_RETRY_TIMEOUT (R94). -/
def execEnumRetryTimeout (hp : HalfPort) (s : State) : Host.Outcome State Fault Refusal := done s (s.enumTimeout hp.val)

/-- ACC_LINK_DOWN (R105). -/
def execAccLinkDown (hp : HalfPort) (s : State) : Host.Outcome State Fault Refusal := done s (s.accLinkDown hp.val)

/-- PAYLOAD_READ_FAIL (R105, Table 05-13). -/
def execPayloadReadFail (ring : RingId) (kind : ReadKind) (s : State) : Host.Outcome State Fault Refusal :=
  match kind with
  | .payload index => done s (s.payloadFail ring index)
  | .ring => done s (s.ringReadFail ring)
  | .fragment => done s (s.ringReadFail ring)

/-- ACC_PERST_PULSE_END (R104). -/
def execAccPerstPulseEnd (s : State) : Host.Outcome State Fault Refusal := done s s.accPulseEnd

/-- HOST_LOSS (R261, Table 11-9). -/
def execHostLoss (cause : HostLossCause) (s : State) : Host.Outcome State Fault Refusal := done s (s.hostLoss cause)

/-- HOLD_ENTRY_DONE (R261). -/
def execHoldEntryDone (s : State) : Host.Outcome State Fault Refusal := done s s.holdDone

/-- HOST_PERST_DEASSERT (R87). -/
def execHostPerstDeassert (s : State) : Host.Outcome State Fault Refusal := done s s.hostPerstOff

/-- HOST_CONFIG_REQUEST (R87). -/
def execHostConfigRequest (access : HostAccess) (offset : BitVec 20) (data : BitVec 32) (s : State) : Host.Outcome State Fault Refusal :=
  done s (s.hostConfig access offset.toNat data.toNat)

/-- VF_ENABLE (R86). -/
def execVfEnable (enable : Bool) (numVfs : Nat) (s : State) : Host.Outcome State Fault Refusal :=
  done s (s.vfEnable enable numVfs)

/-- HDM_DECODER_COMMIT (R89). -/
def execHdmDecoderCommit (base : BitVec 64) (s : State) : Host.Outcome State Fault Refusal := done s (s.hdmCommit base.toNat)

/-- HDM_READ (R90). -/
def execHdmRead (addr : BitVec 64) (uncorrectable : Bool) (s : State) : Host.Outcome State Fault Refusal :=
  done s (s.hdmRead addr.toNat uncorrectable)

/-- HDM_WRITE (R90): a 64 B write with its byte enables. -/
def execHdmWrite (addr : BitVec 64) (bytes : List (Option Byte)) (s : State) : Host.Outcome State Fault Refusal :=
  if bytes.length == 64 then done s (s.hdmWrite addr.toNat bytes) else .fault .illFormed

/-- HOST_SNOOP (R88). -/
def execHostSnoop (line : BitVec 64) (s : State) : Host.Outcome State Fault Refusal := done s (s.snoop line.toNat)

/-- ACC_UPSTREAM_REQUEST (R96). -/
def execAccUpstreamRequest (hp : HalfPort) (isWrite : Bool) (addr : BitVec 64) (bytes : List Byte) (enables : Bool) (s : State) : Host.Outcome State Fault Refusal :=
  done s (s.upstream hp.val isWrite addr.toNat bytes enables)

/-- IDE_FAIL (R92). -/
def execIdeFail (s : State) : Host.Outcome State Fault Refusal := done s s.ideFails

/-- FLUSH_READ_DONE (R101). -/
def execFlushReadDone (hp : HalfPort) (s : State) : Host.Outcome State Fault Refusal := done s (s.flushDone hp.val)

/-- FLUSH_READ_FAIL (R103). -/
def execFlushReadFail (hp : HalfPort) (cause : FlushFailCause) (s : State) : Host.Outcome State Fault Refusal :=
  done s (s.flushFail hp.val (cause == .linkDown))

/-- CXL_MEM_CMP (R100). -/
def execCxlMemCmp (hp : HalfPort) (s : State) : Host.Outcome State Fault Refusal := done s (s.cmp hp.val)

end Sys2Proof.Machine
end

