-- ==== Sys2Proof/Machine/CmdPower.lean ====
section
/-! DEFINITION. Power, thermal, I3C and JTAG commands (chapter 20). -/

namespace Sys2Proof.Machine

/-- THERMAL_SAMPLE (R461): the readings of the 20 sensors in units of 0.125 °C. -/
def execThermalSample (temps : List Int) (s : State) : Host.Outcome State Fault Refusal :=
  if temps.length == 20 then
    let t := s.tickOf 3 10000
    done s (if t.alive then t.thermalSample temps else t)
  else .fault .illFormed

/-- THERMAL_CAP_RELEASE (R461). -/
def execThermalCapRelease (s : State) : Host.Outcome State Fault Refusal := done s s.capRelease

/-- VIN_SAMPLE (R466). -/
def execVinSample (mv : Nat) (ma : Nat) (mw : Nat) (s : State) : Host.Outcome State Fault Refusal :=
  let t := s.tickOf 8 1000000
  done s (if t.alive then t.vinSample mv ma mw else t)

/-- I3C_ENTDAA (R456). -/
def execI3cEntdaa (addr : BitVec 7) (s : State) : Host.Outcome State Fault Refusal := done s (s.setI3c addr.toNat)

/-- I3C_SETDAA (R456). -/
def execI3cSetdaa (addr : BitVec 7) (s : State) : Host.Outcome State Fault Refusal := done s (s.setdaa addr.toNat)

/-- BYPASS (R458). -/
def execBypass (s : State) : Host.Outcome State Fault Refusal := done s s.jtagBypass

/-- IDCODE (R458). -/
def execIdcode (s : State) : Host.Outcome State Fault Refusal := done s s.jtagIdcode

/-- SAMPLE_PRELOAD (R458). -/
def execSamplePreload (boundary : List Bool) (s : State) : Host.Outcome State Fault Refusal :=
  done s (s.jtagPreload boundary)

/-- EXTEST (R458). -/
def execExtest (boundary : List Bool) (s : State) : Host.Outcome State Fault Refusal := done s (s.jtagExtest 3 boundary)

/-- EXTEST_PULSE (R458). -/
def execExtestPulse (boundary : List Bool) (s : State) : Host.Outcome State Fault Refusal := done s (s.jtagExtest 4 boundary)

/-- EXTEST_TRAIN (R458). -/
def execExtestTrain (boundary : List Bool) (s : State) : Host.Outcome State Fault Refusal := done s (s.jtagExtest 5 boundary)

end Sys2Proof.Machine
end

