-- ==== Sys2Proof/Machine/CmdQueues.lean ====
section
/-! DEFINITION. Work queue commands (chapter 5, R143). -/

namespace Sys2Proof.Machine

/-- DOORBELL (R117-R124): a write into a doorbell aperture, by the slot it hits. -/
def execDoorbell (w : ApertureWrite) (s : State) : Host.Outcome State Fault Refusal := done s (s.aperture w)

/-- CQ_DOORBELL (R120): as DOORBELL, into a CQ slot. -/
def execCqDoorbell (w : ApertureWrite) (s : State) : Host.Outcome State Fault Refusal := done s (s.aperture w)

/-- POLL_READ (R121). -/
def execPollRead (ring : RingId) (own : Bool) (s : State) : Host.Outcome State Fault Refusal := done s (s.poll ring own)

/-- RING_ENTRY_EMPTY (R123). -/
def execRingEntryEmpty (ring : RingId) (s : State) : Host.Outcome State Fault Refusal := done s (s.entryEmpty ring)

/-- REREAD_ISSUE (R123). -/
def execRereadIssue (ring : RingId) (j : Nat) (s : State) : Host.Outcome State Fault Refusal := done s (s.rereadIssue ring j)

/-- REREAD_RETURN (R123). -/
def execRereadReturn (ring : RingId) (j : Nat) (own : Bool) (s : State) : Host.Outcome State Fault Refusal :=
  done s (s.rereadReturn ring j own)

/-- NOP (R134). -/
def execNop (qpn : Nat) (e : SqeBits) (s : State) : Host.Outcome State Fault Refusal :=
  done s (s.consumeHot qpn (sqeAs (sqeOf e) 0x00) endNop)

/-- SEND (R153): a send-ring entry is consumed and queued. -/
def execSend (qpn : Nat) (e : SqeBits) (s : State) : Host.Outcome State Fault Refusal :=
  done s (s.consumeHot qpn (sqeAs (sqeOf e) 0x01) queueWqe)

/-- WRITE (R154): a send-ring entry is consumed and queued. -/
def execWriteOperation (qpn : Nat) (e : SqeBits) (s : State) : Host.Outcome State Fault Refusal :=
  done s (s.consumeHot qpn (sqeAs (sqeOf e) 0x03) queueWqe)

/-- WRITE_IMM (R154): a send-ring entry is consumed and queued. -/
def execWriteImm (qpn : Nat) (e : SqeBits) (s : State) : Host.Outcome State Fault Refusal :=
  done s (s.consumeHot qpn (sqeAs (sqeOf e) 0x04) queueWqe)

/-- READ (R154): a send-ring entry is consumed and queued. -/
def execReadOperation (qpn : Nat) (e : SqeBits) (s : State) : Host.Outcome State Fault Refusal :=
  done s (s.consumeHot qpn (sqeAs (sqeOf e) 0x05) queueWqe)

/-- FETCH_ADD64 (R154): a send-ring entry is consumed and queued. -/
def execFetchAdd64 (qpn : Nat) (e : SqeBits) (s : State) : Host.Outcome State Fault Refusal :=
  done s (s.consumeHot qpn (sqeAs (sqeOf e) 0x06) queueWqe)

/-- CMP_SWAP64 (R154): a send-ring entry is consumed and queued. -/
def execCmpSwap64 (qpn : Nat) (e : SqeBits) (s : State) : Host.Outcome State Fault Refusal :=
  done s (s.consumeHot qpn (sqeAs (sqeOf e) 0x07) queueWqe)

/-- RECV (R153). -/
def execRecv (ring : RingId) (e : SqeBits) (s : State) : Host.Outcome State Fault Refusal := done s (s.takeRecv ring (sqeOf e))

/-- COLLECTIVE (R273). -/
def execCollective (qpn : Nat) (e : SqeBits) (reads : CollReads) (s : State) : Host.Outcome State Fault Refusal :=
  done s (s.collectiveOn qpn (collSqeOf e) reads)

/-- ABORT (R135). -/
def execAbort (qpn : Nat) (e : SqeBits) (s : State) : Host.Outcome State Fault Refusal :=
  done s (s.consumeHot qpn (sqeAs (sqeOf e) 0x1F) abortWqe)

/-- FRAGMENT_READ_DONE (R127). -/
def execFragmentReadDone (ring : RingId) (index : RingIndex) (frags : List FragBits) (s : State) : Host.Outcome State Fault Refusal :=
  done s (s.fragments ring index frags)

/-- EQ_HEAD_WRITE (R143). -/
def execEqHeadWrite (func : Nat) (head : RingIndex) (arm : Bool) (s : State) : Host.Outcome State Fault Refusal :=
  done s (s.eqHead func head arm)

end Sys2Proof.Machine
end

