-- ==== Sys2Proof/Machine/CmdReliab.lean ====
section
/-! DEFINITION. Arithmetic integrity commands (chapter 15). -/

namespace Sys2Proof.Machine

/-- ARBITRATION_VERDICT (R339-R343). -/
def execArbitrationVerdict (unit : Fin 68) (lanes : List ArbLane) (replayPassed : Bool) (info : IssueInfo) (s : State) : Host.Outcome State Fault Refusal :=
  done s (s.arbitrationVerdict unit.val lanes replayPassed info)

/-- PATINA_WRITTEN (R347). -/
def execPatinaWritten (s : State) : Host.Outcome State Fault Refusal := done s s.patinaWritten

/-- ROTATE_TURN (R345). -/
def execRotateTurn (s : State) : Host.Outcome State Fault Refusal :=
  let period := s.obj Row.rotateInterval * 1000000000
  done s (if period = 0 then s else (s.tickOf 10 period).rotate)

/-- ROTATION_SCAN_DONE (R345, R352). -/
def execRotationScanDone (unit : Fin 68) (slicesOk : Bool) (failedPattern : Option Nat) (s : State) : Host.Outcome State Fault Refusal :=
  done s (s.rotationScanDone unit.val slicesOk failedPattern)

/-- PATTERN_IMPORT (R351): a write of 0x9002.03. -/
def execPatternImport (h : ReqHdr) (entries : List PatternIn) (s : State) : Host.Outcome State Fault Refusal :=
  served s (.patternImport h entries)

/-- RECORD_SELECT (R348): a write of 0x9001.03. -/
def execRecordSelect (h : ReqHdr) (id : BitVec 32) (s : State) : Host.Outcome State Fault Refusal :=
  served s (.recordSelect h id)

end Sys2Proof.Machine
end

