-- ==== Sys2Proof/Machine/CmdSecurity.lean ====
section
/-! DEFINITION. Key, SPDM and IDE commands (chapter 18). -/

namespace Sys2Proof.Machine

/-- KEY_LOAD (R407): a write of KEY_CMD. -/
def execKeyLoad (h : ReqHdr) (f : KeyFields) (s : State) : Host.Outcome State Fault Refusal := served s (.keyLoad h f)

/-- KEY_CLEAR (R407): a write of KEY_CMD. -/
def execKeyClear (h : ReqHdr) (f : KeyFields) (s : State) : Host.Outcome State Fault Refusal := served s (.keyClear h f)

/-- SVN_COMMIT (R400). -/
def execSvnCommit (h : ReqHdr) (value : Byte) (s : State) : Host.Outcome State Fault Refusal := served s (.svnCommit h value)

/-- OWNER_ROOT_WRITE (R404, R405). -/
def execOwnerRootWrite (h : ReqHdr) (value : List Byte) (chainsToLyandez : Bool) (flashOk : Bool) (s : State) : Host.Outcome State Fault Refusal :=
  served s (.ownerRootWrite h value chainsToLyandez flashOk)

/-- GET_VERSION (R402). -/
def execGetVersion (via : Via) (s : State) : Host.Outcome State Fault Refusal := done s (s.answerSpdm via .version)

/-- GET_CAPABILITIES (R402). -/
def execGetCapabilities (via : Via) (s : State) : Host.Outcome State Fault Refusal := done s (s.answerSpdm via .capabilities)

/-- NEGOTIATE_ALGORITHMS (R402). -/
def execNegotiateAlgorithms (via : Via) (offered : Bool) (s : State) : Host.Outcome State Fault Refusal :=
  done s (s.answerSpdm via (if offered then .algorithms else .error))

/-- GET_DIGESTS (R401, R402): slot 0 only. -/
def execGetDigests (via : Via) (s : State) : Host.Outcome State Fault Refusal := done s (s.answerSpdm via (.digests 1))

/-- GET_CERTIFICATE (R401). -/
def execGetCertificate (via : Via) (slot : Byte) (offset : BitVec 16) (length : BitVec 16) (s : State) : Host.Outcome State Fault Refusal :=
  done s (s.certificate via slot.toNat offset.toNat length.toNat)

/-- CHALLENGE (R402). -/
def execChallenge (via : Via) (nonce : BitVec 256) (s : State) : Host.Outcome State Fault Refusal :=
  done s (s.answerSpdm via (.challengeAuth nonce))

/-- GET_MEASUREMENTS (R402, R403). -/
def execGetMeasurements (via : Via) (index : Byte) (s : State) : Host.Outcome State Fault Refusal :=
  done s (s.measure via index.toNat)

/-- KEY_EXCHANGE (R404). -/
def execKeyExchange (via : Via) (s : State) : Host.Outcome State Fault Refusal := done s (s.keyExchange via)

/-- FINISH (R404). -/
def execFinish (session : Nat) (rootDigest : Option (List Byte)) (kek : Option (BitVec 256)) (s : State) : Host.Outcome State Fault Refusal :=
  done s (s.finishSession session rootDigest kek)

/-- SPDM_HEARTBEAT (R402). -/
def execSpdmHeartbeat (session : Nat) (s : State) : Host.Outcome State Fault Refusal :=
  done s (s.inSession session fun x s => s.emit (.spdm x.via .heartbeatAck))

/-- KEY_UPDATE (R402). -/
def execKeyUpdate (session : Nat) (s : State) : Host.Outcome State Fault Refusal :=
  done s (s.inSession session fun x s => s.emit (.spdm x.via .keyUpdateAck))

/-- END_SESSION (R406). -/
def execEndSession (session : Nat) (s : State) : Host.Outcome State Fault Refusal :=
  done s (s.inSession session fun x s => (s.emit (.spdm x.via .endSessionAck)).endSession session)

/-- VENDOR_DEFINED_REQUEST (R420). -/
def execVendorDefinedRequest (session : Nat) (m : IdeKm) (s : State) : Host.Outcome State Fault Refusal :=
  done s (s.inSession session fun x s => s.ideKm x m)

/-- ROLL_LEAD_EXPIRY (R418). -/
def execRollLeadExpiry (qpn : Nat) (s : State) : Host.Outcome State Fault Refusal := done s (s.rollLead qpn)

/-- ROLL_GRACE_EXPIRY (R418). -/
def execRollGraceExpiry (qpn : Nat) (s : State) : Host.Outcome State Fault Refusal := done s (s.rollGrace qpn)

/-- IDE_START (R420). -/
def execIdeStart (s : State) : Host.Outcome State Fault Refusal := done s (if s.hostUp then s.ideStart else s)

/-- SESSION_HEARTBEAT_EXPIRY (R402, R406). -/
def execSessionHeartbeatExpiry (session : Nat) (s : State) : Host.Outcome State Fault Refusal :=
  done s (s.endSession session)

end Sys2Proof.Machine
end

