-- ==== Sys2Proof/Machine/CmdTenant.lean ====
section
/-! DEFINITION. Virtual function commands (chapter 17). -/

namespace Sys2Proof.Machine

/-- MSG_TO_PF_WRITE (R386). -/
def execMsgToPfWrite (h : ReqHdr) (offset : BitVec 32) (data : List Byte) (s : State) : Host.Outcome State Fault Refusal :=
  served s (.msgToPfWrite h offset data)

/-- MSG_TO_PF_READ (R386). -/
def execMsgToPfRead (h : ReqHdr) (offset : BitVec 32) (length : BitVec 16) (s : State) : Host.Outcome State Fault Refusal :=
  served s (.msgToPfRead h offset length)

/-- MSG_FROM_PF_WRITE (R386). -/
def execMsgFromPfWrite (h : ReqHdr) (offset : BitVec 32) (data : List Byte) (s : State) : Host.Outcome State Fault Refusal :=
  served s (.msgFromPfWrite h offset data)

/-- FUNCTION_LEVEL_RESET (R388). -/
def execFunctionLevelReset (func : Nat) (s : State) : Host.Outcome State Fault Refusal := done s (s.flr func)

/-- VF_FLR_DONE (R388). -/
def execVfFlrDone (func : Nat) (s : State) : Host.Outcome State Fault Refusal := done s (s.vfFlrDone func)

end Sys2Proof.Machine
end

