-- ==== Sys2Proof/Machine/CmdTimers.lean ====
section
/-! DEFINITION. Transport, context and traffic timers (chapters 6 to 9). -/

namespace Sys2Proof.Machine

/-- A received CNP halves the rate, at most once per 50 µs (R158). -/
def State.cnp (s : State) (q : Nat) : State :=
  s.updQp q fun x =>
    let soon := match x.lastCnp with
      | some t => decide (s.timer < t + 50000)
      | none => false
    if x.type != .roceRc || x.st != .rts || soon then x else { x with roceRate := x.roceRate / 2, lastCnp := some s.timer }

/-- 100 µs without a CNP add 1/16 of port rate (R158). -/
def State.roceFaster (s : State) (q : Nat) : State :=
  match s.qp q with
  | none => s
  | some x =>
    if x.type != .roceRc || x.st != .rts then s
    else
      let id := 65536 + q
      let due := max (x.lastCnp.getD 0) ((tget s.ticks id).getD 0) + 100000
      let s := s.advanceTo due
      let s := { s with ticks := tput s.ticks id s.timer }
      s.updQp q fun x => { x with roceRate := min (2 ^ 32) (x.roceRate + 2 ^ 28) }

/-- ACK_DELAY after the oldest unreported PSN became DONE (R166). -/
def State.ackDelayed (s : State) (q : Nat) : State :=
  match (s.qp q).bind fun x => x.resp.doneSince with
  | none => s
  | some t => (s.advanceTo (t + s.obj Row.ackDelay * 250)).withContext q fun s => s.formAck q

/-- The retransmit timer: timers are evaluated at whole µs (R45, R170). -/
def State.retransmit (s : State) (q : Nat) : State :=
  match s.qp q with
  | none => s
  | some x => match x.timerDue with
    | none => s
    | some t => (s.advanceTo (roundUp (max t s.timer) 1000)).withContext q fun s => s.retransmitTimeout q

/-- A packet outlives its last sending by srtt and REORDER_WINDOW (R171). -/
def State.sackLoss (s : State) (q : Nat) (psn : Psn) : State :=
  match s.qp q with
  | none => s
  | some x => match x.req.flight.find? fun f => f.psn == psn with
    | none => s
    | some f =>
      if !x.maySend then s
      else (s.advanceTo (f.lastSend + x.req.srtt + s.obj Row.reorderWindow * 250 + 1)).withContext q fun s => s.sackResend q

/-- RNR_DELAY ends (R171). -/
def State.rnrOver (s : State) (q : Nat) : State :=
  match s.qp q with
  | none => s
  | some x => match x.req.rnrFrom with
    | none => s
    | some p => if x.st != .rts then s else (s.advanceTo x.req.rnrUntil).withContext q fun s => s.resumeFrom q p fun r => { r with rnrFrom := none }

/-- RETRY_HINT ends (R171). -/
def State.parkOver (s : State) (q : Nat) : State :=
  match s.qp q with
  | none => s
  | some x => match x.req.parkFrom with
    | none => s
    | some p => if x.st != .rts then s else (s.advanceTo x.req.parkUntil).withContext q fun s => s.resumeFrom q p fun r => { r with parkFrom := none }

/-- CNP_RX (R158). -/
def execCnpRx (qpn : Nat) (s : State) : Host.Outcome State Fault Refusal := done s (s.cnp qpn)

/-- ROCE_RATE_INCREASE (R158). -/
def execRoceRateIncrease (qpn : Nat) (s : State) : Host.Outcome State Fault Refusal := done s (s.roceFaster qpn)

/-- ACK_DELAY_EXPIRY (R166). -/
def execAckDelayExpiry (qpn : Nat) (s : State) : Host.Outcome State Fault Refusal := done s (s.ackDelayed qpn)

/-- RETRANSMIT_TIMEOUT (R171). -/
def execRetransmitTimeout (qpn : Nat) (s : State) : Host.Outcome State Fault Refusal := done s (s.retransmit qpn)

/-- SACK_LOSS (R171). -/
def execSackLoss (qpn : Nat) (psn : Psn) (s : State) : Host.Outcome State Fault Refusal := done s (s.sackLoss qpn psn)

/-- RNR_DELAY_EXPIRY (R171). -/
def execRnrDelayExpiry (qpn : Nat) (s : State) : Host.Outcome State Fault Refusal := done s (s.rnrOver qpn)

/-- PARK_PAUSE_EXPIRY (R171). -/
def execParkPauseExpiry (qpn : Nat) (s : State) : Host.Outcome State Fault Refusal := done s (s.parkOver qpn)

/-- CONTEXT_FETCH_DONE (R189, R195, R201). -/
def execContextFetchDone (qpn : Nat) (image : List Byte) (s : State) : Host.Outcome State Fault Refusal :=
  if contextWellFormed image then done s (s.fetchDone State.released qpn image) else .fault .illFormed

/-- CONTEXT_FETCH_FAIL (R200). -/
def execContextFetchFail (qpn : Nat) (s : State) : Host.Outcome State Fault Refusal := done s (s.fetchFail qpn)

/-- FETCH_ENTRY_FREE (R190). -/
def execFetchEntryFree (port : NetPort) (s : State) : Host.Outcome State Fault Refusal := done s (s.fetchEntryFree port.val)

/-- HOT_SLOT_AVAILABLE (R195). -/
def execHotSlotAvailable (s : State) : Host.Outcome State Fault Refusal := done s (s.hotSlot State.released)

/-- EVICTION_SWEEP (R193). -/
def execEvictionSweep (s : State) : Host.Outcome State Fault Refusal := done s s.evictionSweep

/-- SUPPRESSION_LAPSE (R198). -/
def execSuppressionLapse (port : NetPort) (srcModule : ModAddr) (qpn : Qpn) (s : State) : Host.Outcome State Fault Refusal :=
  done s (s.suppressionLapse port.val srcModule qpn)

/-- EGRESS_SCHEDULE (R204-R208, R213): `payload` is what a read of the local side returns. -/
def execEgressSchedule (port : NetPort) (payload : List Byte) (s : State) : Host.Outcome State Fault Refusal :=
  done s (s.schedule port.val payload)

/-- DEMAND_REPORT_TIMER (R215). -/
def execDemandReportTimer (qpn : Nat) (s : State) : Host.Outcome State Fault Refusal := done s (s.demandTimer qpn)

/-- BUCKET_REFILL (R208). -/
def execBucketRefill (s : State) : Host.Outcome State Fault Refusal := done s (s.tickOf 5 1000).bucketTick

/-- GRANT_TICK (R216-R218). -/
def execGrantTick (s : State) : Host.Outcome State Fault Refusal :=
  done s (({ s with freeCount := s.freeCount + 8 }.tickOf 6 1000).grantTick s.headDelays)

/-- CREDIT_EXPIRY (R214). -/
def execCreditExpiry (qpn : Nat) (s : State) : Host.Outcome State Fault Refusal := done s (s.creditExpiry qpn)

/-- TM_SAMPLE (R219). -/
def execTmSample (s : State) : Host.Outcome State Fault Refusal :=
  done s (s.tickOf 7 (s.obj Row.tmSampleInterval * 1000)).tmSample

/-- HIST_CLEAR (R219): a write of 0x7000.09. -/
def execHistClear (h : ReqHdr) (value : Byte) (s : State) : Host.Outcome State Fault Refusal := served s (.histClear h value)

end Sys2Proof.Machine
end

