-- ==== Sys2Proof/Machine/CmdTwin.lean ====
section
/-! DEFINITION. Twin commands (chapter 16). -/

namespace Sys2Proof.Machine

/-- HEARTBEAT_TIMER (R357). -/
def execHeartbeatTimer (s : State) : Host.Outcome State Fault Refusal :=
  done s (s.tickOf 9 (s.obj Row.heartbeatInterval)).heartbeatTick

/-- HEARTBEAT (R357, R368): the same on either sub-link. -/
def execHeartbeat (_sublink : Fin 2) (hb : Heartbeat) (s : State) : Host.Outcome State Fault Refusal :=
  done s (s.heartbeat hb)

/-- PARTNER_LOSS_TIMEOUT (R368). -/
def execPartnerLossTimeout (s : State) : Host.Outcome State Fault Refusal := done s s.lossTimeout

/-- RECORDS (R364). -/
def execRecords (_sublink : Fin 2) (rs : List MirrorRecord) (s : State) : Host.Outcome State Fault Refusal :=
  done s (s.records rs)

/-- RECORD_ACK (R363, R364). -/
def execRecordAck (rseq : BitVec 32) (s : State) : Host.Outcome State Fault Refusal := done s (s.recordAck rseq.toNat)

/-- BULK (R356, R376, R378). -/
def execBulk (b : BulkData) (s : State) : Host.Outcome State Fault Refusal := done s (s.bulk b)

/-- GRAFT_FORWARD_RX (R362). -/
def execGraftForwardRx (a : Arrival) (s : State) : Host.Outcome State Fault Refusal := done s (s.admitPkt a none)

/-- YIELD_WRITE_DISCARD (R369). -/
def execYieldWriteDiscard (s : State) : Host.Outcome State Fault Refusal := done s s.yieldDiscard

/-- PAIR_SYNC_DONE (R378). -/
def execPairSyncDone (s : State) : Host.Outcome State Fault Refusal := done s s.syncDone

end Sys2Proof.Machine
end

