-- ==== Sys2Proof/Machine/Dispatch.lean ====
section
/-! DEFINITION. One arm per command. -/

namespace Sys2Proof.Machine

def exec (i : Instr) (s : State) : Host.Outcome State Fault Refusal :=
  match i with
  | .powerGood mrstHigh pairId => Sys2Proof.Machine.execPowerGood mrstHigh pairId s
  | .powerGoodFall cause => Sys2Proof.Machine.execPowerGoodFall cause s
  | .thermalTrip sensor reading => Sys2Proof.Machine.execThermalTrip sensor reading s
  | .mrstNAssert ns => Sys2Proof.Machine.execMrstNAssert ns s
  | .mrstNDeassert => Sys2Proof.Machine.execMrstNDeassert s
  | .moduleReset h value => Sys2Proof.Machine.execModuleReset h value s
  | .resetRelease pairId => Sys2Proof.Machine.execResetRelease pairId s
  | .flashDirectoryRead readable => Sys2Proof.Machine.execFlashDirectoryRead readable s
  | .bootTimeLimit => Sys2Proof.Machine.execBootTimeLimit s
  | .referencesPhaseDone monitors fused temps => Sys2Proof.Machine.execReferencesPhaseDone monitors fused temps s
  | .analogueCheckDone check passed => Sys2Proof.Machine.execAnalogueCheckDone check passed s
  | .mbistDone repairs bufferOk => Sys2Proof.Machine.execMbistDone repairs bufferOk s
  | .sliceStart slice hdr => Sys2Proof.Machine.execSliceStart slice hdr s
  | .sliceDone slice response patternsOk => Sys2Proof.Machine.execSliceDone slice response patternsOk s
  | .sliceTimeout slice => Sys2Proof.Machine.execSliceTimeout slice s
  | .fwLoadDone v => Sys2Proof.Machine.execFwLoadDone v s
  | .paceWindow laps => Sys2Proof.Machine.execPaceWindow laps s
  | .controlStep => Sys2Proof.Machine.execControlStep s
  | .watchdogSample samples => Sys2Proof.Machine.execWatchdogSample samples s
  | .stallDetected region => Sys2Proof.Machine.execStallDetected region s
  | .reasonRead h => Sys2Proof.Machine.execReasonRead h s
  | .mcWatchdogExpiry digestOk => Sys2Proof.Machine.execMcWatchdogExpiry digestOk s
  | .mcRestartDone => Sys2Proof.Machine.execMcRestartDone s
  | .read h index sub offset length => Sys2Proof.Machine.execRead h index sub offset length s
  | .write h index sub offset data => Sys2Proof.Machine.execWrite h index sub offset data s
  | .describe h index name => Sys2Proof.Machine.execDescribe h index name s
  | .next h index name => Sys2Proof.Machine.execNext h index name s
  | .store h index sub offset length => Sys2Proof.Machine.execStore h index sub offset length s
  | .storeDone ok => Sys2Proof.Machine.execStoreDone ok s
  | .defaults h index sub offset length => Sys2Proof.Machine.execDefaults h index sub offset length s
  | .operateWrite1 h => Sys2Proof.Machine.execOperateWrite1 h s
  | .operateWrite0 h => Sys2Proof.Machine.execOperateWrite0 h s
  | .drainEnd => Sys2Proof.Machine.execDrainEnd s
  | .drainTimeout => Sys2Proof.Machine.execDrainTimeout s
  | .holdToConfig h => Sys2Proof.Machine.execHoldToConfig h s
  | .operateWriteSafe h value => Sys2Proof.Machine.execOperateWriteSafe h value s
  | .enableWrite1 h subsystem => Sys2Proof.Machine.execEnableWrite1 h subsystem s
  | .enableWrite0 h subsystem => Sys2Proof.Machine.execEnableWrite0 h subsystem s
  | .softReset h subsystem => Sys2Proof.Machine.execSoftReset h subsystem s
  | .linkUp hp gts width proto protocols => Sys2Proof.Machine.execLinkUp hp gts width proto protocols s
  | .linkRetry hp => Sys2Proof.Machine.execLinkRetry hp s
  | .accEnumStart hp found => Sys2Proof.Machine.execAccEnumStart hp found s
  | .enumRetryTimeout hp => Sys2Proof.Machine.execEnumRetryTimeout hp s
  | .accLinkDown hp => Sys2Proof.Machine.execAccLinkDown hp s
  | .payloadReadFail ring kind => Sys2Proof.Machine.execPayloadReadFail ring kind s
  | .accPerstPulseEnd => Sys2Proof.Machine.execAccPerstPulseEnd s
  | .hostLoss cause => Sys2Proof.Machine.execHostLoss cause s
  | .holdEntryDone => Sys2Proof.Machine.execHoldEntryDone s
  | .hostPerstDeassert => Sys2Proof.Machine.execHostPerstDeassert s
  | .hostConfigRequest access offset data => Sys2Proof.Machine.execHostConfigRequest access offset data s
  | .vfEnable enable numVfs => Sys2Proof.Machine.execVfEnable enable numVfs s
  | .hdmDecoderCommit base => Sys2Proof.Machine.execHdmDecoderCommit base s
  | .hdmRead addr uncorrectable => Sys2Proof.Machine.execHdmRead addr uncorrectable s
  | .hdmWrite addr bytes => Sys2Proof.Machine.execHdmWrite addr bytes s
  | .hostSnoop line => Sys2Proof.Machine.execHostSnoop line s
  | .accUpstreamRequest hp isWrite addr bytes enables => Sys2Proof.Machine.execAccUpstreamRequest hp isWrite addr bytes enables s
  | .ideFail => Sys2Proof.Machine.execIdeFail s
  | .flushReadDone hp => Sys2Proof.Machine.execFlushReadDone hp s
  | .flushReadFail hp cause => Sys2Proof.Machine.execFlushReadFail hp cause s
  | .doorbell w => Sys2Proof.Machine.execDoorbell w s
  | .cqDoorbell w => Sys2Proof.Machine.execCqDoorbell w s
  | .pollRead ring own => Sys2Proof.Machine.execPollRead ring own s
  | .ringEntryEmpty ring => Sys2Proof.Machine.execRingEntryEmpty ring s
  | .rereadIssue ring j => Sys2Proof.Machine.execRereadIssue ring j s
  | .rereadReturn ring j own => Sys2Proof.Machine.execRereadReturn ring j own s
  | .nop qpn e => Sys2Proof.Machine.execNop qpn e s
  | .send qpn e => Sys2Proof.Machine.execSend qpn e s
  | .recv ring e => Sys2Proof.Machine.execRecv ring e s
  | .writeOperation qpn e => Sys2Proof.Machine.execWriteOperation qpn e s
  | .writeImm qpn e => Sys2Proof.Machine.execWriteImm qpn e s
  | .readOperation qpn e => Sys2Proof.Machine.execReadOperation qpn e s
  | .fetchAdd64 qpn e => Sys2Proof.Machine.execFetchAdd64 qpn e s
  | .cmpSwap64 qpn e => Sys2Proof.Machine.execCmpSwap64 qpn e s
  | .collective qpn e reads => Sys2Proof.Machine.execCollective qpn e reads s
  | .abort qpn e => Sys2Proof.Machine.execAbort qpn e s
  | .fragmentReadDone ring index frags => Sys2Proof.Machine.execFragmentReadDone ring index frags s
  | .egressSchedule port payload => Sys2Proof.Machine.execEgressSchedule port payload s
  | .demandReportTimer qpn => Sys2Proof.Machine.execDemandReportTimer qpn s
  | .eqHeadWrite func head arm => Sys2Proof.Machine.execEqHeadWrite func head arm s
  | .createEq c f => Sys2Proof.Machine.execCreateEq c f s
  | .createCq c f => Sys2Proof.Machine.execCreateCq c f s
  | .createSrq c f => Sys2Proof.Machine.execCreateSrq c f s
  | .createQp c f => Sys2Proof.Machine.execCreateQp c f s
  | .modifyQp c f => Sys2Proof.Machine.execModifyQp c f s
  | .regRegion c f => Sys2Proof.Machine.execRegRegion c f s
  | .createComm c f => Sys2Proof.Machine.execCreateComm c f s
  | .queryQp c => Sys2Proof.Machine.execQueryQp c s
  | .loadSchedule c f => Sys2Proof.Machine.execLoadSchedule c f s
  | .arithBind c f => Sys2Proof.Machine.execArithBind c f s
  | .loadKernel c f => Sys2Proof.Machine.execLoadKernel c f s
  | .defineShard c f => Sys2Proof.Machine.execDefineShard c f s
  | .shardXfer c f => Sys2Proof.Machine.execShardXfer c f s
  | .shardXferDone func shard outcome moved bytes => Sys2Proof.Machine.execShardXferDone func shard outcome moved bytes s
  | .freezeFunc c => Sys2Proof.Machine.execFreezeFunc c s
  | .funcFrozen func => Sys2Proof.Machine.execFuncFrozen func s
  | .saveFunc c f imageLength => Sys2Proof.Machine.execSaveFunc c f imageLength s
  | .saveDone func ok => Sys2Proof.Machine.execSaveDone func ok s
  | .restoreFunc c f alias_ img => Sys2Proof.Machine.execRestoreFunc c f alias_ img s
  | .restoreDone func => Sys2Proof.Machine.execRestoreDone func s
  | .destroyEq c => Sys2Proof.Machine.execDestroyEq c s
  | .destroyCq c => Sys2Proof.Machine.execDestroyCq c s
  | .destroySrq c => Sys2Proof.Machine.execDestroySrq c s
  | .destroyQp c => Sys2Proof.Machine.execDestroyQp c s
  | .qpFree qpn => Sys2Proof.Machine.execQpFree qpn s
  | .resetCq c => Sys2Proof.Machine.execResetCq c s
  | .deregRegion c => Sys2Proof.Machine.execDeregRegion c s
  | .destroyComm c => Sys2Proof.Machine.execDestroyComm c s
  | .commFree func comm => Sys2Proof.Machine.execCommFree func comm s
  | .unloadSchedule c => Sys2Proof.Machine.execUnloadSchedule c s
  | .arithUnbind c => Sys2Proof.Machine.execArithUnbind c s
  | .unloadKernel c => Sys2Proof.Machine.execUnloadKernel c s
  | .removeShard c => Sys2Proof.Machine.execRemoveShard c s
  | .forwardFunc c target => Sys2Proof.Machine.execForwardFunc c target s
  | .thawFunc c => Sys2Proof.Machine.execThawFunc c s
  | .linkFrameRx link f => Sys2Proof.Machine.execLinkFrameRx link f s
  | .ethFrameRx port f => Sys2Proof.Machine.execEthFrameRx port f s
  | .pktSend a => Sys2Proof.Machine.execPktSend a s
  | .pktWrite a => Sys2Proof.Machine.execPktWrite a s
  | .pktWriteImm a => Sys2Proof.Machine.execPktWriteImm a s
  | .pktReadReq a => Sys2Proof.Machine.execPktReadReq a s
  | .pktFetchAddReq a => Sys2Proof.Machine.execPktFetchAddReq a s
  | .pktCmpSwapReq a => Sys2Proof.Machine.execPktCmpSwapReq a s
  | .pktReadResp a => Sys2Proof.Machine.execPktReadResp a s
  | .pktAtomicResp a => Sys2Proof.Machine.execPktAtomicResp a s
  | .pktAck a => Sys2Proof.Machine.execPktAck a s
  | .pktNak a => Sys2Proof.Machine.execPktNak a s
  | .pktGrant a => Sys2Proof.Machine.execPktGrant a s
  | .pktCollData a rau => Sys2Proof.Machine.execPktCollData a rau s
  | .pktCollPreamble a => Sys2Proof.Machine.execPktCollPreamble a s
  | .atomicopDone qpn psn original => Sys2Proof.Machine.execAtomicopDone qpn psn original s
  | .cnpRx qpn => Sys2Proof.Machine.execCnpRx qpn s
  | .roceRateIncrease qpn => Sys2Proof.Machine.execRoceRateIncrease qpn s
  | .ackDelayExpiry qpn => Sys2Proof.Machine.execAckDelayExpiry qpn s
  | .retransmitTimeout qpn => Sys2Proof.Machine.execRetransmitTimeout qpn s
  | .sackLoss qpn psn => Sys2Proof.Machine.execSackLoss qpn psn s
  | .rnrDelayExpiry qpn => Sys2Proof.Machine.execRnrDelayExpiry qpn s
  | .parkPauseExpiry qpn => Sys2Proof.Machine.execParkPauseExpiry qpn s
  | .contextFetchDone qpn image => Sys2Proof.Machine.execContextFetchDone qpn image s
  | .contextFetchFail qpn => Sys2Proof.Machine.execContextFetchFail qpn s
  | .fetchEntryFree port => Sys2Proof.Machine.execFetchEntryFree port s
  | .hotSlotAvailable => Sys2Proof.Machine.execHotSlotAvailable s
  | .evictionSweep => Sys2Proof.Machine.execEvictionSweep s
  | .suppressionLapse port srcModule qpn => Sys2Proof.Machine.execSuppressionLapse port srcModule qpn s
  | .bucketRefill => Sys2Proof.Machine.execBucketRefill s
  | .grantTick => Sys2Proof.Machine.execGrantTick s
  | .creditExpiry qpn => Sys2Proof.Machine.execCreditExpiry qpn s
  | .tmSample => Sys2Proof.Machine.execTmSample s
  | .histClear h value => Sys2Proof.Machine.execHistClear h value s
  | .pfcFrameRx port priority quanta => Sys2Proof.Machine.execPfcFrameRx port priority quanta s
  | .pfcPauseExpiry port vc => Sys2Proof.Machine.execPfcPauseExpiry port vc s
  | .pauseFrameRx port => Sys2Proof.Machine.execPauseFrameRx port s
  | .controlFrameTimer link => Sys2Proof.Machine.execControlFrameTimer link s
  | .credit link frame => Sys2Proof.Machine.execCredit link frame s
  | .replayReq link frame => Sys2Proof.Machine.execReplayReq link frame s
  | .retrain link frame lanes => Sys2Proof.Machine.execRetrain link frame lanes s
  | .splitNotice link frame => Sys2Proof.Machine.execSplitNotice link frame s
  | .pairNotice link frame => Sys2Proof.Machine.execPairNotice link frame s
  | .replayTimer link => Sys2Proof.Machine.execReplayTimer link s
  | .laneFault lane lanes => Sys2Proof.Machine.execLaneFault lane lanes s
  | .laneSerWindow lane errors lanes => Sys2Proof.Machine.execLaneSerWindow lane errors lanes s
  | .laneRetryTimer link lanes => Sys2Proof.Machine.execLaneRetryTimer link lanes s
  | .portDown link cause => Sys2Proof.Machine.execPortDown link cause s
  | .portRetrainTimer link => Sys2Proof.Machine.execPortRetrainTimer link s
  | .portUp link lanes => Sys2Proof.Machine.execPortUp link lanes s
  | .stuckTimeout port vc => Sys2Proof.Machine.execStuckTimeout port vc s
  | .routingModeWrite h value => Sys2Proof.Machine.execRoutingModeWrite h value s
  | .partitionWrite h sub value => Sys2Proof.Machine.execPartitionWrite h sub value s
  | .initDone => Sys2Proof.Machine.execInitDone s
  | .memUe addr consumer => Sys2Proof.Machine.execMemUe addr consumer s
  | .scrubRead channel result => Sys2Proof.Machine.execScrubRead channel result s
  | .channelIdle channel => Sys2Proof.Machine.execChannelIdle channel s
  | .memHot package mr4 above85 => Sys2Proof.Machine.execMemHot package mr4 above85 s
  | .take h f => Sys2Proof.Machine.execTake h f s
  | .restore h f => Sys2Proof.Machine.execRestore h f s
  | .discard h f => Sys2Proof.Machine.execDiscard h f s
  | .castCopyStart => Sys2Proof.Machine.execCastCopyStart s
  | .castCopyDone crc => Sys2Proof.Machine.execCastCopyDone crc s
  | .restoreCopyDone crc => Sys2Proof.Machine.execRestoreCopyDone crc s
  | .castMirrorDone => Sys2Proof.Machine.execCastMirrorDone s
  | .collLeaveQueued comm k inputs => Sys2Proof.Machine.execCollLeaveQueued comm k inputs s
  | .collSlow comm k => Sys2Proof.Machine.execCollSlow comm k s
  | .collTimeout comm k => Sys2Proof.Machine.execCollTimeout comm k s
  | .applyBegin comm k => Sys2Proof.Machine.execApplyBegin comm k s
  | .applyGroup comm k group rau => Sys2Proof.Machine.execApplyGroup comm k group rau s
  | .applyPhaseEnd comm k => Sys2Proof.Machine.execApplyPhaseEnd comm k s
  | .arbitrationVerdict unit lanes replayPassed info => Sys2Proof.Machine.execArbitrationVerdict unit lanes replayPassed info s
  | .patinaWritten => Sys2Proof.Machine.execPatinaWritten s
  | .rotateTurn => Sys2Proof.Machine.execRotateTurn s
  | .rotationScanDone unit slicesOk failedPattern => Sys2Proof.Machine.execRotationScanDone unit slicesOk failedPattern s
  | .patternImport h entries => Sys2Proof.Machine.execPatternImport h entries s
  | .recordSelect h id => Sys2Proof.Machine.execRecordSelect h id s
  | .heartbeatTimer => Sys2Proof.Machine.execHeartbeatTimer s
  | .heartbeat sublink hb => Sys2Proof.Machine.execHeartbeat sublink hb s
  | .partnerLossTimeout => Sys2Proof.Machine.execPartnerLossTimeout s
  | .records sublink rs => Sys2Proof.Machine.execRecords sublink rs s
  | .recordAck rseq => Sys2Proof.Machine.execRecordAck rseq s
  | .bulk b => Sys2Proof.Machine.execBulk b s
  | .graftForwardRx a => Sys2Proof.Machine.execGraftForwardRx a s
  | .yieldWriteDiscard => Sys2Proof.Machine.execYieldWriteDiscard s
  | .pairSyncDone => Sys2Proof.Machine.execPairSyncDone s
  | .msgToPfWrite h offset data => Sys2Proof.Machine.execMsgToPfWrite h offset data s
  | .msgToPfRead h offset length => Sys2Proof.Machine.execMsgToPfRead h offset length s
  | .msgFromPfWrite h offset data => Sys2Proof.Machine.execMsgFromPfWrite h offset data s
  | .functionLevelReset func => Sys2Proof.Machine.execFunctionLevelReset func s
  | .vfFlrDone func => Sys2Proof.Machine.execVfFlrDone func s
  | .keyLoad h f => Sys2Proof.Machine.execKeyLoad h f s
  | .keyClear h f => Sys2Proof.Machine.execKeyClear h f s
  | .svnCommit h value => Sys2Proof.Machine.execSvnCommit h value s
  | .ownerRootWrite h value chainsToLyandez flashOk => Sys2Proof.Machine.execOwnerRootWrite h value chainsToLyandez flashOk s
  | .getVersion via => Sys2Proof.Machine.execGetVersion via s
  | .getCapabilities via => Sys2Proof.Machine.execGetCapabilities via s
  | .negotiateAlgorithms via offered => Sys2Proof.Machine.execNegotiateAlgorithms via offered s
  | .getDigests via => Sys2Proof.Machine.execGetDigests via s
  | .getCertificate via slot offset length => Sys2Proof.Machine.execGetCertificate via slot offset length s
  | .challenge via nonce => Sys2Proof.Machine.execChallenge via nonce s
  | .getMeasurements via index => Sys2Proof.Machine.execGetMeasurements via index s
  | .keyExchange via => Sys2Proof.Machine.execKeyExchange via s
  | .finish session rootDigest kek => Sys2Proof.Machine.execFinish session rootDigest kek s
  | .spdmHeartbeat session => Sys2Proof.Machine.execSpdmHeartbeat session s
  | .keyUpdate session => Sys2Proof.Machine.execKeyUpdate session s
  | .endSession session => Sys2Proof.Machine.execEndSession session s
  | .vendorDefinedRequest session m => Sys2Proof.Machine.execVendorDefinedRequest session m s
  | .rollLeadExpiry qpn => Sys2Proof.Machine.execRollLeadExpiry qpn s
  | .rollGraceExpiry qpn => Sys2Proof.Machine.execRollGraceExpiry qpn s
  | .fwCommit h value v => Sys2Proof.Machine.execFwCommit h value v s
  | .fwCommitDone ok => Sys2Proof.Machine.execFwCommitDone ok s
  | .thermalSample temps => Sys2Proof.Machine.execThermalSample temps s
  | .thermalCapRelease => Sys2Proof.Machine.execThermalCapRelease s
  | .vinSample mv ma mw => Sys2Proof.Machine.execVinSample mv ma mw s
  | .i3cEntdaa addr => Sys2Proof.Machine.execI3cEntdaa addr s
  | .i3cSetdaa addr => Sys2Proof.Machine.execI3cSetdaa addr s
  | .bypass => Sys2Proof.Machine.execBypass s
  | .idcode => Sys2Proof.Machine.execIdcode s
  | .samplePreload boundary => Sys2Proof.Machine.execSamplePreload boundary s
  | .extest boundary => Sys2Proof.Machine.execExtest boundary s
  | .extestPulse boundary => Sys2Proof.Machine.execExtestPulse boundary s
  | .extestTrain boundary => Sys2Proof.Machine.execExtestTrain boundary s
  | .placementTlpAcknowledged qpn psn => Sys2Proof.Machine.execPlacementTlpAcknowledged qpn psn s
  | .cxlMemCmp hp => Sys2Proof.Machine.execCxlMemCmp hp s
  | .ideStart => Sys2Proof.Machine.execIdeStart s
  | .sessionHeartbeatExpiry session => Sys2Proof.Machine.execSessionHeartbeatExpiry session s

end Sys2Proof.Machine
end

