-- ==== Sys2Proof/Safety.lean ====
section
/-! DEFINITION. What counts as a safe state and a safe run, and the conditions under which a command has its own effect and
nothing else follows from it, in the terms the statements use. -/

namespace Sys2Proof.Machine

/-! ## Safe states and runs -/

/-- Every waiting command is one that can reach the module. -/
def State.queueWellFormed (s : State) : Bool := s.pending.all Instr.wellFormed

/-- The fixed numbers of like things: eight half-ports, six native links, four cast slots and two configuration copies. -/
def State.shapeWellFormed (s : State) : Bool :=
  s.halfPorts.length == 8 && s.fabric.links.length == 6 && s.mem.dir.length == 4 && s.flash.copies.length == 2

/-- A table's keys strictly rise. -/
def rising {α : Type} : Tab α → Bool
  | [] => true
  | (k, _) :: t => t.all (fun p => decide (k < p.1)) && rising t

/-- Module memory and the table of object values are in their canonical form, and the fixed numbers stand. -/
def State.wellFormed (s : State) : Bool := s.mem.wf && rising s.od && s.shapeWellFormed

/-- The last occurrence of periodic action `id` fell on a whole multiple of its period. -/
def State.onBeat (s : State) (id period : Nat) : Bool := ((tget s.ticks id).getD 0) % period == 0

/-- A set of numbers is listed once each, in rising order. -/
def strictly : List Nat → Bool
  | [] => true
  | a :: t => t.all (fun b => decide (a < b)) && strictly t

/-- Every table of the state that a command reads by key is in its canonical form. -/
def State.tablesRise (s : State) : Bool :=
  rising s.blobs && rising s.eqs && rising s.wq.qps && rising s.wq.cqs && rising s.wq.srqs && rising s.wq.regions &&
    rising s.colls.comms && rising s.colls.scheds && rising s.colls.bindings && rising s.colls.kernels && rising s.colls.shards &&
    rising s.tenant.funcs && rising s.twin.shadows && rising s.security.slots && rising s.security.sessions &&
    rising s.security.linkSlots && rising s.traffic.vcTokens && rising s.traffic.egress && rising s.fabric.laneRuns &&
    rising s.flash.records && rising s.ticks && s.fabric.links.all (fun l => rising l.ingress) && strictly s.fabric.pairDead &&
    strictly s.security.linkPending && strictly s.security.linkActive

/-- The actions whose period the spec fixes fall on whole multiples of it, as the local timer counts them (R45). -/
def State.beatsKept (s : State) : Bool :=
  ([(1, 10000), (2, 50000), (3, 10000), (4, 1000), (5, 1000), (6, 1000), (8, 1000000)].all fun p => s.onBeat p.1 p.2) &&
    ((List.range 6).all fun l => s.onBeat (16 + l) 500) && ((List.range 96).all fun c => s.onBeat (32 + c) 1380000)

/-- All that the statements assume of a state's form: well-formed, every table canonical, the fixed periods kept. -/
def State.canonical (s : State) : Bool := s.wellFormed && s.tablesRise && s.beatsKept

/-- The module after a loss of power: reset, off, with what no power loss takes (R428, R454). -/
def State.withoutPower (s : State) : State :=
  { State.reset with
    pending := s.pending, out := s.out, freeCount := s.freeCount, mode := .off, od := [], flash := s.cutFlash.flash
    host := { State.reset.host with perst := s.host.perst }
    power := { State.reset.power with good := false, boundary := s.power.boundary }
    boot := { State.reset.boot with mrst := s.boot.mrst, fullNext := true, nextCause := 1 } }

/-- `n` steps, none of which stops, lead from `s` to `t`. -/
def State.reaches : Nat → State → State → Prop
  | 0, s, t => t = s
  | n + 1, s, t => ∃ m, step s = .next m ∧ m.reaches n t

/-! ## When nothing follows from a command -/

/-- The next packet of an ingress buffer of a network port waits for nothing: every such buffer is empty. -/
def State.ingressEmpty (s : State) : Bool :=
  (List.range 4).all fun l => (List.range 8).all fun v => match tget (s.link l).ingress v with
    | some (_ :: _) => false
    | _ => true

/-- A link that runs owes no report of credit (R224). -/
def State.noCreditDue (s : State) : Bool :=
  (List.range 6).all fun l =>
    !((s.link l).up && s.native l &&
      (List.range 8).any fun v => decide (32 ≤ ((s.link l).freed.getD v 0 + 65536 - (s.link l).reported.getD v 0) % 65536))

/-- No packet at the head of an egress queue lacks credit. -/
def State.noHeadStalled (s : State) : Bool :=
  (List.range 4).all fun p => (List.range 8).all fun v => match (s.egressVc p v).queue with
    | k :: _ => !decide (s.linkCredit p v < frameUnits k.pkt)
    | [] => true

/-- The graft unit has nothing to send and keeps the sub-link that it has. -/
def State.graftIdle (s : State) : Bool :=
  s.twin.toSend.isEmpty && s.twin.queue.isEmpty && s.castBulk.isNone &&
    (match s.twin.via with
      | some l => s.portUp l
      | none => s.graftLink.isNone)

/-- The traffic manager has noted no offer, and no empty queue keeps a deficit (R206). -/
def State.queuesSettled (s : State) : Bool :=
  s.traffic.offers.isEmpty && s.traffic.egress.all fun e => e.2.deficit == 0 || !e.2.queue.isEmpty

/-- Nothing waits that a command's end sets going: no queue pair, completion, error, record, packet, memory access or write-back,
no request and no work of the management controller, and no region to flush. -/
def State.quiet (s : State) : Bool :=
  s.wq.qps.isEmpty && s.wq.erring.isEmpty && s.wq.cqWait.isEmpty && s.wq.outbox.isEmpty &&
    s.wq.regions.all (fun p => p.2.freeing != some 0) && s.ctx.writeback.all (fun w => decide (s.timer ≤ w.2)) &&
    s.mem.queues.isEmpty && s.mgmt.busy.isNone && s.mgmt.waiting.isEmpty && s.mgmt.inbox.isEmpty && s.graftIdle && s.queuesSettled &&
    (!s.firmwareRuns || (!(s.funcSt s.shares == 6 && !s.pfHolds) && (s.mem.cast.isSome || s.mem.paired == s.enableObj 11))) &&
    s.ingressEmpty && s.noCreditDue

/-! ## Dictionary requests -/

/-- The management controller takes a request at once (R61, R62): the module answers on its transport, no work and no request is
before it, and its bytes are not those of the transport's last request. -/
def State.takes (s : State) (r : Req) (is : List Instr) : Bool :=
  s.listens r.hdr.via && s.mgmt.busy.isNone && s.mgmt.waiting.isEmpty && (s.storedFor r is).isNone

/-- The controller takes request `r` of command `c`, and it passes every rule of R467 for the instances `is`, subindex offset
`k`, of object `o`; `shared` when they are a group's. -/
def State.admits (s : State) (c : Instr) (r : Req) (o : ObjRow) (is : List Nat) (k : Nat) (shared : Bool) : Prop :=
  reqOf c = some r ∧ s.takes r [c] = true ∧ s.check467 r (s.envOf c r).lyandez = .object o is k shared

/-- The controller takes request `r` of command `c`, and R467 admits it as a write of instance `i` of the object whose index and
subindex are `n`. -/
def State.writesTo (s : State) (c : Instr) (r : Req) (n i : Nat) : Bool :=
  decide (reqOf c = some r) && s.takes r [c] && match s.check467 r (s.envOf c r).lyandez with
  | .object o is k _ => is == [i] && k == 0 && decide (o.index * 256 + o.sub = n)
  | _ => false

/-- Objects whose write does no more than store the value: those that are no command, no enable and no part of the layout. -/
def plainObject (o : ObjRow) : Bool :=
  let n := o.index * 256 + o.sub
  !([0x200001, 0x201101, 0x201103, 0x250002, 0x250004, 0x400001, 0x700009, 0x760004, 0x76000A, 0x600101, 0x800003, 0x800102, 0x800201,
      0x900203, 0xC00101, 0xC00103].contains n || (decide (0x600001 ≤ n) && decide (n ≤ 0x600006)))

/-- The packet that carries a response to a requester on QP 0 (R60); none on the other transports. -/
def State.replyPackets (s : State) (p : Response) : List QPkt :=
  match p.via with
  | .qp0 m q => [s.qp0Message m q p.bytes]
  | _ => []

/-- The answer `st` with `data` to the admitted request `r` of command `c` went out, as a packet too on QP 0, and stands stored for its
endpoint (R62). -/
def State.answeredWith (s u : State) (c : Instr) (r : Req) (st : Nat) (data : List Byte) : Prop :=
  u.out = s.out ++ [.response (responseOf r st data)] ∧
    u.wq.outbox = s.wq.outbox ++ s.replyPackets (responseOf r st data) ∧
    u.mgmt.answered =
      (s.mgmt.answered.filter fun a => a.1 != r.hdr.via) ++ [(r.hdr.via, requestBytes [c], responseOf r st data)] ∧
    u.mgmt.busy = none ∧ u.mgmt.waiting = []

/-- Nothing differs but what was presented, the controller's own books and the packets that wait for the router. -/
def State.onlyAnswered (s u : State) : Prop :=
  u = { s with out := u.out, mgmt := u.mgmt, wq := { s.wq with outbox := u.wq.outbox } }

/-- The same, but for the table of object values. -/
def State.onlyObjects (s u : State) : Prop :=
  u = { s with out := u.out, mgmt := u.mgmt, od := u.od, wq := { s.wq with outbox := u.wq.outbox } }

/-- Half-port `h` has presented further records at most. -/
def State.portKept (s u : State) (h : Nat) : Prop := u.hp h = { s.hp h with presented := (u.hp h).presented }

/-- The same, but for the table of object values and what event records take with them: event queues, vectors that pend, and the
count of writes presented. -/
def State.onlyReported (s u : State) : Prop :=
  (∀ h, s.portKept u h) ∧
    u = { s with
      out := u.out, mgmt := u.mgmt, od := u.od, eqs := u.eqs, eqLost := u.eqLost, halfPorts := u.halfPorts
      wq := { s.wq with outbox := u.wq.outbox }, host := { s.host with msixPending := u.host.msixPending } }

/-! ## Control commands -/

/-- No check of a list fails. -/
def passes (l : List (Bool × Nat)) : Bool := l.all fun p => !p.1

/-- Block `i` is the one block of a CTRL_CMD write, which the controller takes at once and R467 admits; no other block waits. -/
def State.takesBlock (s : State) (i : Instr) : Bool :=
  match blockOf i with
  | none => false
  | some (_, c) => c.index.val == 0 && c.last && s.takes (ctrlReq c.hdr 1) [i] && s.mgmt.blocks.isEmpty &&
    s.mgmt.results.isEmpty &&
    match s.check467 (ctrlReq c.hdr 1) (s.envOf i (ctrlReq c.hdr 1)).lyandez with
    | .object _ _ _ _ => true
    | _ => false

/-- Every object but CTRL_RESULT has the value it had. -/
def State.objectsKept (s u : State) : Prop := ∀ k, k ≠ Row.ctrlResult.key 0 0 → tget u.od k = tget s.od k

/-- The write of block `i` is over: its answer OK went out, and CTRL_RESULT holds its one result (R140, Table 06-6). -/
def State.blockOver (u : State) (i : Instr) (c : CtrlHdr) (result : Nat) (value : Option Nat) (extra : Nat) : Prop :=
  u.obj Row.ctrlResult =
      leNat (leBytes 2 c.hdr.tag.toNat ++ leBytes 1 (viaBit c.hdr.via - 1) ++ leBytes 1 1 ++ leBytes 4 0 ++
        resultBytes i result value extra) ∧
    Output.response (responseOf (ctrlReq c.hdr 1) 0 []) ∈ u.out ∧ u.mgmt.busy = none ∧ u.mgmt.results = []

/-- Module memory reads `bs` from address `a` on, and every other byte as before. -/
def State.wroteMem (s u : State) (a : Nat) (bs : List Byte) : Prop :=
  (∀ i, i < bs.length → u.mem.byte (a + i) = bs.getD i 0) ∧
    ∀ b, (b < a ∨ a + bs.length ≤ b) → u.mem.byte b = s.mem.byte b

/-! ## Packets -/

/-- A link whose partner reports LACK at instant `now`: what it passes is released (R226). -/
def LinkSt.lacked (x : LinkSt) (now lack : Nat) : LinkSt :=
  let held := ackHeld x.held lack
  { x with held := held, lackAt := if held.length = x.held.length then x.lackAt else now }

/-- The frames of link `l` from which a replay resends: each as it is held, with the current LACK (R226). -/
def resent (l expect : Nat) (held : List LinkFrame) : List Output :=
  held.map fun h => .frame l { h with lack := expect : LinkFrame }.bytes

/-- A packet that carries opcode `o` reaches QP `q`, which is `x`, as one of its connection: the transport runs, nothing forwards,
parks it for want of its context, polices or drops it, its region entries are cached or it can park for them, it comes in clear to a QP that takes it so, and the QP serves it in its state (Tables 01-5 and 06-9). No
record to a partner holds what it does. -/
def State.carries (s : State) (a : Arrival) (o : Byte) (q : Nat) (x : Qp) : Bool :=
  let b := arriveAs a o
  decide (q = a.pkt.dstQpn.toNat) && decide (s.qp q = some x) && !x.freeing && !x.lost && a.pkt.dstQpn != 0 && s.transportRuns &&
    !s.holding && (s.forwardTarget b.pkt).isNone && !s.toForwardHome b.pkt && s.goodHeader b.pkt && (s.police b).2 &&
    !s.isFrozen b.pkt && !isBatch b.pkt && !s.mustPark q x &&
    ((s.packetEntries b.pkt).all s.ctx.regions.contains || s.roomFor b) && !x.mismatched b.pkt && (s.cipherCheck q x b).2 == some b && x.cipher.prev.isNone &&
    (x.st == .rts || (x.st == .rtr && (!isReply o || o == 0x32))) && !x.isUncertain b.pkt && !s.mirrors q x

/-- The QP after such a packet's context lookup. -/
def Qp.seen (x : Qp) : Qp := { x with referenced := true }

/-- A placement write of half-port `h` as it leaves: CXL.mem on an ACC_CXLMEM half-port, else PCIe, with relaxed ordering where both
ends allow it (R97, R98). -/
def State.writeOut (s : State) (h addr : Nat) (bytes : List Byte) : Output :=
  if (s.hp h).isCxlMem then .memWr h addr bytes else .place h addr bytes (s.obj Row.roEnable h == 1 && (s.hp h).relaxed)

/-- The writes that put `bytes` at the bus addresses of the pieces, in order. -/
def placements (write : Nat → List Byte → Output) : List (Nat × Nat) → List Byte → List Output
  | [], _ => []
  | (a, n) :: ps, bytes => write a (bytes.take n) :: placements write ps (bytes.drop n)

/-- Completion queue `cqn` takes the completions of QP `x`. -/
def State.cqTakes (s : State) (cqn : Nat) (x : Qp) : Bool := !x.lost && !x.freeing && (tget s.wq.cqs cqn).any fun c => !c.error

/-- The one completion that joins those waiting. -/
def State.addsCqe (s u : State) (cqn : Nat) (c : Cqe → Prop) : Prop :=
  ∃ w, u.wq.cqWait = s.wq.cqWait ++ [w] ∧ w.cqn = cqn ∧ c w.cqe

/-- Packet `p` is the next one that QP `x` expects, it is a whole message, and nothing waits before it. -/
def Qp.expects (x : Qp) (p : Packet) : Bool :=
  x.type == .rc && p.psn == x.resp.e && x.resp.window.isEmpty && x.resp.msgs.isEmpty && x.resp.heldReqs.isEmpty &&
    x.resp.failed.isNone && p.first && p.last && p.pktOffset == 0

/-- Packet `p` is the next one that connection QP `x` of a communicator expects, and nothing waits before it. -/
def Qp.awaitsColl (x : Qp) (p : Packet) : Bool :=
  x.type == .coll && p.psn == x.resp.e && x.resp.window.isEmpty && x.resp.msgs.isEmpty && x.resp.heldReqs.isEmpty &&
    x.resp.failed.isNone

/-- The rank that a packet on connection QP `q` of communicator `m` comes from. -/
def State.rankOf (s : State) (q : Nat) (m : Comm) : Nat := s.local totalQps q - m.connBase

/-! ## Completion -/

/-- Command `c` answers a next state in state `s`: the one that follows from a state `u` of which `P` holds, the state that the
command's own effect leaves. -/
def Completes (c : Instr) (s : State) (P : State → Prop) : Prop := ∃ u, exec c s = .next (finish s u) ∧ P u

end Sys2Proof.Machine
end

