-- ==== Sys2Proof/Certificates/Slice0/Obligations.lean ====
section
/-! DEFINITION. The statements about the model. Each says what a command's own effect is, `u`, in a conclusion
`exec c s = .next (finish s u)`: `finish` is what follows from every command (Service.lean), and the statement `QuietFinish` says
when nothing follows. -/

open Sys2Proof Sys2Proof.Machine

/-! ## The block and its queue -/

/-- A step takes the command at the front of the queue and is its meaning on the state with the queue's rest. -/
def Obligations.StepRunsFrontCommand : Prop :=
  ∀ (s : State) (c : Instr) (rest : List Instr), s.pending = c :: rest → step s = exec c (s.withPending rest)

/-- The idle step; that it is one nanosecond of R45 is the model's choice (notes/assumptions/1). -/
def Obligations.IdleStepCountsOne : Prop :=
  ∀ s : State, s.pending = [] → step s = .next { s with timer := s.timer + 1 }

/-- Every well-formed command goes on in every state and leaves the queue alone; which commands stop, and how. -/
def Obligations.EveryCommandGoesOn : Prop :=
  (∀ (c : Instr) (s : State), c.wellFormed = true → ∃ t, exec c s = .next t ∧ t.pending = s.pending) ∧
  ∀ (c : Instr) (s : State), (exec c s = .fault .illFormed ↔ c.wellFormed = false) ∧ ∀ r, exec c s ≠ .refused r

/-- The invariant that keeps every run going, for all states and any number of steps. -/
def Obligations.RunsNeverStop : Prop :=
  ∀ s : State, s.queueWellFormed = true →
    (∀ t, step s = .next t → t.queueWellFormed = true) ∧
    ∀ n, ∃ t, s.reaches n t ∧ t.queueWellFormed = true ∧ t.pending = s.pending.drop n

/-- Memory and the object table keep their canonical form over every step, from every state that has it. -/
def Obligations.StepsKeepMemoryAndObjects : Prop :=
  ∀ s t : State, s.wellFormed = true → step s = .next t → t.wellFormed = true

/-- What the statements assume of a state's form holds after every step from a state in which it holds. -/
def Obligations.StepsKeepCanonicalForm : Prop :=
  ∀ s t : State, s.canonical = true → step s = .next t → t.canonical = true

/-- What reset leaves. -/
def Obligations.ResetState : Prop :=
  State.reset.canonical = true ∧ State.reset.queueWellFormed = true ∧ State.reset.quiet = true ∧
  State.reset.mode = .bootRom ∧ State.reset.timer = 0 ∧
  State.reset.obj Row.resetCause = 1 ∧
  (∀ (r : ObjRow) (i k : Nat), r.key i k ≠ Row.resetCause.key 0 0 → State.reset.obj r i k = r.dflt i k) ∧ (∀ a, State.reset.mem.byte a = 0) ∧
  State.reset.halfPorts.all (fun p => !p.up && p.perst) = true ∧ State.reset.fabric.links.all (fun l => !l.up) = true ∧
  State.reset.pending = [] ∧ State.reset.wq.qps = [] ∧ State.reset.wq.regions = [] ∧ State.reset.colls.comms = [] ∧
  State.reset.security.slots = [] ∧ State.reset.security.sessions = [] ∧ State.reset.mgmt.busy = none ∧ State.reset.mgmt.waiting = []

/-- When `finish` adds nothing. -/
def Obligations.QuietFinish : Prop :=
  ∀ s u : State, u.quiet = true → (u.timer ≤ s.timer ∨ s.noHeadStalled = true) → finish s u = { u with pending := s.pending }

/-- The law of the live values of the dictionary. -/
def Obligations.ObjectsReadBack : Prop :=
  ∀ (s : State) (r : ObjRow) (v i k : Nat), rising s.od = true →
    (s.setObj r v i k).obj r i k = v ∧ rising (s.setObj r v i k).od = true ∧
    (v = r.dflt i k → tget (s.setObj r v i k).od (r.key i k) = none) ∧
    (∀ (r' : ObjRow) (i' k' : Nat), r'.key i' k' ≠ r.key i k → (s.setObj r v i k).obj r' i' k' = s.obj r' i' k') ∧
    s.setObj r v i k = { s with od := (s.setObj r v i k).od }

/-! ## Power, reset and boot -/

/-- A loss of power and a power-up (R428, Table 19-2: Power-on). -/
def Obligations.PowerCycle : Prop :=
  (∀ (s : State) (cause : PowerFallCause), s.power.good = true →
    Completes (.powerGoodFall cause) s fun u =>
      u = s.withoutPower) ∧
  (∀ (s : State) (k : Fin 20) (t : Int), s.power.good = true → 880 ≤ t → Completes (.thermalTrip k t) s fun u => u = s.withoutPower) ∧
  (∀ (s : State) (cause : PowerFallCause), s.power.good = false → Completes (.powerGoodFall cause) s fun u => u = s) ∧
  (∀ (s : State) (high : Bool) (id : BitVec 2), s.power.good = true → Completes (.powerGood high id) s fun u => u = s) ∧
  (∀ (s : State) (k : Fin 20) (t : Int), t < 880 → Completes (.thermalTrip k t) s fun u => u = s) ∧
  (∀ (s : State) (id : BitVec 2), s.power.good = false →
    Completes (.powerGood true id) s fun u =>
      u.mode = .bootRom ∧ u.timer = 0 ∧ u.ticks = [] ∧ u.obj Row.resetCause = 1 ∧ u.boot.fullNext = true ∧ u.boot.mrst = false ∧
      u.boot.pairId = id.toNat ∧ u.twin.position = (if id = 1 then 1 else if id = 2 then 2 else 0) ∧ u.mem = State.reset.mem ∧
      u.wq = State.reset.wq ∧ u.halfPorts = State.reset.halfPorts ∧ u.security = State.reset.security ∧ u.power.good = true) ∧
  (∀ (s : State) (id : BitVec 2), s.power.good = false →
    Completes (.powerGood false id) s fun u => u.mode = .reset ∧ u.boot.mrst = true ∧ u.od = [] ∧ u.mem = State.reset.mem) ∧
  (∀ s : State, s.cutFlash.flash.owner = s.flash.owner ∧ s.cutFlash.flash.svnMin = s.flash.svnMin ∧
    s.cutFlash.flash.records = s.flash.records ∧ s.cutFlash.flash.patterns = s.flash.patterns ∧
    ((∀ is, s.mgmt.busy ≠ some (.store, is)) → s.cutFlash.flash.copies = s.flash.copies) ∧
    (∀ is, s.mgmt.busy = some (.store, is) → s.flash.copies.length = 2 → s.cutFlash.flash.copies.getD s.storeTarget none = none) ∧
    s.cutFlash.flash.image = if s.obj Row.fwCommitStatus % 256 = 2 then false else s.flash.image)

/-- A module reset by MRST_N (R427, Table 19-2: Module reset). -/
def Obligations.ModuleResetByContact : Prop :=
  (∀ (s : State) (ns : Nat), 1000 ≤ ns → s.power.good = true →
    Completes (.mrstNAssert ns) s fun u =>
      u.mode = .reset ∧ u.boot.mrst = true ∧ u.boot.nextCause = 2 ∧ u.boot.fullNext = (s.obj Row.selftestResetMode == 0) ∧
      u.od = [] ∧ u.wq = State.reset.wq ∧ u.colls = State.reset.colls ∧ u.halfPorts = State.reset.halfPorts ∧
      u.fabric = State.reset.fabric ∧ u.security = State.reset.security ∧ u.mgmt = State.reset.mgmt ∧ u.mem.asleep = List.range 96 ∧
      u.mem.layout = s.mem.layout ∧ u.out = s.out ∧ u.pending = s.pending ∧
      (s.mem.cast = none → u.mem.cells = s.mem.cells ∧ u.mem.loose = s.mem.loose ∧
        (s.twin.receiving = none → u.mem.dir = s.mem.dir))) ∧
  (∀ (s : State) (ns : Nat), ns < 1000 → Completes (.mrstNAssert ns) s fun u => u = s) ∧
  (∀ s : State, s.boot.mrst = true →
    Completes .mrstNDeassert s fun u =>
      u = { s with boot := { s.boot with mrst := false }, power := { s.power with jtag := 0 } }) ∧
  (∀ (s : State) (id : BitVec 2), s.mode = .reset → s.boot.mrst = false → rising s.od = true →
    Completes (.resetRelease id) s fun u =>
      u.mode = .bootRom ∧ u.timer = 0 ∧ u.ticks = [] ∧ u.obj Row.resetCause = s.boot.nextCause ∧ u.boot.pulse = false ∧
      u.boot.pairId = id.toNat ∧ u.mem = s.mem ∧ u.flash = s.flash ∧ u.out = s.out ∧ u.wq = s.wq) ∧
  (∀ (s : State) (id : BitVec 2), s.mode = .reset → s.boot.mrst = true → Completes (.resetRelease id) s fun u => u = s)

/-- The steps of the boot ROM (R424-R438) and the load of the firmware (R398-R400). -/
def Obligations.BootSteps : Prop :=
  ((∀ s : State, s.mode = .bootRom →
    Completes (.flashDirectoryRead true) s fun u =>
      u.mode = .selfTest ∧ u.boot.phase = 0 ∧ u.boot.since = s.timer ∧ u.boot.quick = !s.boot.fullNext ∧ u.boot.nextSlice = 0 ∧
      u.boot.running = [] ∧ u.boot.analogDone = [] ∧ u.timer = s.timer ∧ u.mem = s.mem ∧ u.flash = s.flash ∧
      (s.halfPorts.length = 8 → ∀ h, h < 8 → match s.bootPage with
        | some t => (u.hp h).role = t.obj Row.role h ∧ (u.hp h).cap = t.obj Row.speedCap h ∧ (u.hp h).x16 = t.x16Written h
        | none => (u.hp h).role = (if h = 0 then 1 else 0) ∧ (u.hp h).cap = 32 ∧ (u.hp h).x16 = false)) ∧
  (∀ s : State, s.mode = .bootRom → rising s.od = true →
    Completes (.flashDirectoryRead false) s fun u => u.mode = .safe ∧ u.obj Row.safeCause = 1 ∧ u.flash = s.flash ∧
      (s.halfPorts.length = 8 → ∀ h, h < 8 → (u.hp h).role = (if h = 0 then 1 else 0) ∧ (u.hp h).cap = 32)) ∧
  (∀ (s : State) (n : Nat), s.bootLimit = some n → rising s.od = true →
    Completes .bootTimeLimit s fun u =>
      u.mode = .safe ∧ u.obj Row.safeCause = 6 ∧ s.boot.since + n ≤ u.timer ∧ s.timer ≤ u.timer ∧ u.flash = s.flash) ∧
  (∀ s : State, s.bootLimit = none → Completes .bootTimeLimit s fun u => u = s)) ∧
  ((∀ (s : State) (v : ImageVerdict), s.mode = .fwLoad → s.flash.image = true → v.headerOk = true → v.signerOk = true →
    v.signatureOk = true → v.svn ≤ 64 → s.flash.svnMin ≤ v.svn → rising s.od = true →
    Completes (.fwLoadDone v) s fun u =>
      u.mode = .config ∧ u.boot.firmware = true ∧ u.obj Row.fwVersion = v.version.toNat ∧ u.obj Row.fwSvn = v.svn ∧ u.flash = s.flash ∧ u.timer = s.timer ∧
      (s.halfPorts.length = 8 → ∀ h, h < 8 → (u.hp h).perst = ((s.hp h).role == 1 && (s.hp h).perst))) ∧
  (∀ (s : State) (v : ImageVerdict) (n : Nat), s.mode = .fwLoad → s.verify v s.flash.image = n → n ≠ 0 → rising s.od = true →
    Completes (.fwLoadDone v) s fun u => u.mode = .safe ∧ u.obj Row.safeCause = 3 ∧ u.obj Row.bootVerify = n ∧ u.flash = s.flash ∧ u.timer = s.timer) ∧
  (∀ (s : State) (v : ImageVerdict),
    (s.flash.image = false ∨ v.headerOk = false → s.verify v s.flash.image = 1) ∧
    (s.flash.image = true → v.headerOk = true → v.signerOk = false → s.verify v s.flash.image = 2) ∧
    (s.flash.image = true → v.headerOk = true → v.signerOk = true → v.signatureOk = false → s.verify v s.flash.image = 3) ∧
    (s.flash.image = true → v.headerOk = true → v.signerOk = true → v.signatureOk = true → (64 < v.svn ∨ v.svn < s.flash.svnMin) →
      s.verify v s.flash.image = 4)))

/-- The first three phases of self-test (Tables 19-4 and 19-9). -/
def Obligations.SelfTestPhases : Prop :=
  (∀ (s : State) (f0 f1 f2 : Nat) (t : Int), s.mode = .selfTest → s.boot.phase = 0 →
    Completes (.referencesPhaseDone [List.replicate 32 f0, List.replicate 32 f1, List.replicate 32 f2] [f0, f1, f2]
      (List.replicate 20 t)) s fun u => u = { s with boot := { s.boot with phase := 1 } }) ∧
  (∀ (s : State) (c : AnalogueCheck), s.mode = .selfTest → s.boot.phase = 1 → s.boot.analogDone.contains c = false →
    s.analogChecks.contains c = true →
    Completes (.analogueCheckDone c true) s fun u =>
      u.boot.analogDone = c :: s.boot.analogDone ∧ u.mode = .selfTest ∧ u.od = s.od ∧
      u.boot.phase = if s.analogChecks.all (fun d => (c :: s.boot.analogDone).contains d) then 2 else 1) ∧
  (∀ (s : State) (c : Fin 96), s.mode = .selfTest → s.boot.phase = 1 → s.boot.analogDone.contains (.lpddr c) = false →
    s.analogChecks.contains (.lpddr c) = true → rising s.od = true →
    Completes (.analogueCheckDone (.lpddr c) false) s fun u => u.mode = .safe ∧ u.obj Row.safeCause = 2) ∧
  (∀ (s : State) (a b c d : Nat), s.mode = .selfTest → s.boot.phase = 2 → a ≤ 64 → b ≤ 64 → c ≤ 64 → d ≤ 64 → rising s.od = true →
    Completes (.mbistDone [a, b, c, d] true) s fun u =>
      u.boot.phase = 3 ∧ u.mode = .selfTest ∧ u.obj Row.mbistRepairs = a + 2 ^ 16 * b + 2 ^ 32 * c + 2 ^ 48 * d ∧ u.timer = s.timer) ∧
  (∀ (s : State) (a b c d : Nat) (ok : Bool), s.mode = .selfTest → s.boot.phase = 2 → rising s.od = true →
    (ok = false ∨ 64 < a ∨ 64 < b ∨ 64 < c ∨ 64 < d) →
    Completes (.mbistDone [a, b, c, d] ok) s fun u => u.mode = .safe ∧ u.obj Row.safeCause = 2)

/-- The scan phase (R435). -/
def Obligations.ScanSlices : Prop :=
  (∀ (s : State) (k : Fin 1024) (h : SliceHdr), s.mode = .selfTest → s.boot.phase = 3 → k.val = s.boot.nextSlice →
    s.boot.running.length < 16 → s.testPower + h.power.toNat ≤ 480 →
    Completes (.sliceStart k h) s fun u =>
      u.boot.running = s.boot.running ++ [⟨k.val, h⟩] ∧ u.boot.nextSlice = k.val + 1 ∧ u.boot.lastStart = some u.timer ∧
      s.timer ≤ u.timer ∧ (∀ t, s.boot.lastStart = some t → t + s.sliceSpacing ≤ u.timer) ∧
      u = { s with timer := u.timer, boot := u.boot }) ∧
  (∀ (s : State) (k : Fin 1024) (h : SliceHdr),
    (k.val ≠ s.boot.nextSlice ∨ 16 ≤ s.boot.running.length ∨ 480 < s.testPower + h.power.toNat) →
    Completes (.sliceStart k h) s fun u => u = s) ∧
  (∀ (s : State) (k : Fin 1024) (x : SliceRun), (272 ≤ k.val ∨ s.flash.patterns = []) →
    s.boot.running.find? (fun y => y.slice == k.val) = some x → x.hdr.crcOk = true → s.mode = .selfTest →
    Completes (.sliceDone k (if s.boot.quick then x.hdr.quickSignature else x.hdr.signature) true) s fun u =>
      u.boot.running = s.boot.running.filter (fun y => y.slice != k.val) ∧
      (u.boot.running ≠ [] ∨ s.boot.nextSlice ≠ 1024 → u = { s with boot := { s.boot with running := u.boot.running } }) ∧
      (u.boot.running = [] ∧ s.boot.nextSlice = 1024 → u.mode = .fwLoad ∧ u.boot.since = s.timer)) ∧
  (∀ (s : State) (k : Fin 1024) (x : SliceRun) (r : BitVec 128), 272 ≤ k.val →
    s.boot.running.find? (fun y => y.slice == k.val) = some x → s.mode = .selfTest → rising s.od = true →
    (x.hdr.crcOk = false ∨ r ≠ if s.boot.quick then x.hdr.quickSignature else x.hdr.signature) →
    Completes (.sliceDone k r true) s fun u =>
      u.mode = .safe ∧ u.obj Row.safeCause = 2 ∧ (u.obj Row.sliceFail).testBit k.val = true) ∧
  (∀ (s : State) (k : Fin 1024) (x : SliceRun), 272 ≤ k.val → s.boot.running.find? (fun y => y.slice == k.val) = some x →
    s.mode = .selfTest → rising s.od = true →
    Completes (.sliceTimeout k) s fun u =>
      u.mode = .safe ∧ u.obj Row.safeCause = 2 ∧ (u.obj Row.sliceFail).testBit k.val = true) ∧
  (∀ (s : State) (k : Fin 1024) (x : SliceRun) (r : BitVec 128), k.val < 272 →
    s.boot.running.find? (fun y => y.slice == k.val) = some x → s.mode = .selfTest → rising s.od = true →
    Completes (.sliceTimeout k) s (fun u => (u.obj Row.sliceFail).testBit k.val = true ∧ u.role (k.val / 4) = 2) ∧
    ((x.hdr.crcOk = false ∨ r ≠ if s.boot.quick then x.hdr.quickSignature else x.hdr.signature) →
      Completes (.sliceDone k r true) s fun u => (u.obj Row.sliceFail).testBit k.val = true ∧ u.role (k.val / 4) = 2))

/-! ## Pace, temperature, input power, watchdogs, I3C and JTAG -/

/-- Pace windows and control steps (R32, R35). -/
def Obligations.PaceControl : Prop :=
  (∀ (s : State) (n : Nat), s.alive = true → 1 ≤ n → n ≤ 16000 → ceilDiv 10000000 (n * 64) ≤ 65535 → s.obj Row.paceMonExcluded = 0 →
    rising s.od = true → s.pace.deviations = List.replicate 32 0 → s.onBeat 1 10000 = true →
    Completes (.paceWindow (List.replicate 32 n)) s fun u =>
      (∀ k, k < 32 → u.obj Row.paceMon 0 k = ceilDiv 10000000 (n * 64)) ∧ u.obj Row.paceLive = ceilDiv 10000000 (n * 64) ∧
      u.obj Row.paceMonExcluded = 0 ∧ u.pace = s.pace ∧ u.timer % 10000 = 0 ∧ s.timer ≤ u.timer ∧
      u = { s with od := u.od, timer := u.timer, ticks := u.ticks, freeCount := u.freeCount }) ∧
  (∀ s : State, s.firmwareRuns = true → 16 ≤ s.validMonitors.length → rising s.od = true → s.onBeat 2 50000 = true →
    Completes .controlStep s fun u =>
      let limit := if s.thermalCap then 700 else 800
      let v := s.obj Row.vcoreSet
      let goal := s.paceTarget * (100 - s.obj Row.paceMargin)
      u.obj Row.vcoreSet =
        (if limit < v then v - 5
         else if goal < s.obj Row.paceLive * 100 ∧ v < limit then v + 5
         else if s.obj Row.paceLive * 10000 < goal * 97 ∧ 650 < v then v - 5
         else v) ∧
      u.objBit Row.paceStatus 1 = s.thermalCap ∧
      u.timer % 50000 = 0 ∧ s.timer ≤ u.timer ∧ u = { s with od := u.od, timer := u.timer, ticks := u.ticks }) ∧
  (∀ s : State, s.alive = true → s.firmwareRuns = false → rising s.od = true →
    Completes .controlStep s fun u =>
      let v := s.obj Row.vcoreSet
      u.obj Row.vcoreSet = (if s.firmwareServes = true ∧ s.thermalCap = true ∧ 700 < v then v - 5 else v) ∧
      u.objBit Row.paceStatus 1 = s.thermalCap ∧ u = { s with od := u.od, timer := u.timer, ticks := u.ticks }) ∧
  (∀ s : State, s.alive = false →
    Completes .controlStep s fun u => u = { s with timer := u.timer, ticks := u.ticks } ∧ s.timer ≤ u.timer)

/-- Monitor loss (R34). -/
def Obligations.MonitorLoss : Prop :=
  (∀ s : State, s.firmwareRuns = true → s.validMonitors.length < 16 → rising s.od = true →
    Completes .controlStep s fun u =>
      u.obj Row.vcoreSet = (if s.thermalCap then 700 else 800) ∧ u.objBit Row.paceStatus 3 = true ∧
      u.validMonitors = s.validMonitors ∧ u = { s with od := u.od, timer := u.timer, ticks := u.ticks }) ∧
  (∀ (s : State) (laps : List Nat), s.firmwareRuns = true → laps.length = 32 → rising s.od = true →
    Completes (.paceWindow laps) s fun u =>
      u.validMonitors.length < 16 →
      u.obj Row.vcoreSet = (if u.thermalCap then 700 else 800) ∧ u.objBit Row.paceStatus 3 = true)

/-- Temperatures and input power (R461-R466). -/
def Obligations.Sensors : Prop :=
  ((∀ (s : State) (t : Int), s.alive = true → s.power.excluded = 0 → rising s.od = true →
    s.onBeat 3 10000 = true → -2 ^ 31 ≤ t → t < 2 ^ 31 →
    Completes (.thermalSample (List.replicate 20 t)) s fun u =>
      u.obj Row.tjMax = i32 t ∧ (i32Of (s.obj Row.thermalCapOn) ≤ t → u.thermalCap = true) ∧
      u.obj Row.thermalCapCount = (if i32Of (s.obj Row.thermalCapOn) ≤ t ∧ s.thermalCap = false
        then (s.obj Row.thermalCapCount + 1) % 2 ^ 32 else s.obj Row.thermalCapCount) ∧
      (t < i32Of (s.obj Row.thermalCapOn) → u.thermalCap = s.thermalCap) ∧
      (832 ≤ t → u.objBit Row.thermalStatus 1 = true) ∧ (t ≤ 800 → u.objBit Row.thermalStatus 1 = false) ∧
      u.timer % 10000 = 0 ∧ s.timer ≤ u.timer ∧ u.wq = s.wq ∧ u.mem = s.mem ∧ u.mode = s.mode) ∧
  (∀ (s : State) (t : Nat), s.thermalCap = true → s.power.coolSince = some t → rising s.od = true →
    Completes .thermalCapRelease s fun u =>
      u.thermalCap = false ∧ u.power.coolSince = none ∧ t + s.obj Row.thermalCapHold * 1000000 ≤ u.timer ∧ s.timer ≤ u.timer ∧
      u.obj Row.thermalCapNs = (s.obj Row.thermalCapNs + (u.timer - s.power.capCounted)) % 2 ^ 64) ∧
  (∀ s : State, (s.thermalCap = false ∨ s.power.coolSince = none) → Completes .thermalCapRelease s fun u => u = s) ∧
  (∀ (s : State) (p : Fin 24) (rate : Byte) (above : Bool), s.firmwareRuns = true → rising s.od = true →
    Completes (.memHot p rate above) s fun u =>
      u.obj Row.pkgRefreshRate p.val = rate.toNat ∧ u.objBit Row.thermalStatus 2 = !u.power.hot.isEmpty ∧
      (above = true → u.power.hot.contains p.val = true) ∧ (above = false → u.power.hot = s.power.hot.erase p.val) ∧
      u = { s with od := u.od, power := { s.power with hot := u.power.hot } })) ∧
  (∀ (s : State) (mv ma mw : Nat), s.alive = true → mv < 2 ^ 32 → ma < 2 ^ 32 → mw < 2 ^ 32 → rising s.od = true → s.eqs = [] →
    s.onBeat 8 1000000 = true →
    Completes (.vinSample mv ma mw) s fun u =>
      u.obj Row.vinMv = mv ∧ u.obj Row.iinMa = ma ∧ u.obj Row.pinMw = mw ∧
      u.objBit Row.thermalStatus 3 = decide (mv < 42000 ∨ 58000 < mv) ∧
      (s.objBit Row.thermalStatus 3 = false → (mv < 42000 ∨ 58000 < mv) →
        u.obj Row.vinWarnCount = (s.obj Row.vinWarnCount + 1) % 2 ^ 32) ∧
      (s.objBit Row.thermalStatus 3 = true ∨ 42000 ≤ mv ∧ mv ≤ 58000 → u.obj Row.vinWarnCount = s.obj Row.vinWarnCount) ∧
      u.timer % 1000000 = 0 ∧ s.timer ≤ u.timer ∧ u = { s with od := u.od, timer := u.timer, ticks := u.ticks, eqLost := u.eqLost })

/-- The stall watchdogs (R39-R42), and the management controller's (R442). -/
def Obligations.Watchdogs : Prop :=
  (∀ (s : State) (xs : List (Bool × Nat)), s.alive = true → s.mode ≠ .selfTest → xs.length = 118 → s.onBeat 4 1000 = true →
    rising s.pace.watchdogs = true →
    Completes (.watchdogSample xs) s fun u =>
      (∀ r, r < 118 →
        u.watchdog r =
          (if (xs.getD r (false, 0)).1 = false then ⟨(xs.getD r (false, 0)).2, 0⟩
           else if (s.watchdog r).run = 0 ∨ (s.watchdog r).count ≠ (xs.getD r (false, 0)).2 then ⟨(xs.getD r (false, 0)).2, 1⟩
           else ⟨(xs.getD r (false, 0)).2, (s.watchdog r).run + 1⟩)) ∧
      u.timer % 1000 = 0 ∧ u = { s with pace := u.pace, timer := u.timer, ticks := u.ticks } ∧ u.pace.deviations = s.pace.deviations) ∧
  (∀ (s : State) (r : Fin 118), s.alive = true → 8 ≤ (s.watchdog r.val).run → rising s.od = true → rising s.pace.watchdogs = true →
    Completes (.stallDetected r) s fun u =>
      (u.obj Row.stallMap).testBit r.val = true ∧ (u.watchdog r.val).run = 0 ∧ u.timer = s.timer ∧
      (s.obj Row.stallFirst = 0xFF → u.obj Row.stallFirst = r.val ∧ u.obj Row.stallTime = s.timer % 2 ^ 64) ∧
      (r.val < 68 → u.role r.val = 2 ∧ u.mode = s.mode) ∧
      (68 ≤ r.val → s.mode ≠ .safe → u.mode = .safe ∧ u.obj Row.safeCause = 4 ∧ u.alert = true)) ∧
  (∀ (s : State) (r : Fin 118), (s.watchdog r.val).run < 8 → Completes (.stallDetected r) s fun u => u = s) ∧
  (∀ s : State, s.firmwareRuns = true → s.repeatedExpiry = false →
    Completes (.mcWatchdogExpiry true) s fun u =>
      u.mgmt.busy = some (.mcRestart, []) ∧ u.restarting = true ∧ u.mode = s.mode ∧ u.timer = s.timer ∧ u.mgmt.waiting = s.mgmt.waiting ∧
      u.wq = s.wq ∧ u.mem = s.mem ∧ u.security = s.security) ∧
  (∀ (s : State) (ok : Bool), s.firmwareRuns = true → (s.repeatedExpiry = true ∨ ok = false) → rising s.od = true →
    Completes (.mcWatchdogExpiry ok) s fun u => u.mode = .safe ∧ u.obj Row.safeCause = 5 ∧ u.timer = s.timer) ∧
  (∀ (s : State) (ok : Bool), s.firmwareServes = false → Completes (.mcWatchdogExpiry ok) s fun u => u = s) ∧
  (∀ (s : State) (is : List Instr), s.mgmt.busy = some (.mcRestart, is) →
    Completes .mcRestartDone s fun u =>
      u.mgmt = ⟨none, [], [], [], [], []⟩ ∧ u.boot.restartedAt = some s.timer ∧ u.security.sessions = [] ∧ u.mode = s.mode ∧ u.wq = s.wq) ∧
  (∀ s : State, s.restarting = false → Completes .mcRestartDone s fun u => u = s)

/-- The I3C endpoint's address (R456; that SETDAA takes the static address alone is read from the rule by inference) and the JTAG port (R458). -/
def Obligations.ServicePorts : Prop :=
  ((∀ (s : State) (a : BitVec 7), s.i3cOpen = true →
    Completes (.i3cEntdaa a) s fun u =>
      u = { s with power := { s.power with i3c := some a.toNat }, out := s.out ++ [.i3cAddress a.toNat] }) ∧
  (∀ (s : State) (a : BitVec 7), s.i3cOpen = true →
    a.toNat = (if s.boot.pairId = 1 then 0x3A else if s.boot.pairId = 2 then 0x3B else 0x39) →
    Completes (.i3cSetdaa a) s fun u =>
      u = { s with power := { s.power with i3c := some a.toNat }, out := s.out ++ [.i3cAddress a.toNat] }) ∧
  (∀ (s : State) (a : BitVec 7), (s.mode = .off ∨ s.mode = .reset ∨ s.mode = .bootRom) →
    Completes (.i3cEntdaa a) s (fun u => u = s) ∧ Completes (.i3cSetdaa a) s (fun u => u = s))) ∧
  (∀ (s : State) (b : List Bool), s.power.good = true →
    Completes .idcode s (fun u =>
      u = { s with power := { s.power with jtag := 0 }, out := s.out ++ [.tdo ((List.range 32).map fun k => Config.jtagIdcode.testBit k)] }) ∧
    Completes .bypass s (fun u => u = { s with power := { s.power with jtag := 1 } }) ∧
    Completes (.samplePreload b) s (fun u => u = { s with power := { s.power with jtag := 2, boundary := b } }) ∧
    (s.boot.mrst = true →
      Completes (.extest b) s (fun u => u = { s with power := { s.power with jtag := 3, boundary := b } }) ∧
      Completes (.extestPulse b) s (fun u => u = { s with power := { s.power with jtag := 4, boundary := b } }) ∧
      Completes (.extestTrain b) s (fun u => u = { s with power := { s.power with jtag := 5, boundary := b } })) ∧
    (s.boot.mrst = false →
      Completes (.extest b) s (fun u => u = { s with power := { s.power with jtag := 1 } }) ∧
      Completes (.extestPulse b) s (fun u => u = { s with power := { s.power with jtag := 1 } }) ∧
      Completes (.extestTrain b) s (fun u => u = { s with power := { s.power with jtag := 1 } })))

/-! ## The object dictionary -/

/-- Reads (R57): READ, REASON_READ and MSG_TO_PF_READ. -/
def Obligations.ReadsAnswer : Prop :=
  (∀ (s : State) (c : Instr) (r : Req) (o : ObjRow) (i : Nat) (is : List Nat) (k : Nat) (shared : Bool),
    s.admits c r o (i :: is) k shared → r.cmd = .read → (shared = true → ∀ j ∈ is, s.content o j k = s.content o i k) →
    Completes c s fun u =>
      s.answeredWith u c r 0
        (if o.ty.segmented then ((s.content o i k).drop r.offset.toNat).take r.length.toNat else s.content o i k) ∧
      u = { s with out := u.out, mgmt := u.mgmt, wq := { s.wq with outbox := u.wq.outbox }, alert := u.alert, tenant := u.tenant } ∧
      u.alert = (if r.key = 0x200002 ∧ viaBit r.hdr.via = 1 then false else s.alert) ∧
      (r.key ≠ 0xC00101 ∨ viaBit r.hdr.via ≠ 2 → u.tenant = s.tenant) ∧
      (∀ f, r.key = 0xC00101 → viaBit r.hdr.via = 2 → s.windowOf r = some f → (u.func f).untaken = false)) ∧
  (∀ (s : State) (c : Instr) (r : Req) (o : ObjRow) (i : Nat) (is : List Nat) (k : Nat),
    s.admits c r o (i :: is) k true → r.cmd = .read → (∃ j ∈ is, s.content o j k ≠ s.content o i k) →
    Completes c s fun u => s.answeredWith u c r 7 [] ∧ s.onlyAnswered u) ∧
  (∀ (s : State) (c : Instr) (r : Req) (p : Response), reqOf c = some r → s.listens r.hdr.via = true → s.mgmt.busy = none →
    s.mgmt.waiting = [] → s.storedFor r [c] = some p →
    Completes c s fun u =>
      u = { s with out := s.out ++ [.response p], wq := { s.wq with outbox := s.wq.outbox ++ s.replyPackets p } }) ∧
  (∀ (s : State) (h : ReqHdr) (r : Req) (i k : Nat), s.admits (.reasonRead h) r Row.reason [i] k false → viaBit h.via = 1 →
    Completes (.reasonRead h) s fun u =>
      s.answeredWith u (.reasonRead h) r 0 (s.content Row.reason i k) ∧ u.alert = false) ∧
  (∀ (s : State) (h : ReqHdr) (off : BitVec 32) (n : BitVec 16) (r : Req) (i k f : Nat),
    s.admits (.msgToPfRead h off n) r Row.msgToPf [i] k false → viaBit h.via = 2 → s.windowOf r = some f →
    Completes (.msgToPfRead h off n) s fun u =>
      s.answeredWith u (.msgToPfRead h off n) r 0 (((s.content Row.msgToPf i k).drop off.toNat).take n.toNat) ∧
      (u.func f).untaken = false)

/-- DESCRIBE, NEXT and refusals. -/
def Obligations.DescribeNextRefused : Prop :=
  (∀ (s : State) (h : ReqHdr) (index : BitVec 16) (n : NameTail) (r : Req) (o : ObjRow) (i k : Nat) (is : List Nat) (shared : Bool),
    s.admits (.describe h index n) r o (i :: is) k shared →
    Completes (.describe h index n) s fun u =>
      s.answeredWith u (.describe h index n) r 0
        ([BitVec.ofNat 8 o.ty.code, BitVec.ofNat 8 o.access.code, BitVec.ofNat 8 o.priv, BitVec.ofNat 8 o.persist.code] ++
          leBytes 4 o.ty.size ++ s.defaultBytes o i k) ∧
      s.onlyAnswered u) ∧
  (∀ (s : State) (h : ReqHdr) (index : BitVec 16) (n : NameTail) (r : Req), reqOf (.next h index n) = some r →
    s.takes r [.next h index n] = true → s.check467 r (s.envOf (.next h index n) r).lyandez = .bare →
    Completes (.next h index n) s fun u =>
      s.answeredWith u (.next h index n) r 0
        (match (if s.bootServed then nextBoot index.toNat n.sub.toNat
          else nextObject (s.windowOf r).isSome index.toNat n.sub.toNat).filter
            (fun m => viaBit h.via != 4 || isWindow (m / 256)) with
         | some m => leBytes 2 (m / 256) ++ leBytes 1 m
         | none => [0xFF, 0xFF, 0xFF]) ∧
      s.onlyAnswered u) ∧
  (∀ (s : State) (c : Instr) (r : Req) (st : Nat), reqOf c = some r → s.takes r [c] = true →
    s.check467 r (s.envOf c r).lyandez = .no st →
    Completes c s fun u =>
      Output.response (responseOf r st []) ∈ u.out ∧ u.mgmt.busy = none ∧
      (st = 0x0E → rising s.od = true → u.obj Row.secLogCount = (s.obj Row.secLogCount + 1) % 2 ^ 32) ∧
      (st ≠ 0x0E → s.onlyAnswered u ∧ u.out = s.out ++ [.response (responseOf r st [])])) ∧
  (∀ (s : State) (r : Req) (l : Bool), r.malformed = true → s.check467 r l = .no 0x0C) ∧
  (∀ (s : State) (r : Req) (l : Bool), r.malformed = false → r.cmd.names = true → s.bootServed = false →
    s.target (s.windowOf r) r.index.toNat r.sub.toNat = .absent → s.check467 r l = .no 1) ∧
  (∀ (s : State) (r : Req) (l : Bool) (o : ObjRow) (is : List Nat) (k : Nat) (shared : Bool), r.malformed = false →
    r.cmd.names = true → s.bootServed = false → s.target (s.windowOf r) r.index.toNat r.sub.toNat = .objs o is k shared →
    s.wrongState r = false → o.priv &&& viaBit r.hdr.via = 0 → s.check467 r l = .no 5)

/-- Plain writes (R57). -/
def Obligations.WritesStore : Prop :=
  ∀ (s : State) (h : ReqHdr) (index : BitVec 16) (sub : Byte) (off : BitVec 32) (data : List Byte) (r : Req) (o : ObjRow)
    (is : List Nat) (k : Nat) (shared : Bool),
    s.admits (.write h index sub off data) r o is k shared → plainObject o = true → rising s.od = true →
    Completes (.write h index sub off data) s fun u =>
      s.answeredWith u (.write h index sub off data) r 0 [] ∧
      u = { s with out := u.out, mgmt := u.mgmt, od := u.od, blobs := u.blobs, freeCount := s.freeCount + 24
                   wq := { s.wq with outbox := u.wq.outbox } } ∧
      (o.ty.segmented = false → u.blobs = s.blobs ∧
        ∀ i ∈ is, u.obj o i k = keepBits (o.index * 256 + o.sub) (leNat data)) ∧
      (∀ m, o.ty = .bytes m → u.blobs = s.blobs ∧
        ∀ i, is = [i] → u.obj o i k = leNat (overlay (s.content o i k) off.toNat data)) ∧
      (o.ty = .string → u.od = s.od ∧ (is ≠ [] → u.blob o = data)) ∧
      (∀ m, o.ty = .domain m → u.od = s.od ∧ (is = [0] → u.blob o = if off = 0 then data else s.bytesOf o ++ data)) ∧
      (∀ (o' : ObjRow) (i' k' : Nat), (∀ i ∈ is, o'.key i' k' ≠ o.key i k) → u.obj o' i' k' = s.obj o' i' k')

/-- OPERATE (R67, R68, R263, R438). -/
def Obligations.OperateWrites : Prop :=
  (∀ (s : State) (h : ReqHdr) (r : Req) (o : ObjRow) (k : Nat), s.admits (.operateWrite1 h) r o [0] k false →
    s.mode = .config → s.checkOperate = none →
    Completes (.operateWrite1 h) s fun u => u.mode = .operational ∧ u.mgmt.busy = none ∧
      Output.response (responseOf r 0 []) ∈ u.out) ∧
  (∀ (s : State) (h : ReqHdr) (r : Req) (o : ObjRow) (k code word : Nat), s.admits (.operateWrite1 h) r o [0] k false →
    s.mode = .config → s.checkOperate = some (code, word) → s.latched = false → rising s.od = true →
    Completes (.operateWrite1 h) s fun u =>
      s.answeredWith u (.operateWrite1 h) r 9 [] ∧ u.obj Row.reason = code ∧ u.obj Row.offending = word ∧
      s.onlyObjects u) ∧
  (∀ (s : State) (h : ReqHdr) (r : Req) (o : ObjRow) (k : Nat), s.admits (.operateWrite0 h) r o [0] k false →
    s.mode = .operational → s.host.entering = none →
    Completes (.operateWrite0 h) s fun u =>
      u.mgmt = { s.mgmt with busy := some (.drainOperate, [.operateWrite0 h]) } ∧ u.mode = .operational ∧
      (s.wq.qps = [] → s.colls.comms = [] → u = { s with mgmt := u.mgmt })) ∧
  (∀ (s : State) (h : ReqHdr), s.mgmt.busy = some (.drainOperate, [.operateWrite0 h]) → s.mode = .operational →
    s.host.entering = none → s.drained .drainOperate = true →
    Completes .drainEnd s fun u =>
      u.mode = .config ∧ u.mgmt.busy = none ∧
      Output.response (responseOf (writeReq h 0x2000 1 0 [0]) 0 []) ∈ u.out ∧ u.fabric.links = List.replicate 6 LinkSt.idle ∧
      u.wq.outbox = []) ∧
  (∀ (s : State) (h : ReqHdr) (r : Req) (o : ObjRow) (k : Nat), s.admits (.holdToConfig h) r o [0] k false → s.mode = .hold →
    s.canonical = true →
    Completes (.holdToConfig h) s fun u => u.mode = .config ∧ u.mgmt.busy = none ∧
      Output.response (responseOf r 0 []) ∈ u.out ∧ u.host.entering = none ∧ (∀ p ∈ u.wq.qps, 1024 < p.2.func) ∧
      (∀ p ∈ u.wq.cqs, 1024 < p.2.func) ∧ (∀ p ∈ u.wq.srqs, 1024 < p.2.func) ∧ (∀ p ∈ u.colls.comms, 1024 < p.2.func) ∧
      (∀ p ∈ u.wq.regions, p.2.valid = true → 1024 < p.2.func)) ∧
  (∀ (s : State) (h : ReqHdr) (v : Byte) (r : Req) (o : ObjRow) (k : Nat), s.admits (.operateWriteSafe h v) r o [0] k false →
    s.mode = .safe → rising s.od = true →
    Completes (.operateWriteSafe h v) s fun u =>
      s.answeredWith u (.operateWriteSafe h v) r 9 [] ∧ u.mode = .safe ∧ (s.latched = false → u.obj Row.reason = 0x00060001) ∧
      s.onlyObjects u) ∧
  (∀ s : State, (∀ b, s.mgmt.busy = some b → b.1 ≠ .drainOperate ∧ ∀ n, b.1 ≠ .drainEnable n) →
    Completes .drainTimeout s fun u => u = s) ∧
  (∀ s : State, Completes .drainTimeout s fun u => u.mgmt.busy = s.mgmt.busy)

/-- Enables and soft resets (R70-R72, R429). -/
def Obligations.SubsystemEnables : Prop :=
  (∀ (s : State) (h : ReqHdr) (n : Fin 14) (r : Req) (o : ObjRow) (k : Nat), s.admits (.enableWrite1 h n) r o [n.val] k false →
    o.index * 256 + o.sub = 0x201101 → s.mode = .config → rising s.od = true →
    Completes (.enableWrite1 h n) s fun u =>
      s.answeredWith u (.enableWrite1 h n) r 0 [] ∧ u.obj Row.enable n.val = 1 ∧
      s.onlyObjects u) ∧
  (∀ (s : State) (h : ReqHdr) (n : Fin 14) (r : Req) (o : ObjRow) (k : Nat), s.admits (.enableWrite0 h n) r o [n.val] k false →
    o.index * 256 + o.sub = 0x201101 → s.mode = .config → rising s.od = true →
    Completes (.enableWrite0 h n) s fun u =>
      s.answeredWith u (.enableWrite0 h n) r 0 [] ∧ u.obj Row.enable n.val = 0 ∧
      s.onlyObjects u) ∧
  (∀ (s : State) (h : ReqHdr) (n : Fin 14) (r : Req) (o : ObjRow) (k code word : Nat), s.admits (.enableWrite1 h n) r o [n.val] k false →
    o.index * 256 + o.sub = 0x201101 → s.mode = .operational → s.enableObj (n.val + 1) = false →
    s.checkEnable (n.val + 1) = some (code, word) → s.latched = false → rising s.od = true →
    Completes (.enableWrite1 h n) s fun u =>
      s.answeredWith u (.enableWrite1 h n) r 9 [] ∧ u.obj Row.reason = code ∧ u.obj Row.offending = word ∧
      u.obj Row.subsysReason n.val = code ∧ u.enableObj (n.val + 1) = false ∧ s.onlyObjects u) ∧
  (∀ (s : State) (h : ReqHdr) (n : Fin 14) (r : Req) (o : ObjRow) (k : Nat), s.admits (.enableWrite1 h n) r o [n.val] k false →
    o.index * 256 + o.sub = 0x201101 → s.mode = .operational → s.enableObj (n.val + 1) = false →
    s.checkEnable (n.val + 1) = none → rising s.od = true →
    Completes (.enableWrite1 h n) s fun u =>
      u.obj Row.enable n.val = 1 ∧ u.mode = .operational ∧ u.mgmt.busy = none ∧ Output.response (responseOf r 0 []) ∈ u.out) ∧
  (∀ (s : State) (h : ReqHdr) (n : Fin 14) (r : Req) (o : ObjRow) (k code word : Nat), s.admits (.enableWrite0 h n) r o [n.val] k false →
    o.index * 256 + o.sub = 0x201101 → s.mode = .operational → s.enableObj (n.val + 1) = true →
    s.checkDisable (n.val + 1) = some (code, word) → s.latched = false → rising s.od = true →
    Completes (.enableWrite0 h n) s fun u =>
      s.answeredWith u (.enableWrite0 h n) r 9 [] ∧ u.obj Row.reason = code ∧ u.obj Row.offending = word ∧
      u.obj Row.subsysReason n.val = code ∧ u.enableObj (n.val + 1) = true ∧ s.onlyObjects u) ∧
  (∀ (s : State) (h : ReqHdr) (r : Req) (o : ObjRow) (k : Nat), s.admits (.enableWrite0 h 9) r o [9] k false →
    o.index * 256 + o.sub = 0x201101 → s.mode = .operational → s.enableObj 10 = true → s.checkDisable 10 = none →
    Completes (.enableWrite0 h 9) s fun u =>
      u = { s with mgmt := { s.mgmt with busy := some (.drainEnable 10, [.enableWrite0 h 9]) } }) ∧
  (∀ (s : State) (h : ReqHdr), s.mgmt.busy = some (.drainEnable 10, [.enableWrite0 h 9]) → rising s.od = true →
    Completes .drainEnd s fun u =>
      u.obj Row.enable 9 = 0 ∧ u.mgmt.busy = none ∧ s.onlyObjects u ∧
      u.out = s.out ++ [.response (responseOf (writeReq h (0x2011 + 9) 1 0 [0]) 0 [])]) ∧
  (∀ (s : State) (h : ReqHdr) (n : Fin 14) (r : Req) (o : ObjRow) (k : Nat), s.admits (.softReset h n) r o [n.val] k false →
    o.index * 256 + o.sub = 0x201103 → n.val = 8 ∨ n.val = 9 →
    Completes (.softReset h n) s fun u =>
      s.answeredWith u (.softReset h n) r 0 [] ∧ s.onlyObjects u ∧
      (∀ key, (if n.val = 8 then 0xA60001 ≤ key ∧ key ≤ 0xA60004 else 0xAD0001 ≤ key ∧ key ≤ 0xAD00FF) → tget u.od key = none) ∧
      (∀ key, ¬ (if n.val = 8 then 0xA60001 ≤ key ∧ key ≤ 0xA60004 else 0xAD0001 ≤ key ∧ key ≤ 0xAD00FF) →
        tget u.od key = tget s.od key))

/-- The configuration page (R64). -/
def Obligations.ConfigurationPage : Prop :=
  (∀ (s : State) (h : ReqHdr) (r : Req), reqOf (.store h 0 0 0 0) = some r → s.takes r [.store h 0 0 0 0] = true →
    s.check467 r (s.envOf (.store h 0 0 0 0) r).lyandez = .bare →
    Completes (.store h 0 0 0 0) s fun u =>
      u = { s with mgmt := { s.mgmt with busy := some (.store, [.store h 0 0 0 0]) } }) ∧
  (∀ (s : State) (h : ReqHdr), s.mgmt.busy = some (.store, [.store h 0 0 0 0]) → s.flash.copies.length = 2 → rising s.od = true →
    Completes (.storeDone true) s fun u =>
      let seq := match s.bestCopy with
        | some c => c.seq + 1
        | none => 1
      u.flash.copies.getD s.storeTarget none = some (s.snapshot seq) ∧
      u.flash.copies.getD (1 - s.storeTarget) none = s.flash.copies.getD (1 - s.storeTarget) none ∧
      u.obj Row.cfgSequence = seq % 2 ^ 32 ∧ u.mgmt.busy = none ∧ u.mode = s.mode ∧
      u.out = s.out ++ [.response (responseOf ⟨h, .store, 0, 0, 0, 0, []⟩ 0 (leBytes 4 seq))]) ∧
  (∀ (s : State) (h : ReqHdr), s.mgmt.busy = some (.store, [.store h 0 0 0 0]) → s.flash.copies.length = 2 →
    Completes (.storeDone false) s fun u =>
      u.flash.copies.getD s.storeTarget none = none ∧
      u.flash.copies.getD (1 - s.storeTarget) none = s.flash.copies.getD (1 - s.storeTarget) none ∧ u.mgmt.busy = none ∧
      u.out = s.out ++ [.response (responseOf ⟨h, .store, 0, 0, 0, 0, []⟩ 0x0D [])]) ∧
  (∀ (s : State) (c : CfgCopy), s.bestCopy = some c → s.flash.copies.getD 0 none ≠ s.flash.copies.getD 1 none →
    s.flash.copies.getD s.storeTarget none ≠ some c)

/-- DEFAULTS (R66). -/
def Obligations.Defaults : Prop :=
  (∀ (s : State) (h : ReqHdr) (r : Req), reqOf (.defaults h 0 0 0 0) = some r → s.takes r [.defaults h 0 0 0 0] = true →
    s.check467 r (s.envOf (.defaults h 0 0 0 0) r).lyandez = .bare →
    s.operate = false ∧
    Completes (.defaults h 0 0 0 0) s fun u =>
      (∀ (o : ObjRow) (i k : Nat), storedKey (o.key i k) = true → u.obj o i k = o.dflt i k) ∧
      u.blob Row.pairPeerSerial = Config.pairedSerial ∧ u.flash = s.flash ∧ u.mode = s.mode ∧
      Output.response (responseOf r 0 []) ∈ u.out ∧ u.mgmt.busy = none) ∧
  (∀ (s : State) (h : ReqHdr) (r : Req), reqOf (.defaults h 0 0 0 0) = some r → s.takes r [.defaults h 0 0 0 0] = true →
    r.malformed = false → s.operate = true →
    Completes (.defaults h 0 0 0 0) s fun u =>
      s.answeredWith u (.defaults h 0 0 0 0) r 0x0F [] ∧ s.onlyAnswered u)

/-! ## Commands written as objects -/

/-- The key store (R406, R407). -/
def Obligations.KeyStore : Prop :=
  (∀ (s : State) (h : ReqHdr) (f : KeyFields) (r : Req), s.writesTo (.keyLoad h f) r 0x800201 0 = true →
    rising s.od = true → f.slot.toNat < 4096 → f.reservedZero = true → f.usage = 1 ∨ f.usage = 2 → f.keyGen ≠ 0 →
    (s.keySlot f.slot.toNat).usage = 0 →
    Completes (.keyLoad h f) s fun u =>
      match unwrapKey (((s.sessionOf h).map Session.kek).getD 0) f.wrapped with
      | some key =>
        s.answeredWith u (.keyLoad h f) r 0 [] ∧ u.obj Row.keyResult = 0 ∧
        u.keySlot f.slot.toNat =
          ⟨f.usage.toNat, f.keyGen.toNat, ((s.keySlot f.slot.toNat).loads + 1) % 2 ^ 32, key⟩ ∧
        (∀ g, g ≠ f.slot.toNat → u.keySlot g = s.keySlot g) ∧
        ({ s with security := { s.security with slots := u.security.slots } }).onlyObjects u
      | none =>
        u.obj Row.keyResult = 2 ∧ u.obj Row.secLogCount = (s.obj Row.secLogCount + 1) % 2 ^ 32 ∧
        Output.response (responseOf r 0 []) ∈ u.out ∧ s.onlyReported u) ∧
  (∀ (s : State) (h : ReqHdr) (f : KeyFields) (r : Req), s.writesTo (.keyLoad h f) r 0x800201 0 = true → rising s.od = true →
    f.slot.toNat < 4096 → f.reservedZero = true → f.usage = 1 ∨ f.usage = 2 → f.keyGen ≠ 0 →
    (s.keySlot f.slot.toNat).usage ≠ 0 →
    Completes (.keyLoad h f) s fun u =>
      u.obj Row.keyResult = 1 ∧ s.answeredWith u (.keyLoad h f) r 0 [] ∧ s.onlyObjects u) ∧
  (∀ (s : State) (h : ReqHdr) (f : KeyFields) (r : Req), s.writesTo (.keyLoad h f) r 0x800201 0 = true → rising s.od = true →
    (4096 ≤ f.slot.toNat ∨ f.reservedZero = false ∨ (f.usage ≠ 1 ∧ f.usage ≠ 2) ∨ f.keyGen = 0) →
    Completes (.keyLoad h f) s fun u =>
      u.obj Row.keyResult = 3 ∧ s.answeredWith u (.keyLoad h f) r 0 [] ∧ s.onlyObjects u) ∧
  (∀ (s : State) (h : ReqHdr) (f : KeyFields) (r : Req), s.writesTo (.keyClear h f) r 0x800201 0 = true → rising s.od = true →
    f.slot.toNat < 4096 → f.reservedZero = true → s.slotUsers f.slot.toNat = [] →
    (∀ p ∈ s.wq.qps, p.2.cipher.prev.map (s.globalSlot p.2.func) ≠ some f.slot.toNat) →
    Completes (.keyClear h f) s fun u =>
      s.answeredWith u (.keyClear h f) r 0 [] ∧ u.obj Row.keyResult = 0 ∧
      u.keySlot f.slot.toNat = { s.keySlot f.slot.toNat with usage := 0, gen := 0, key := 0 } ∧
      (∀ g, g ≠ f.slot.toNat → u.keySlot g = s.keySlot g) ∧
      ({ s with security := { s.security with slots := u.security.slots } }).onlyObjects u) ∧
  (∀ (s : State) (h : ReqHdr) (f : KeyFields) (r : Req), s.writesTo (.keyClear h f) r 0x800201 0 = true → rising s.od = true →
    (4096 ≤ f.slot.toNat ∨ f.reservedZero = false ∨ s.slotUsers f.slot.toNat ≠ []) →
    Completes (.keyClear h f) s fun u =>
      u.obj Row.keyResult = (if f.slot.toNat < 4096 ∧ f.reservedZero = true then 4 else 3) ∧
      s.answeredWith u (.keyClear h f) r 0 [] ∧ s.onlyObjects u)

/-- Recovery objects (R398, R400, R405, R427, R441). -/
def Obligations.RecoveryObjects : Prop :=
  (∀ (s : State) (h : ReqHdr) (v : ImageVerdict) (r : Req), s.writesTo (.fwCommit h 1 v) r 0x250002 0 = true → rising s.od = true →
    Completes (.fwCommit h 1 v) s fun u =>
      s.answeredWith u (.fwCommit h 1 v) r 0 [] ∧
      u.obj Row.fwCommitStatus =
        (if s.blob Row.fwImage = [] ∨ v.headerOk = false then 0x104
         else if v.signerOk = false then 0x204
         else if v.signatureOk = false then 0x304
         else if 64 < v.svn ∨ v.svn < s.flash.svnMin then 0x404
         else 2) ∧
      s.onlyObjects u) ∧
  (∀ (s : State) (ok : Bool), rising s.od = true → s.obj Row.fwCommitStatus % 256 = 2 →
    Completes (.fwCommitDone ok) s fun u =>
      u.obj Row.fwCommitStatus = (if ok then 3 else 5) ∧
      u = { s with od := u.od, flash := { s.flash with image := true } }) ∧
  (∀ (s : State) (ok : Bool), s.obj Row.fwCommitStatus % 256 ≠ 2 → Completes (.fwCommitDone ok) s fun u => u = s) ∧
  (∀ (s : State) (h : ReqHdr) (r : Req), s.writesTo (.svnCommit h 1) r 0x800003 0 = true →
    Completes (.svnCommit h 1) s fun u =>
      s.answeredWith u (.svnCommit h 1) r 0 [] ∧
      ({ s with flash := { s.flash with svnMin := max s.flash.svnMin (s.obj Row.fwSvn) } }).onlyAnswered u) ∧
  (∀ (s : State) (h : ReqHdr) (v : List Byte) (chains ok : Bool) (r : Req), v.length = 64 →
    s.writesTo (.ownerRootWrite h v chains ok) r 0x800102 0 = true →
    Completes (.ownerRootWrite h v chains ok) s fun u =>
      s.answeredWith u (.ownerRootWrite h v chains ok) r (if ok then 0 else 0x0D) [] ∧
      ({ s with
          flash := { s.flash with owner := if ok then some (leNat v) else s.flash.owner }
          security := if ok then { s.security with measured := u.security.measured } else s.security }).onlyAnswered u) ∧
  (∀ (s : State) (h : ReqHdr) (v : Byte) (r : Req), s.writesTo (.moduleReset h v) r 0x250004 0 = true →
    Completes (.moduleReset h v) s fun u =>
      Output.response (responseOf r 0 []) ∈ u.out ∧ u.mode = .reset ∧ u.boot.nextCause = 3 ∧ u.boot.fullNext = (v == 2 || s.resetFull) ∧ u.boot.pulse = true ∧
      u.wq.qps = [] ∧ u.wq.cqs = [] ∧ u.security.sessions = [] ∧ u.security.slots = [] ∧ u.eqs = [] ∧ u.colls.comms = [] ∧
      u.flash.copies = s.flash.copies ∧ u.flash.owner = s.flash.owner ∧ u.flash.svnMin = s.flash.svnMin ∧
      (s.mem.cast = none → u.mem.cells = s.mem.cells ∧ u.mem.loose = s.mem.loose))

/-- Other command objects (R236, R348, R351, R386). -/
def Obligations.CommandObjects : Prop :=
  (∀ (s : State) (h : ReqHdr) (r : Req), s.writesTo (.histClear h 1) r 0x700009 0 = true → rising s.od = true →
    Completes (.histClear h 1) s fun u =>
      s.answeredWith u (.histClear h 1) r 0 [] ∧
      (∀ p v, p < 4 → v < 8 → u.obj Row.depthHist p v = 0 ∧ u.obj Row.delayHist p v = 0 ∧ u.obj Row.depthMax p = 0) ∧
      s.onlyObjects u) ∧
  (∀ (s : State) (h : ReqHdr) (v : Byte) (r : Req), s.writesTo (.routingModeWrite h v) r 0x760004 0 = true → rising s.od = true →
    s.enabled 5 = true →
    Completes (.routingModeWrite h v) s fun u =>
      s.answeredWith u (.routingModeWrite h v) r 0 [] ∧ u.obj Row.routingMode = v.toNat ∧
      (v = 0 → u.fabric.split = false) ∧ (v = 1 → u.fabric.split = true) ∧
      (v = 2 → u.fabric.split = (s.fabric.split && (List.range 4).any fun p => s.torusPort p && !s.portUp p)) ∧
      ({ s with fabric := { s.fabric with split := u.fabric.split } }).onlyObjects u) ∧
  (∀ (s : State) (h : ReqHdr) (id : BitVec 32) (r : Req), s.writesTo (.recordSelect h id) r 0x900103 0 = true → rising s.od = true →
    Completes (.recordSelect h id) s fun u =>
      s.answeredWith u (.recordSelect h id) r 0 [] ∧ u.obj Row.recordSelect = id.toNat ∧
      s.onlyObjects u) ∧
  (∀ (s : State) (h : ReqHdr) (p : PatternIn) (r : Req), s.writesTo (.patternImport h [p]) r 0x900203 0 = true → rising s.od = true →
    Completes (.patternImport h [p]) s fun u =>
      s.answeredWith u (.patternImport h [p]) r 0 [] ∧
      (p.crcOk = true → patInOk p = true → s.flash.patterns.any (patInEntry p).same = false → p.agree = true →
        2 ≤ ((List.range 68).filter fun n => s.role n != 2).length → s.flash.patterns.length < 4096 →
        u.obj Row.patternImportResult = 1 ∧ u.flash.patterns = s.flash.patterns ++ [patInEntry p]) ∧
      (p.crcOk = true → patInOk p = true → s.flash.patterns.any (patInEntry p).same = true →
        u.obj Row.patternImportResult = 2 ^ 32 ∧ u.flash = s.flash) ∧
      (p.crcOk = false ∨ patInOk p = false → u.obj Row.patternImportResult = 2 ^ 64 ∧ u.flash = s.flash) ∧
      ({ s with flash := { s.flash with patterns := u.flash.patterns } }).onlyObjects u) ∧
  (∀ (s : State) (h : ReqHdr) (off : BitVec 32) (data : List Byte) (r : Req) (f : Nat),
    s.writesTo (.msgToPfWrite h off data) r 0xC00101 (f * 65536) = true → rising s.od = true → (s.func f).untaken = false →
    Completes (.msgToPfWrite h off data) s fun u =>
      Output.response (responseOf r 0 []) ∈ u.out ∧ (u.func f).untaken = true ∧
      u.objField Row.msgToPf off.toNat data.length (f * 65536) = leNat data ∧
      u.obj Row.msgToPfSeq (f * 65536) = (s.obj Row.msgToPfSeq (f * 65536) + 1) % 2 ^ 32 ∧
      (∀ g, g ≠ f → u.func g = s.func g) ∧ ({ s with tenant := u.tenant }).onlyReported u) ∧
  (∀ (s : State) (h : ReqHdr) (off : BitVec 32) (data : List Byte) (r : Req) (f : Nat),
    s.writesTo (.msgToPfWrite h off data) r 0xC00101 (f * 65536) = true → (s.func f).untaken = true →
    Completes (.msgToPfWrite h off data) s fun u =>
      s.answeredWith u (.msgToPfWrite h off data) r 8 [] ∧ s.onlyAnswered u) ∧
  (∀ (s : State) (h : ReqHdr) (off : BitVec 32) (data : List Byte) (r : Req) (f : Nat),
    s.writesTo (.msgFromPfWrite h off data) r 0xC00103 (f * 65536) = true → rising s.od = true →
    Completes (.msgFromPfWrite h off data) s fun u =>
      u.objField Row.msgFromPf off.toNat data.length (f * 65536) = leNat data ∧
      u.obj Row.msgFromPfSeq (f * 65536) = (s.obj Row.msgFromPfSeq (f * 65536) + 1) % 2 ^ 32 ∧
      u.out = ((s.emit (.statusPage f 0x10 (u.obj Row.msgFromPfSeq (f * 65536)))).msix f 0).out ++
        [.response (responseOf r 0 [])] ∧
      u.eqs = s.eqs ∧ s.onlyReported u)

/-- Partition sizes (R250, R251) and the cast commands (R255-R260). -/
def Obligations.PartitionsAndCasts : Prop :=
  ((∀ (s : State) (h : ReqHdr) (sub : Byte) (v : BitVec 16) (r : Req), s.mode = .config → rising s.od = true →
    1 ≤ sub.toNat ∧ sub.toNat ≤ 6 ∧ (sub = 6 → v.toNat < 256) →
    s.writesTo (.partitionWrite h sub v) r (0x600000 + sub.toNat) 0 = true →
    Completes (.partitionWrite h sub v) s fun u =>
      Output.response (responseOf r 0 []) ∈ u.out ∧
      (∀ k, k < 5 →
        let o := [Row.sizeContext, Row.sizeState, Row.sizeCast, Row.sizeStage, Row.sizeHdm].getD k Row.sizeContext
        u.obj o = if k + 1 = sub.toNat then v.toNat else s.obj o) ∧
      u.obj Row.preserve = (if sub = 6 then v.toNat % 8 else s.obj Row.preserve) ∧
      (({ s with od := u.od }).layoutOk = true →
        u.mem.layout = u.writtenLayout ∧ u.mem.preserve = u.obj Row.preserve ∧ u.objBit Row.memStatus 1 = false) ∧
      (({ s with od := u.od }).layoutOk = false → u.mem = s.mem ∧ u.objBit Row.memStatus 1 = true) ∧
      u.wq.qps = s.wq.qps ∧ u.fabric = s.fabric ∧ u.security = s.security ∧ u.mode = .config)) ∧
  ((∀ (s : State) (h : ReqHdr) (f : CastFields) (r : Req), s.writesTo (.take h f) r 0x600101 0 = true → rising s.od = true →
    s.mem.dir.length = 4 → f.reservedZero = true → s.mode = .operational → s.mem.cast = none → s.mem.layout.cast ≠ 0 →
    s.obj Row.castExtent ≤ s.mem.layout.state → 4 * s.castExtent ≤ s.slotQuarters →
    Completes (.take h f) s fun u =>
      let k := if s.castN = some 0 then 1 else 0
      s.answeredWith u (.take h f) r 0 [] ∧ u.mem.cast = some ⟨1, k, 0, s.castExtent, .waiting, 0⟩ ∧
      u.entry k = ⟨1, false, (max (s.entry 0).gen (s.entry 1).gen + 1) % 2 ^ 32, f.step.toNat, s.castExtent, 0, 0⟩ ∧
      (∀ j, j ≠ k → u.entry j = s.entry j) ∧ u.obj Row.castResult = 0x01010000 + k * 256 ∧ u.objBit Row.memStatus 3 = true ∧
      ({ s with mem := { s.mem with cast := u.mem.cast, dir := u.mem.dir } }).onlyObjects u) ∧
  (∀ (s : State) (h : ReqHdr) (f : CastFields) (r : Req), s.writesTo (.restore h f) r 0x600101 0 = true → rising s.od = true →
    f.reservedZero = true → s.mode = .operational → s.mem.cast = none → s.mem.layout.cast ≠ 0 → f.slot.toNat ≤ 3 →
    s.obj Row.castExtent ≤ s.mem.layout.state → f.dest.toNat + s.castExtent ≤ s.mem.layout.state →
    4 * s.castExtent ≤ s.slotQuarters → (s.entry f.slot.toNat).isCast = true →
    Completes (.restore h f) s fun u =>
      s.answeredWith u (.restore h f) r 0 [] ∧
      u.mem = { s.mem with cast := some ⟨2, f.slot.toNat, f.dest.toNat, s.castExtent, .waiting, 0⟩ } ∧
      u.obj Row.castResult = 0x02010000 + f.slot.toNat * 256 ∧ u.objBit Row.memStatus 3 = true ∧
      ({ s with mem := u.mem }).onlyObjects u) ∧
  (∀ (s : State) (h : ReqHdr) (f : CastFields) (r : Req), s.writesTo (.discard h f) r 0x600101 0 = true → rising s.od = true →
    s.mem.dir.length = 4 → f.reservedZero = true → s.mode = .operational → s.mem.cast = none → s.mem.layout.cast ≠ 0 →
    f.slot.toNat ≤ 3 → s.obj Row.castExtent ≤ s.mem.layout.state → (s.entry f.slot.toNat).slotState ≠ 1 →
    Completes (.discard h f) s fun u =>
      u.obj Row.castResult = 0x03000000 + f.slot.toNat * 256 ∧ (u.entry f.slot.toNat).slotState = 0 ∧
      (∀ j, j ≠ f.slot.toNat → u.entry j = s.entry j) ∧ u.mem = { s.mem with dir := u.mem.dir } ∧
      Output.response (responseOf r 0 []) ∈ u.out ∧ ({ s with mem := u.mem }).onlyReported u) ∧
  (∀ (s : State) (h : ReqHdr) (f : CastFields) (r : Req) (op : Fin 3),
    let c : Instr := [.take h f, .restore h f, .discard h f].getD op.val (.take h f)
    s.writesTo c r 0x600101 0 = true → rising s.od = true → s.castRefusal (op.val + 1) f ≠ 0 →
    Completes c s fun u =>
      u.obj Row.castResult = (op.val + 1) * 2 ^ 24 + s.castRefusal (op.val + 1) f * 2 ^ 16 + f.slot.toNat * 256 ∧
      Output.response (responseOf r 0 []) ∈ u.out ∧ s.onlyReported u) ∧
  (∀ (s : State) (f : CastFields) (op : Fin 3), f.reservedZero = true → f.slot.toNat ≤ 3 →
    s.obj Row.castExtent ≤ s.mem.layout.state → f.dest.toNat + s.castExtent ≤ s.mem.layout.state → s.mode ≠ .operational →
    s.castRefusal (op.val + 1) f = 5))

/-! ## The port complex -/

/-- Half-port links (R83-R85, R94-R97, R104, R105). -/
def Obligations.PortLinks : Prop :=
  (∀ (s : State) (hp : HalfPort) (gts width : Nat) (proto : LinkProto) (protocols : BitVec 4), s.alive = true →
    s.halfPorts.length = 8 → (s.hp hp.val).role ≠ 0 → (s.hp hp.val).perst = false → (s.hp hp.val).up = false →
    gts = 8 ∨ gts = 16 ∨ gts = 32 → gts ≤ (s.hp hp.val).cap → width ∈ [1, 2, 4, 8, 16] →
    width ≤ s.goodLanes hp.val (s.hp hp.val).lanes →
    Completes (.linkUp hp gts width proto protocols) s fun u =>
      (u.hp hp.val).up = true ∧ (u.hp hp.val).width = width ∧
      (u.hp hp.val).speed = (if gts = 8 then 3 else if gts = 16 then 4 else 5) ∧
      (u.hp hp.val).degraded = decide (width < if (s.hp hp.val).x16 then 16 else 8) ∧
      ((s.hp hp.val).isAcc = true → (u.hp hp.val).enum = .waiting) ∧
      (proto = .pcie → (u.hp hp.val).proto = 1) ∧ ((s.hp hp.val).role = 2 → (u.hp hp.val).proto = 1) ∧
      (∀ h, h ≠ hp.val → u.hp h = s.hp h) ∧
      ({ s with halfPorts := u.halfPorts }).onlyObjects u) ∧
  (∀ (s : State) (hp : HalfPort), s.alive = true → (s.hp hp.val).role ≠ 0 → (s.hp hp.val).up = false →
    Completes (.linkRetry hp) s fun u => u = s.setHp hp.val { s.hp hp.val with
      up := false, speed := 0, width := 0, proto := 0, degraded := false, enum := .idle, flushing := none
      cmps := (s.hp hp.val).presented }) ∧
  (∀ (s : State) (hp : HalfPort) (e : EnumResult), s.halfPorts.length = 8 → (s.hp hp.val).isAcc = true →
    (s.hp hp.val).up = true → (s.hp hp.val).enum = .waiting ∨ (s.hp hp.val).enum = .retrying → rising s.od = true →
    Completes (.accEnumStart hp e) s fun u =>
      (u.hp hp.val).enum = (if e.retryStatus then .retrying else if e.switchUpstream then .failed else .done) ∧
      (e.retryStatus = true → u = s.setHp hp.val { s.hp hp.val with enum := .retrying }) ∧
      (e.retryStatus = false → ∀ f, (e.funcs.find? fun f => f.number == 0) = some f →
        u.obj Row.downId hp.val = f.deviceId.toNat * 2 ^ 16 + f.vendorId.toNat) ∧
      (∀ h, h ≠ hp.val → s.portKept u h) ∧ ({ s with halfPorts := u.halfPorts }).onlyReported u) ∧
  (∀ (s : State) (hp : HalfPort), s.halfPorts.length = 8 → (s.hp hp.val).enum = .retrying →
    Completes (.enumRetryTimeout hp) s fun u =>
      (u.hp hp.val).enum = .failed ∧ (∀ h, h ≠ hp.val → s.portKept u h) ∧
      ({ s with halfPorts := u.halfPorts }).onlyReported u) ∧
  (∀ (s : State) (hp : HalfPort), s.halfPorts.length = 8 → (s.hp hp.val).isAcc = true → (s.hp hp.val).up = true →
    rising s.od = true →
    Completes (.accLinkDown hp) s fun u =>
      (u.hp hp.val).up = false ∧ (u.hp hp.val).width = 0 ∧
      u.obj Row.linkDownCount hp.val = (s.obj Row.linkDownCount hp.val + 1) % 2 ^ 32 ∧
      (∀ h, h ≠ hp.val → (u.hp h).up = (s.hp h).up ∧ (u.hp h).role = (s.hp h).role) ∧ u.mode = s.mode) ∧
  (∀ s : State, s.halfPorts.length = 8 → s.host.accPulse = true →
    Completes .accPerstPulseEnd s fun u =>
      (∀ h, h < 8 → (s.hp h).role ≠ 1 → (u.hp h).perst = false) ∧ (∀ h, (s.hp h).role = 1 → u.hp h = s.hp h) ∧
      u = { s with halfPorts := u.halfPorts, host := { s.host with accPulse := false } })

/-- The host port (R87, R89, R92, R261). -/
def Obligations.HostPort : Prop :=
  (∀ (s : State) (c : HostLossCause), s.mode = .operational → s.host.entering = none →
    Completes (.hostLoss c) s fun u =>
      u.mode = .operational ∧ u.host.entering ≠ none ∧ u.holding = true ∧ u.host.committed = false ∧ u.host.config = [] ∧
      u.cache = [] ∧ u.security.linkSlots = [] ∧ u.security.linkActive = [] ∧ u.tenant.vfEnable = false ∧ u.ctx.parked = [] ∧
      u.ctx.fetching = [] ∧ u.fabric = s.fabric ∧ u.flash = s.flash ∧ (c = .perst → u.host.perst = true) ∧
      (s.mem.cast = none → s.colls.comms = [] → u.mem = s.mem)) ∧
  (∀ (s : State) (c : HostLossCause), s.alive = true → s.mode ≠ .operational →
    Completes (.hostLoss c) s fun u =>
      u.mode = s.mode ∧ u.host.entering = s.host.entering ∧ u.host.committed = false ∧ u.host.config = [] ∧ u.cache = [] ∧
      u.security.linkSlots = [] ∧ u.tenant.vfEnable = false ∧ u.flash = s.flash) ∧
  (∀ s : State, s.host.entering ≠ none → rising s.od = true →
    Completes .holdEntryDone s fun u =>
      u.mode = .hold ∧ u.host.entering = none ∧ u.obj Row.holdCount = (s.obj Row.holdCount + 1) % 2 ^ 32 ∧
      (s.pairSt ≠ 3 → u = { s with mode := .hold, host := { s.host with entering := none }, od := u.od })) ∧
  (∀ s : State, s.halfPorts.length = 8 →
    Completes .hostPerstDeassert s fun u =>
      u.host.perst = false ∧ (∀ h, s.hostHp = some h → u.hp h = { s.hp h with perst := false }) ∧
      (∀ h, s.hostHp ≠ some h → u.hp h = s.hp h) ∧
      u = { s with host := { s.host with perst := false }, halfPorts := u.halfPorts }) ∧
  (∀ (s : State) (off : BitVec 20) (d : BitVec 32), s.hostUp = true → off.toNat < 4096 →
    Completes (.hostConfigRequest ⟨true, .config 0⟩ off d) s fun u =>
      tget u.host.config (off.toNat / 4 * 4) = some d.toNat ∧
      (∀ h, (u.hp h).up = (s.hp h).up ∧ (u.hp h).role = (s.hp h).role) ∧
      u = { s with halfPorts := u.halfPorts
                   host := { s.host with config := u.host.config, msixOn := u.host.msixOn, msixMask := u.host.msixMask } }) ∧
  (∀ (s : State) (off : BitVec 20) (d : BitVec 32), s.hostUp = true →
    Completes (.hostConfigRequest ⟨false, .config 0⟩ off d) s fun u =>
      (∃ v : Nat, u.out = s.out ++ [.hostData (leBytes 4 v) false]) ∧ u = { s with out := u.out }) ∧
  (∀ (s : State) (off : BitVec 20) (d : BitVec 32), s.hostUp = true → off.toNat < 4 →
    Completes (.hostConfigRequest ⟨false, .bar2 0⟩ off d) s fun u =>
      u = { s with out := s.out ++ [.hostData (leBytes 4 s.mode.code) false] }) ∧
  (∀ (s : State) (off : BitVec 20) (d : BitVec 32), s.hostUp = true →
    Completes (.hostConfigRequest ⟨false, .bar0 0⟩ off d) s fun u =>
      u = { s with out := s.out ++ [.hostData (leBytes 4 0) false] }) ∧
  (∀ (s : State) (off : BitVec 20) (d : BitVec 32), s.hostUp = true →
    Completes (.hostConfigRequest ⟨false, .deviceStatus⟩ off d) s fun u =>
      u = { s with out := s.out ++ [.hostData (leBytes 4 (s.mode.media * 4)) false] }) ∧
  (∀ (s : State) (base : BitVec 64), s.hostUp = true → s.objBit Row.hostProtocol 2 = true → s.obj Row.hdmWindow ≠ 0 →
    rising s.od = true →
    Completes (.hdmDecoderCommit base) s fun u =>
      u.obj Row.hostHdmBase = base.toNat ∧ u = { s with od := u.od, host := { s.host with committed := true } }) ∧
  (∀ s : State, s.objBit Row.hostProtocol 3 = false → Completes .ideFail s fun u => u = s) ∧
  (∀ s : State, s.objBit Row.hostProtocol 3 = true → s.mode = .operational → s.host.entering = none → rising s.od = true →
    Completes .ideFail s fun u =>
      u.obj Row.ideFail = (s.obj Row.ideFail + 1) % 2 ^ 32 ∧ u.host.entering = some 1 ∧ u.security.linkActive = [])

/-- Host and accelerator requests (R13, R88, R90, R96). -/
def Obligations.MemoryRequests : Prop :=
  (∀ (s : State) (addr : BitVec 64) (off : Nat) (ue : Bool), s.hdmOffset (addr.toNat / 64 * 64) = some off →
    s.hdmServed off = true → s.mem.queues = [] → s.mem.initMap.testBit (s.hdmAddr off / gib) = false → s.castWaits = false →
    Completes (.hdmRead addr ue) s fun u =>
      u.mem.queues = [(channelOf (s.hdmAddr off), [⟨3, s.hdmAddr off, .hdmRead ue⟩])] ∧ u.out = s.out ∧
      (ue = false → u.serveChannels.out =
        s.out ++ [.hostData ((List.range 64).map fun i => s.mem.byte (s.hdmAddr off + i)) false]) ∧
      (ue = true → ∃ d : List Byte, d.length = 64 ∧ u.serveChannels.out = s.out ++ [.hostData d true]) ∧
      u.serveChannels.mem.queues = [] ∧ (∀ a, u.serveChannels.mem.byte a = s.mem.byte a)) ∧
  (∀ (s : State) (addr : BitVec 64) (off : Nat) (ue : Bool), s.hdmOffset (addr.toNat / 64 * 64) = some off →
    s.firmwareRuns = true → s.hdmServed off = false →
    Completes (.hdmRead addr ue) s fun u => u = { s with out := s.out ++ [.hostData (List.replicate 64 0xFF) true] }) ∧
  (∀ (s : State) (addr : BitVec 64) (ue : Bool), s.firmwareRuns = false → s.hostUp = true → s.objBit Row.hostProtocol 2 = true →
    Completes (.hdmRead addr ue) s fun u => u = { s with out := s.out ++ [.hostData (List.replicate 64 0xFF) true] }) ∧
  (∀ (s : State) (addr : BitVec 64) (off : Nat) (bytes : List (Option Byte)), bytes.length = 64 →
    s.hdmOffset (addr.toNat / 64 * 64) = some off → s.hdmServed off = true → s.mem.wf = true →
    s.mem.queues = [] → s.mem.initMap.testBit (s.hdmAddr off / gib) = false → s.castWaits = false →
    Completes (.hdmWrite addr bytes) s fun u =>
      u.mem.queues = [(channelOf (s.hdmAddr off), [⟨3, s.hdmAddr off, .hdmWrite bytes⟩])] ∧
      (∀ i, i < 64 → u.serveChannels.mem.byte (s.hdmAddr off + i) = (bytes.getD i none).getD (s.mem.byte (s.hdmAddr off + i))) ∧
      (∀ a, (a < s.hdmAddr off ∨ s.hdmAddr off + 64 ≤ a) → u.serveChannels.mem.byte a = s.mem.byte a) ∧
      u.serveChannels.mem.wf = true) ∧
  (∀ (s : State) (addr : BitVec 64) (ue : Bool), s.firmwareRuns = true → s.hdmOffset (addr.toNat / 64 * 64) = none →
    Completes (.hdmRead addr ue) s fun u => u = s) ∧
  (∀ (s : State) (addr : BitVec 64) (bytes : List (Option Byte)), bytes.length = 64 → s.hdmOffset (addr.toNat / 64 * 64) = none →
    Completes (.hdmWrite addr bytes) s fun u => u = s) ∧
  (∀ (s : State) (line : BitVec 64),
    Completes (.hostSnoop line) s fun u =>
      if s.cache.contains (line.toNat / 64) then
        u = { s with cache := s.cache.erase (line.toNat / 64), out := s.out ++ [.snoopInvalid (line.toNat / 64)] }
      else u = s) ∧
  (∀ (s : State) (hp : HalfPort) (w : Bool) (addr : BitVec 64) (bytes : List Byte) (en : Bool), (s.hp hp.val).isAcc = true →
    (s.hp hp.val).up = true → w = false ∨ addr.toNat < 0x400000000000 ∨ 0x400000000000 + 64 * 2 ^ 30 ≤ addr.toNat →
    rising s.od = true →
    Completes (.accUpstreamRequest hp w addr bytes en) s fun u =>
      u.out = s.out ++ [.unsupported hp.val] ∧ u.obj Row.urCount hp.val = (s.obj Row.urCount hp.val + 1) % 2 ^ 32 ∧
      u = { s with out := u.out, od := u.od })

/-- Placement (R100-R105, R172). -/
def Obligations.Placement : Prop :=
  (∀ (s : State) (hp : HalfPort) (n : Nat), s.halfPorts.length = 8 → (s.hp hp.val).flushing = some n →
    Completes (.flushReadDone hp) s fun u =>
      (u.hp hp.val).flushed = n ∧ u.wq.cqWait = s.wq.cqWait.map (·.landed hp.val (s.hp hp.val).flushes) ∧
      ((∀ w ∈ u.wq.cqWait, ∀ x ∈ w.needs, x.1 ≠ hp.val) → s.wq.regions = [] →
        (u.hp hp.val).flushing = none ∧ u = { s with halfPorts := u.halfPorts, wq := { s.wq with cqWait := u.wq.cqWait } }) ∧
      u.mem = s.mem ∧ u.mode = s.mode) ∧
  (∀ (s : State) (hp : HalfPort) (c : FlushFailCause) (n : Nat), s.halfPorts.length = 8 → (s.hp hp.val).flushing = some n →
    rising s.od = true →
    Completes (.flushReadFail hp c) s fun u =>
      (u.hp hp.val).flushed = (s.hp hp.val).flushed ∧
      u.obj Row.flushFailCount hp.val = (s.obj Row.flushFailCount hp.val + 1) % 2 ^ 32 ∧
      (∀ w ∈ s.wq.cqWait, ((∃ x ∈ w.needs, x.1 = hp.val ∧ x.2 ≤ (s.hp hp.val).flushes + (c == .linkDown).toNat) ∨
          (c = .linkDown ∧ ∃ x ∈ w.cmpNeeds, x.1 = hp.val)) →
        { w with needs := [], cmpNeeds := [], cqe := { w.cqe with status := 3, flushed := false } } ∈ u.wq.cqWait) ∧
      u.mem = s.mem ∧ u.mode = s.mode) ∧
  (∀ (s : State) (hp : HalfPort), s.halfPorts.length = 8 → (s.hp hp.val).isCxlMem = true →
    (s.hp hp.val).cmps < (s.hp hp.val).presented →
    Completes (.cxlMemCmp hp) s fun u =>
      (u.hp hp.val).cmps = (s.hp hp.val).cmps + 1 ∧ (∀ h, h ≠ hp.val → u.hp h = s.hp h) ∧
      u.wq.cqWait = s.wq.cqWait.map (·.completed hp.val ((s.hp hp.val).cmps + 1)) ∧
      u = { s with halfPorts := u.halfPorts, wq := { s.wq with cqWait := u.wq.cqWait } }) ∧
  (∀ (s : State) (ring : RingId) (k : ReadKind), s.ring ring = none →
    Completes (.payloadReadFail ring k) s fun u => u = s) ∧
  (∀ (s : State) (q : Nat) (x : Qp) (n : RingIndex), s.qp q = some x →
    (∀ w ∈ x.wqes, w.index ≠ n ∨ w.internal = true ∨ w.ended = true) →
    Completes (.payloadReadFail (.send q) (.payload n)) s fun u => u = s) ∧
  (∀ (s : State) (q : Nat) (x : Qp) (w : Wqe), s.qp q = some x → x.st = .rts → x.lost = false → w ∈ x.wqes →
    w.internal = false → w.ended = false →
    Completes (.payloadReadFail (.send q) (.payload w.index)) s fun u =>
      (u.qp q).map Qp.st = some .error ∧ (q, 3) ∈ u.wq.erring ∧
      (∀ q', q' ≠ q → u.qp q' = s.qp q') ∧ u.mem = s.mem ∧ u.mode = s.mode) ∧
  (∀ (s : State) (m : Nat) (y : Srq), tget s.wq.srqs m = some y →
    Completes (.payloadReadFail (.srq m) .ring) s fun u =>
      (tget u.wq.srqs m).map Srq.error = some true ∧ (∀ k, k ≠ m → tget u.wq.srqs k = tget s.wq.srqs k) ∧
      u.wq = { s.wq with srqs := u.wq.srqs } ∧ u.mem = s.mem ∧ u.mode = s.mode)

/-! ## Work queues -/

/-- Doorbells (R117-R120). -/
def Obligations.Doorbells : Prop :=
  (∀ (s : State) (w : ApertureWrite) (v : Nat) (id : RingId) (r : Ring), s.firmwareRuns = true → s.holding = false →
    s.functionLive w.func = true → w.value = some v → s.slotOf w.func w.offset = .ring id → s.ring id = some r →
    s.ignoresDoorbells id = false → rising s.od = true →
    Completes (.doorbell w) s fun u =>
      let t : RingIndex := BitVec.ofNat 16 v
      u.ring id = some { r with
        armed := v.testBit 31
        due := if v.testBit 31 ∧ r.armed = false then s.timer + r.interval else r.due
        k := if ahead r.h t ≤ r.size - 1 ∧ ahead r.h r.k ≤ ahead r.h t then t else r.k } ∧
      u.obj Row.doorbellCount = (s.obj Row.doorbellCount + 1) % 2 ^ 64 ∧ (∀ a, u.mem.byte a = s.mem.byte a) ∧
      u.mode = s.mode ∧ u.wq.cqs = s.wq.cqs) ∧
  (∀ (s : State) (w : ApertureWrite) (v : Nat) (id : RingId), w.value = some v → s.slotOf w.func w.offset = .ring id →
    s.ignoresDoorbells id = true → Completes (.doorbell w) s fun u => u = s) ∧
  (∀ (s : State) (w : ApertureWrite) (v c : Nat) (cq : Cq), s.firmwareRuns = true → s.holding = false →
    s.functionLive w.func = true → w.value = some v → s.slotOf w.func w.offset = .cq c → tget s.wq.cqs c = some cq →
    cq.resync = false → rising s.od = true →
    Completes (.cqDoorbell w) s fun u =>
      let h : RingIndex := BitVec.ofNat 16 v
      let ok := ahead cq.head h ≤ cq.used
      let left := if ok then cq.used - ahead cq.head h else cq.used
      tget u.wq.cqs c = some { cq with
        head := if ok then h else cq.head, used := left
        armEvent := if v.testBit 31 ∧ left = 0 then true else cq.armEvent } ∧
      u.obj Row.doorbellCount = (s.obj Row.doorbellCount + 1) % 2 ^ 64 ∧
      (v.testBit 31 = true → ok → left ≠ 0 → u.out = (s.msix cq.func cq.vector).out ∧
        u.host.msixPending = (s.msix cq.func cq.vector).host.msixPending) ∧
      u.wq.qps = s.wq.qps ∧ u.wq.srqs = s.wq.srqs ∧ u.mem = s.mem) ∧
  (∀ (s : State) (w : ApertureWrite) (c : Instr), c = .doorbell w ∨ c = .cqDoorbell w → s.firmwareRuns = true →
    s.holding = false → s.functionLive w.func = true → w.value = none ∨ s.slotOf w.func w.offset = .none → rising s.od = true →
    Completes c s fun u =>
      u.obj Row.doorbellInvalidCount = (s.obj Row.doorbellInvalidCount + 1) % 2 ^ 32 ∧ u = { s with od := u.od })

/-- Polls and re-reads (R121-R123). -/
def Obligations.PollsAndRereads : Prop :=
  (∀ (s : State) (id : RingId) (r : Ring) (own : Bool), s.ring id = some r → s.ringReadable id = true → s.ringHot id = true →
    r.polled = true → rising s.od = true →
    Completes (.pollRead id own) s fun u =>
      u.timer = max s.timer r.due ∧
      u.ring id = some (if own then
        { r with
          due := u.timer + r.pollEvery, k := if r.h = r.k then r.h + 1 else r.k, pollRun := r.pollRun || r.reread.isNone
          reread := none }
        else { r with due := u.timer + r.pollEvery }) ∧
      u.obj Row.pollReadCount = (s.obj Row.pollReadCount + 1) % 2 ^ 64 ∧ u.mem = s.mem ∧ u.mode = s.mode) ∧
  (∀ (s : State) (id : RingId) (r : Ring), s.ring id = some r → s.mayConsume id = true → r.reread = none →
    Completes (.ringEntryEmpty id) s fun u =>
      u.ring id = some (if r.h = r.k then { r with pollRun := false } else { r with reread := some ⟨s.timer, 0, 0, false⟩ }) ∧
      u = { s with wq := u.wq }) ∧
  (∀ (s : State) (id : RingId) (r : Ring) (rr : Reread), s.ring id = some r → s.ringReadable id = true → s.ringHot id = true →
    r.reread = some rr → rr.fallback = false → rr.issued < 8 → rising s.od = true →
    Completes (.rereadIssue id (rr.issued + 1)) s fun u =>
      u.ring id = some { r with reread := some { rr with issued := rr.issued + 1 } } ∧
      u.timer = max s.timer (rr.since + 1000 * (rr.issued + 1)) ∧
      u.obj Row.rereadCount = (s.obj Row.rereadCount + 1) % 2 ^ 64 ∧ u.mem = s.mem ∧ u.mode = s.mode) ∧
  (∀ (s : State) (id : RingId) (r : Ring) (rr : Reread) (j : Nat) (own : Bool), s.ring id = some r → r.reread = some rr →
    rr.fallback = false → 1 ≤ j → j ≤ rr.issued →
    Completes (.rereadReturn id j own) s fun u =>
      (u.ring id).map Ring.reread =
        some (if own then none else some ⟨rr.since, rr.issued, rr.returned + 1, rr.returned + 1 == 8⟩) ∧
      (u.ring id).map Ring.h = some r.h ∧ (u.ring id).map Ring.k = some r.k ∧ u.mem = s.mem ∧ u.mode = s.mode)

/-- Send-ring entries (R125-R131, R152-R154, R191). -/
def Obligations.SendEntries : Prop :=
  (∀ (s : State) (q : Nat) (x : Qp) (b : SqeBits) (c : Instr), s.qp q = some x → s.mayConsume (.send q) = true →
    x.tier = .hot → (c, (sqeOf b).opcode) ∈ [(Instr.send q b, (0x01 : Byte)), (.writeOperation q b, 0x03), (.writeImm q b, 0x04),
      (.readOperation q b, 0x05), (.fetchAdd64 q b, 0x06), (.cmpSwap64 q b, 0x07)] →
    s.judge x (sqeOf b) = .good → x.regain = [] → s.wq.aborts = [] →
    Completes c s fun u =>
      (u.qp q).map Qp.wqes = some (x.wqes ++ [{ Wqe.new (sqeOf b) x.sq.h with mirrored := !s.mirrors q x }]) ∧
      (u.qp q).map (fun y => y.sq.h) = some (x.sq.h + 1) ∧ (u.qp q).map Qp.st = some x.st ∧
      (∀ q', q' ≠ q → u.qp q' = s.qp q') ∧ u.wq.cqWait = s.wq.cqWait ∧ u.mem = s.mem ∧ u.mode = s.mode) ∧
  (∀ (s : State) (q : Nat) (x : Qp) (b : SqeBits) (cq : Cq), s.qp q = some x → s.mayConsume (.send q) = true →
    x.tier = .hot → (sqeOf b).opcode = 0x00 → (sqeOf b).c = true → s.judge x (sqeOf b) = .good → x.wqes = [] →
    s.wq.aborts = [] → x.uncovered = [] → tget s.wq.cqs (s.global totalCqs x.func x.sq.cqn) = some cq → cq.error = false →
    Completes (.nop q b) s fun u =>
      (u.qp q).map Qp.wqes = some [] ∧ (u.qp q).map (fun y => y.sq.h) = some (x.sq.h + 1) ∧
      (u.wq.cqWait.drop s.wq.cqWait.length).map (fun w => (w.qpn, w.cqe.index, w.cqe.status, w.cqe.wrId, w.cqe.count)) =
        [(q, x.sq.h, 0, (sqeOf b).wrId, BitVec.ofNat 16 (x.uncoveredCount + 1))] ∧
      (∀ q', q' ≠ q → u.qp q' = s.qp q') ∧ u.mem = s.mem ∧ u.mode = s.mode) ∧
  (∀ (s : State) (q : Nat) (x : Qp) (b : SqeBits) (c : Instr), s.qp q = some x → s.mayConsume (.send q) = true →
    x.tier = .hot → (c, (sqeOf b).opcode) ∈ [(Instr.send q b, (0x01 : Byte)), (.writeOperation q b, 0x03), (.writeImm q b, 0x04),
      (.readOperation q b, 0x05), (.fetchAdd64 q b, 0x06), (.cmpSwap64 q b, 0x07), (.nop q b, 0x00), (.abort q b, 0x1F)] →
    x.st = .rts → badSqe x.type (sqeOf b) = true → s.wq.aborts = [] →
    Completes c s fun u =>
      (u.qp q).map Qp.st = some .error ∧ (q, 0x0A) ∈ u.wq.erring ∧ (u.qp q).map (fun y => y.sq.h) = some (x.sq.h + 1) ∧
      (∀ q', q' ≠ q → u.qp q' = s.qp q') ∧ u.mem = s.mem ∧ u.mode = s.mode) ∧
  (∀ (s : State) (q : Nat) (x : Qp) (b : SqeBits) (c : Instr), s.qp q = some x → s.mayConsume (.send q) = true →
    x.tier ≠ .hot → (c, (sqeOf b).opcode) ∈ [(Instr.send q b, (0x01 : Byte)), (.writeOperation q b, 0x03), (.writeImm q b, 0x04),
      (.readOperation q b, 0x05), (.fetchAdd64 q b, 0x06), (.cmpSwap64 q b, 0x07), (.nop q b, 0x00), (.abort q b, 0x1F)] →
    Completes c s fun u =>
      u.wq.qps = s.wq.qps ∧ u = s.wantFetch q none ∧
      (s.fetchRunning q = false → (s.ctx.fetchWait.any fun f => f.2 == q) = false → (q, none) ∈ u.ctx.fetching))

/-- Other queue entries (R127, R133-R136, R143, R153, R272). -/
def Obligations.OtherEntries : Prop :=
  (∀ (s : State) (q : Nat) (x : Qp) (r : Ring) (b : SqeBits), s.qp q = some x → x.rq = some r → s.mayConsume (.recv q) = true →
    x.tier = .hot → x.st ≠ .error → s.recvFault x.func (sqeOf b) = none → s.wq.aborts = [] →
    Completes (.recv (.recv q) b) s fun u =>
      (u.qp q).map (fun y => y.resp.recvs) = some (x.resp.recvs ++ [RecvE.new r.h (sqeOf b) none]) ∧
      (u.ring (.recv q)).map Ring.h = some (r.h + 1) ∧ (∀ q', q' ≠ q → u.qp q' = s.qp q') ∧ u.mem = s.mem ∧ u.mode = s.mode) ∧
  (∀ (s : State) (n : Nat) (y : Srq) (b : SqeBits), tget s.wq.srqs n = some y → s.mayConsume (.srq n) = true →
    s.recvFault y.func (sqeOf b) = none → s.wq.aborts = [] →
    Completes (.recv (.srq n) b) s fun u =>
      (tget u.wq.srqs n).map Srq.entries = some (y.entries ++ [RecvE.new y.ring.h (sqeOf b) none]) ∧
      (u.ring (.srq n)).map Ring.h = some (y.ring.h + 1) ∧ u.wq.qps = s.wq.qps ∧ u.mem = s.mem ∧ u.mode = s.mode) ∧
  (∀ (s : State) (q : Nat) (x : Qp) (k : RingIndex) (w : Wqe) (bs : List FragBits), s.qp q = some x →
    x.wqes.find? (fun w => w.index == k && w.st == .frags) = some w → (bs.all fun b => decide ((fragOf b).len.toNat ≤ 2 ^ 31)) = true →
    ((fragSegs (bs.map fragOf)).map Seg.len).sum ≤ 2 ^ 31 → (fragSegs (bs.map fragOf)).all (s.segOk x.func (writesLocal w.sqe.opcode)) = true →
    Completes (.fragmentReadDone (.send q) k bs) s fun u =>
      let fs := bs.map fragOf
      (u.qp q).map Qp.wqes = some (x.wqes.map fun v => if v.index = k then
        { w with st := .queued, segs := fragSegs fs, length := ((fragSegs fs).map Seg.len).sum } else v) ∧
      u = { s with wq := { s.wq with qps := u.wq.qps }, ctx := { s.ctx with regions := u.ctx.regions }, od := u.od }) ∧
  (∀ (s : State) (q : Nat) (x : Qp) (b : SqeBits) (id : RingId) (k : RingIndex) (r : Ring), s.qp q = some x →
    s.mayConsume (.send q) = true → x.tier = .hot → (sqeOf b).opcode = 0x1F → s.judge x (sqeOf b) = .good → s.wq.aborts = [] →
    s.abortTarget x.func (sqeOf b) = some (id, k) → s.ring id = some r → id ≠ .send q →
    ahead (s.oldest id r) r.h ≤ ahead (s.oldest id r) k → ahead (s.oldest id r) k < ahead (s.oldest id r) r.k →
    Completes (.abort q b) s fun u =>
      u.wq.aborts = [⟨id, k, (sqeOf b).operandA, q, x.sq.h, (sqeOf b).wrId⟩] ∧ (u.qp q).map (fun y => y.sq.h) = some (x.sq.h + 1) ∧
      u.wq.cqWait = s.wq.cqWait ∧ u.mem = s.mem ∧ u.mode = s.mode) ∧
  (∀ (s : State) (q : Nat) (x : Qp) (b : SqeBits) (cq : Cq), s.qp q = some x → s.mayConsume (.send q) = true →
    x.tier = .hot → (sqeOf b).opcode = 0x1F → s.judge x (sqeOf b) = .good → s.wq.aborts = [] →
    s.abortTarget x.func (sqeOf b) = none → cq.error = false →
    tget s.wq.cqs (s.global totalCqs x.func x.sq.cqn) = some cq → rising s.od = true →
    Completes (.abort q b) s fun u =>
      (u.wq.cqWait.drop s.wq.cqWait.length).map (fun w => (w.qpn, w.cqe.index, w.cqe.status, w.cqe.byteCount, w.cqe.count)) =
        [(q, x.sq.h, 0, 2, 1)] ∧
      u.objField Row.abortCount 8 4 = (s.objField Row.abortCount 8 4 + 1) % 2 ^ 32 ∧ u.mem = s.mem ∧ u.mode = s.mode) ∧
  (∀ (s : State) (q : Nat) (z : Qp) (c : Nat) (x : Comm) (b : SqeBits) (r : CollReads), s.qp q = some z → z.type = .coll →
    z.comm = some c → s.comm c = some x → s.mayConsume (.send q) = true → x.submit = some q → x.colls.length < 64 →
    z.tier = .hot → z.st = .rts → badCollSqe (collSqeOf b) x.n = false → (z.tokens && (collSqeOf b).t && z.history.contains (some (collSqeOf b).token)) = false →
    (kindReduces (collSqeOf b).kind.toNat = true → s.enabled 8 = true) → s.wq.aborts = [] → x.broken = false → r.ok = true → x.early = [] → x.ahead = [] →
    s.collKeysOk x.func x.n x.rank (Coll.new x.nextK s.colls.nextOrder s.timer (collSqeOf b) z.sq.h r) = true →
    Completes (.collective q b r) s fun u =>
      (u.comm c).map Comm.colls = some (x.colls ++ [Coll.new x.nextK s.colls.nextOrder s.timer (collSqeOf b) z.sq.h r]) ∧
      (u.comm c).map Comm.nextK = some (x.nextK + 1) ∧ (u.qp q).map (fun y => y.sq.h) = some (z.sq.h + 1) ∧
      (u.qp q).map Qp.st = some .rts ∧ u.mem = s.mem ∧ u.mode = s.mode) ∧
  (∀ (s : State) (f : Nat) (h : RingIndex) (arm : Bool) (e : Eq), s.firmwareRuns = true → s.holding = false →
    tget s.eqs f = some e → e.lost = 0 →
    Completes (.eqHeadWrite f h arm) s fun u =>
      tget u.eqs f = some { e with head := h, used := e.used - ahead e.head h, arm := e.arm || arm } ∧ u = { s with eqs := u.eqs })

/-! ## Control commands -/

/-- CTRL_CMD writes (R140). -/
def Obligations.ControlBlocks : Prop :=
  (∀ (s : State) (i : Instr) (code : Nat) (c : CtrlHdr), blockOf i = some (code, c) → c.index.val = 0 → c.last = false →
    Completes i s fun u => u = { s with mgmt := { s.mgmt with blocks := [i] } }) ∧
  (∀ (s : State) (i : Instr) (code : Nat) (c : CtrlHdr), blockOf i = some (code, c) → s.takesBlock i = true →
    (s.runBlock i).result ≠ 0 → (∀ q, s.contextOf i = some q → s.contextAwaited q = false) →
    Completes i s fun u =>
      u.blockOver i c (s.runBlock i).result (s.runBlock i).value (s.runBlock i).extra ∧
      (∀ k, k ≠ Row.ctrlResult.key 0 0 → k ≠ Row.hotHit.key 0 0 → tget u.od k = tget s.od k) ∧
      (∀ q, u.qp q = s.qp q ∨ s.contextOf i = some q ∧ u.qp q = (s.qp q).map Qp.seen) ∧
      u = { s with out := u.out, od := u.od, mgmt := u.mgmt, wq := { s.wq with qps := u.wq.qps } }) ∧
  (∀ (s : State) (i : Instr) (code q : Nat) (c : CtrlHdr), blockOf i = some (code, c) → s.takesBlock i = true →
    s.contextOf i = some q → s.contextAwaited q = true →
    Completes i s fun u =>
      u.mgmt.busy = some (.fetch q, [i]) ∧ u.wq.qps = s.wq.qps ∧ u.mgmt.results = []) ∧
  (∀ (s : State) (i : Instr) (code st : Nat) (c : CtrlHdr), blockOf i = some (code, c) → c.index.val = 0 → c.last = true →
    s.takes (ctrlReq c.hdr 1) [i] = true → s.check467 (ctrlReq c.hdr 1) (s.envOf i (ctrlReq c.hdr 1)).lyandez = .no st → st ≠ 0x0E →
    Completes i s fun u =>
      u.out = s.out ++ [.response (responseOf (ctrlReq c.hdr 1) st [])] ∧ s.onlyAnswered u)

/-- Creating queues, QPs and regions (R107, R143-R149). -/
def Obligations.ControlCreates : Prop :=
  (∀ (s : State) (c : CtrlHdr) (f : EqFields), s.takesBlock (.createEq c f) = true → passes (s.gateChecks c false) = true →
    c.number = 0 → tget s.eqs c.func.toNat = none → f.vector.toNat < vectors c.func.toNat →
    passes (s.ringChecks c.func.toNat f.base.toNat f.log2.toNat f.path.toNat 0 32) = true →
    Completes (.createEq c f) s fun u =>
      u.blockOver (.createEq c f) c 0 none 0 ∧ s.objectsKept u ∧
      u = { s with
        out := u.out, od := u.od, mgmt := u.mgmt
        eqs := tput s.eqs c.func.toNat
          ⟨f.base, (s.ringLog2 f.log2.toNat).getD 6, f.path.toNat, f.vector.toNat, 0, 0, false,
            (tget s.eqLost c.func.toNat).getD 0, 0⟩
        eqLost := tdel s.eqLost c.func.toNat }) ∧
  (∀ (s : State) (c : CtrlHdr) (f : CqFields), s.takesBlock (.createCq c f) = true → passes (s.gateChecks c true) = true →
    c.number.toNat < s.cCount → tget s.wq.cqs (CtrlHdr.gnum s c totalCqs) = none → f.noFlush.toNat ≤ 1 →
    f.vector.toNat < vectors c.func.toNat → passes (s.ringChecks c.func.toNat f.base.toNat f.log2.toNat f.path.toNat 0 32) = true →
    passes [s.twinCheck c] = true →
    Completes (.createCq c f) s fun u =>
      u.blockOver (.createCq c f) c 0 none 0 ∧ s.objectsKept u ∧
      u = { s with
        out := u.out, od := u.od, mgmt := u.mgmt
        wq := { s.wq with
          cqs := tput s.wq.cqs (CtrlHdr.gnum s c totalCqs)
            ⟨c.func.toNat, f.base.toNat, (s.ringLog2 f.log2.toNat).getD 6, f.path.toNat, f.noFlush == 0, f.vector.toNat, 0, 0,
            false, false, false, 0⟩ } }) ∧
  (∀ (s : State) (c : CtrlHdr) (f : SrqFields), s.takesBlock (.createSrq c f) = true → passes (s.gateChecks c true) = true →
    c.number.toNat < s.sCount → tget s.wq.srqs (CtrlHdr.gnum s c totalSrqs) = none →
    passes (s.ringChecks c.func.toNat f.base.toNat f.log2.toNat f.path.toNat f.poll.toNat 64) = true → passes [s.twinCheck c] = true →
    Completes (.createSrq c f) s fun u =>
      u.blockOver (.createSrq c f) c 0 none 0 ∧ s.objectsKept u ∧
      u = { s with
        out := u.out, od := u.od, mgmt := u.mgmt
        wq := { s.wq with
          srqs := tput s.wq.srqs (CtrlHdr.gnum s c totalSrqs)
            ⟨c.func.toNat, s.mkRing ⟨f.base, f.log2, f.path, f.poll, 0⟩, [], false⟩ } }) ∧
  (∀ (s : State) (c : CtrlHdr) (f : QpFields) (t : QpType), s.takesBlock (.createQp c f) = true → qpTypeOf f.type.toNat = some t →
    t ≠ .coll → passes (s.gateChecks c true) = true → c.number ≠ 0 → c.number.toNat < s.qCount →
    s.qp (CtrlHdr.gnum s c totalQps) = none → s.reservedQp (CtrlHdr.gnum s c totalQps) = false →
    (f.flags.getLsbD 0 = true → s.countQps c.func.toNat Qp.tokens < s.perShare 65536) →
    (t = .roceRc → s.roceRoom c.func.toNat = true) → passes (s.ringFieldChecks c.func.toNat f.sq) = true →
    passes (if f.flags.getLsbD 1 then s.cqChecks c.func.toNat f.rq.cqn.toNat ++ s.srqChecks c.func.toNat f.srqn.toNat
      else s.ringFieldChecks c.func.toNat f.rq) = true →
    passes (s.homeChecks (CtrlHdr.gnum s c totalQps)
      [s.global totalCqs c.func.toNat f.sq.cqn.toNat, s.global totalCqs c.func.toNat f.rq.cqn.toNat]
      (if f.flags.getLsbD 1 then [s.global totalSrqs c.func.toNat f.srqn.toNat] else []) (t == .roceRc)) = true →
    (t ≠ .roceRc → passes [s.twinCheck c] = true) →
    Completes (.createQp c f) s fun u =>
      u.blockOver (.createQp c f) c 0 none 0 ∧
      (u.qp (CtrlHdr.gnum s c totalQps)).map (fun y => { y with tier := Tier.warm, referenced := false, dirty := false }) = some (s.newQp c.func.toNat t (s.mkRing f.sq)
        (if f.flags.getLsbD 1 then none else some (s.mkRing f.rq))
        (if f.flags.getLsbD 1 then some (s.global totalSrqs c.func.toNat f.srqn.toNat) else none) f.rq.cqn.toNat none
        (f.flags.getLsbD 0)) ∧
      (0 < s.freeHot → (u.qp (CtrlHdr.gnum s c totalQps)).map Qp.tier = some Tier.hot ∧
        (∀ q, q ≠ CtrlHdr.gnum s c totalQps → u.qp q = s.qp q) ∧
        u = { s with out := u.out, od := u.od, mgmt := u.mgmt, wq := { s.wq with qps := u.wq.qps } })) ∧
  (∀ (s : State) (c : CtrlHdr) (f : QpFields) (n : Nat) (m : Comm), s.takesBlock (.createQp c f) = true → f.type = 2 →
    passes (s.gateChecks c true) = true → c.number ≠ 0 → c.number.toNat < s.qCount →
    s.qp (CtrlHdr.gnum s c totalQps) = none → s.commNamed c.func.toNat f.srqn.toNat = some (n, m) → s.comm n = some m →
    CtrlHdr.gnum s c totalQps = Comm.connQp s m m.rank → m.submit = none →
    (f.flags.getLsbD 0 = true → s.countQps c.func.toNat Qp.tokens < s.perShare 65536) → passes (s.ringFieldChecks c.func.toNat f.sq) = true →
    Completes (.createQp c f) s fun u =>
      u.blockOver (.createQp c f) c 0 none 0 ∧
      (u.qp (CtrlHdr.gnum s c totalQps)).map (fun x => (x.type, x.st, x.sq, x.comm)) =
        some (QpType.coll, QpSt.reset, s.mkRing f.sq, some n) ∧
      u.comm n = some { m with submit := some (CtrlHdr.gnum s c totalQps) } ∧ u.mem = s.mem) ∧
  (∀ (s : State) (c : CtrlHdr) (x : Qp), s.takesBlock (.queryQp c) = true → passes (s.gateChecks c false) = true → c.number ≠ 0 →
    c.number.toNat < s.qCount → s.qp (CtrlHdr.gnum s c totalQps) = some x → x.freeing = false →
    x.tier = .hot ∨ x.lost = true →
    Completes (.queryQp c) s fun u =>
      u.blockOver (.queryQp c) c 0 none
        ((if x.lost then 0xFE else x.st.code) + x.req.nxt.toNat * 2 ^ 8 + x.resp.e.toNat * 2 ^ 32) ∧
      (u.qp (CtrlHdr.gnum s c totalQps)).map (fun y => (y.st, y.sq, y.req, y.resp)) = some (x.st, x.sq, x.req, x.resp) ∧
      (∀ q, q ≠ CtrlHdr.gnum s c totalQps → u.qp q = s.qp q) ∧ u.mem = s.mem ∧ u.mode = s.mode) ∧
  (∀ (s : State) (c : CtrlHdr) (f : RegionFields), s.takesBlock (.regRegion c f) = true → passes (s.gateChecks c true) = true →
    passes (s.regionChecks (CtrlHdr.gnum s c totalRegions) c f) = true → passes [s.twinCheck c] = true →
    Completes (.regRegion c f) s fun u =>
      let g := CtrlHdr.gnum s c totalRegions
      let gen : Byte := match tget s.wq.regions g with
        | some r => r.gen
        | none => 1
      u.blockOver (.regRegion c f) c 0 (some (g * 256 + gen.toNat)) 0 ∧ s.objectsKept u ∧
      tget u.wq.regions g = some ⟨c.func.toNat, f.va.toNat, f.length.toNat, f.path.toNat, f.pageSize.toNat, f.access.toNat % 32,
        f.bindQpn.toNat, (f.pages.getD []).map BitVec.toNat, gen,
        true, none, false⟩ ∧
      (∀ n, n ≠ g → tget u.wq.regions n = tget s.wq.regions n) ∧
      u = { s with
        out := u.out, od := u.od, mgmt := u.mgmt, wq := { s.wq with regions := u.wq.regions }
        ctx := { s.ctx with regions := u.ctx.regions } })

/-- MODIFY_QP (R145, R147). -/
def Obligations.ModifiesQp : Prop :=
  (∀ (s : State) (c : CtrlHdr) (f : ModifyFields) (x : Qp), s.takesBlock (.modifyQp c f) = true →
    passes (s.gateChecks c false) = true → c.number ≠ 0 → c.number.toNat < s.qCount →
    s.qp (CtrlHdr.gnum s c totalQps) = some x → x.freeing = false → x.lost = false → x.tier = .hot → passes (s.attrChecks x f) = true →
    x.transition f = true → s.connFault (CtrlHdr.gnum s c totalQps) x f = false → s.keyFault (CtrlHdr.gnum s c totalQps) x f = false →
    (x.mirrorable = true → passes [s.twinCheck c] = true) → f.newState = 1 ∨ f.newState = 2 ∨ f.newState = 3 →
    Completes (.modifyQp c f) s fun u =>
      u.blockOver (.modifyQp c f) c 0 none 0 ∧
      (∀ q, q ≠ CtrlHdr.gnum s c totalQps → u.qp q = s.qp q) ∧ u.mem = s.mem ∧ u.mode = s.mode ∧
      ∃ y, u.qp (CtrlHdr.gnum s c totalQps) = some y ∧ y.st = qpStOf f.newState.toNat ∧ y.sq = x.sq ∧ y.rq = x.rq ∧
        y.wqes = x.wqes ∧
        y.attr.remoteModule = (if f.has 0 then BitVec.ofNat 20 f.remoteModule.toNat else x.attr.remoteModule) ∧
        y.attr.remoteQpn = (if f.has 0 then BitVec.ofNat 24 f.remoteQpn.toNat else x.attr.remoteQpn) ∧
        y.req.una = (if f.has 1 then BitVec.ofNat 24 f.sqPsn.toNat else x.req.una) ∧
        y.req.nxt = (if f.has 1 then BitVec.ofNat 24 f.sqPsn.toNat else x.req.nxt) ∧
        y.resp.e = (if f.has 2 then BitVec.ofNat 24 f.rqPsn.toNat else x.resp.e) ∧
        y.attr.rnrRetry = (if f.has 3 then f.rnrRetry.toNat else x.attr.rnrRetry) ∧
        y.attr.rnrDelay = (if f.has 3 then f.rnrDelay.toNat else x.attr.rnrDelay) ∧
        y.attr.bulk = (if f.has 4 then f.vcClass == 1 else x.attr.bulk) ∧
        y.attr.cipherOn = (if f.has 5 then f.cipherOn == 1 else x.attr.cipherOn) ∧
        y.attr.keySlot = (if f.has 5 then f.keySlot.toNat else x.attr.keySlot) ∧
        y.attr.qKey = (if f.has 6 then f.qKey else x.attr.qKey) ∧
        y.attr.pmtu = (if f.has 7 then f.pmtu.toNat else x.attr.pmtu)) ∧
  (∀ (s : State) (c : CtrlHdr) (f : ModifyFields) (x : Qp), s.takesBlock (.modifyQp c f) = true →
    passes (s.gateChecks c false) = true → c.number ≠ 0 → c.number.toNat < s.qCount →
    s.qp (CtrlHdr.gnum s c totalQps) = some x → x.freeing = false → x.lost = false → x.tier = .hot → passes (s.attrChecks x f) = true →
    x.st ≠ .reset → s.connFault (CtrlHdr.gnum s c totalQps) x f = false → s.keyFault (CtrlHdr.gnum s c totalQps) x f = false →
    (x.mirrorable = true → passes [s.twinCheck c] = true) → f.newState = 4 →
    Completes (.modifyQp c f) s fun u =>
      u.blockOver (.modifyQp c f) c 0 none 0 ∧
      (u.qp (CtrlHdr.gnum s c totalQps)).map (fun y => (y.st, y.attr.qKey, y.attr.bulk)) =
        some (.error, if f.has 6 then f.qKey else x.attr.qKey, if f.has 4 then f.vcClass == 1 else x.attr.bulk) ∧
      (∀ q, q ≠ CtrlHdr.gnum s c totalQps → u.qp q = s.qp q) ∧ u.mem = s.mem ∧ u.mode = s.mode) ∧
  (∀ (s : State) (c : CtrlHdr) (f : ModifyFields) (x : Qp), s.takesBlock (.modifyQp c f) = true →
    passes (s.gateChecks c false) = true → c.number ≠ 0 → c.number.toNat < s.qCount →
    s.qp (CtrlHdr.gnum s c totalQps) = some x → x.freeing = false → x.lost = false → x.tier = .hot → passes (s.attrChecks x f) = true →
    s.connFault (CtrlHdr.gnum s c totalQps) x f = false → s.keyFault (CtrlHdr.gnum s c totalQps) x f = false →
    (x.mirrorable = true → passes [s.twinCheck c] = true) → f.newState = 0 →
    Completes (.modifyQp c f) s fun u =>
      u.mgmt.busy = some (.flush (CtrlHdr.gnum s c totalQps), [.modifyQp c f]) ∧
      (u.qp (CtrlHdr.gnum s c totalQps)).map Qp.st = some (if x.st = .reset then .reset else .error) ∧
      (∀ q, q ≠ CtrlHdr.gnum s c totalQps → u.qp q = s.qp q) ∧ u.mem = s.mem ∧ u.mode = s.mode)

/-- Destroying queues, QPs and regions (R116, R141, R150, R151). -/
def Obligations.ControlDestroys : Prop :=
  (∀ (s : State) (c : CtrlHdr), s.takesBlock (.destroyEq c) = true → passes (s.gateChecks c false) = true → c.number = 0 →
    tget s.eqs c.func.toNat ≠ none →
    Completes (.destroyEq c) s fun u =>
      u.blockOver (.destroyEq c) c 0 none 0 ∧ s.objectsKept u ∧
      u = { s with out := u.out, od := u.od, mgmt := u.mgmt, eqs := tdel s.eqs c.func.toNat, eqLost := u.eqLost } ∧
      ∀ e, tget s.eqs c.func.toNat = some e →
        u.eqLost = if e.lost = 0 then s.eqLost else tput s.eqLost c.func.toNat e.lost) ∧
  (∀ (s : State) (c : CtrlHdr), s.takesBlock (.destroyCq c) = true → passes (s.gateChecks c false) = true →
    c.number.toNat < s.cCount → tget s.wq.cqs (CtrlHdr.gnum s c totalCqs) ≠ none →
    s.liveUsers (CtrlHdr.gnum s c totalCqs) = [] → passes [s.twinCheck c] = true →
    Completes (.destroyCq c) s fun u =>
      u.blockOver (.destroyCq c) c 0 none 0 ∧ s.objectsKept u ∧
      u = { s with
        out := u.out, od := u.od, mgmt := u.mgmt
        wq := { s.wq with
          cqs := tdel s.wq.cqs (CtrlHdr.gnum s c totalCqs)
          cqWait := s.wq.cqWait.filter fun w => w.cqn != CtrlHdr.gnum s c totalCqs } }) ∧
  (∀ (s : State) (c : CtrlHdr), s.takesBlock (.destroySrq c) = true → passes (s.gateChecks c false) = true →
    c.number.toNat < s.sCount → tget s.wq.srqs (CtrlHdr.gnum s c totalSrqs) ≠ none →
    (s.wq.qps.all fun p => p.2.srqn != some (CtrlHdr.gnum s c totalSrqs) || p.2.freeing) = true → passes [s.twinCheck c] = true →
    s.wq.aborts = [] →
    Completes (.destroySrq c) s fun u =>
      u.blockOver (.destroySrq c) c 0 none 0 ∧ s.objectsKept u ∧
      u = { s with
        out := u.out, od := u.od, mgmt := u.mgmt
        wq := { s.wq with srqs := tdel s.wq.srqs (CtrlHdr.gnum s c totalSrqs) } }) ∧
  (∀ (s : State) (c : CtrlHdr) (x : Qp), s.takesBlock (.destroyQp c) = true → passes (s.gateChecks c false) = true →
    c.number ≠ 0 → c.number.toNat < s.qCount → s.qp (CtrlHdr.gnum s c totalQps) = some x → x.freeing = false →
    x.tier = .hot ∨ x.lost = true → (x.mirrorable = true → passes [s.twinCheck c] = true) →
    Completes (.destroyQp c) s fun u =>
      u.blockOver (.destroyQp c) c 0 none 0 ∧
      (u.qp (CtrlHdr.gnum s c totalQps)).map (fun y => (y.freeing, y.st, y.wqes)) = some (true, QpSt.reset, []) ∧
      (∀ w ∈ u.wq.cqWait, w.qpn ≠ CtrlHdr.gnum s c totalQps) ∧ u.mode = s.mode) ∧
  (∀ (s : State) (q : Nat) (x : Qp), s.qp q = some x → x.freeing = true → rising s.wq.qps = true →
    Completes (.qpFree q) s fun u =>
      u.qp q = none ∧ (∀ q', q' ≠ q → u.qp q' = s.qp q') ∧ u.mem = s.mem ∧ u.mode = s.mode) ∧
  (∀ (s : State) (q : Nat), (∀ x, s.qp q = some x → x.freeing = false) → Completes (.qpFree q) s fun u => u = s) ∧
  (∀ (s : State) (c : CtrlHdr) (cq : Cq), s.takesBlock (.resetCq c) = true → passes (s.gateChecks c false) = true →
    c.number.toNat < s.cCount → tget s.wq.cqs (CtrlHdr.gnum s c totalCqs) = some cq → cq.error = true →
    ((s.liveUsers (CtrlHdr.gnum s c totalCqs)).all fun q => (s.qp q).map Qp.st == some .reset) = true →
    Completes (.resetCq c) s fun u =>
      u.blockOver (.resetCq c) c 0 none 0 ∧ s.objectsKept u ∧
      u = { s with
        out := u.out, od := u.od, mgmt := u.mgmt
        wq := { s.wq with
          cqs := u.wq.cqs } } ∧
      tget u.wq.cqs (CtrlHdr.gnum s c totalCqs) =
        some { cq with head := 0, w := 0, used := 0, error := false, armEvent := false } ∧
      ∀ n, n ≠ CtrlHdr.gnum s c totalCqs → tget u.wq.cqs n = tget s.wq.cqs n) ∧
  (∀ (s : State) (c : CtrlHdr) (r : Region), s.takesBlock (.deregRegion c) = true → passes (s.gateChecks c false) = true →
    c.number ≠ 0 → c.number.toNat < s.perShare totalRegions → tget s.wq.regions (CtrlHdr.gnum s c totalRegions) = some r →
    r.freeing = none → r.valid = true → passes [s.twinCheck c] = true → s.halfPorts.length = 8 → r.path < 8 →
    Completes (.deregRegion c) s fun u =>
      u.blockOver (.deregRegion c) c 0 none 0 ∧
      tget u.wq.regions (CtrlHdr.gnum s c totalRegions) = some { r with
        gen := if r.gen = 255 then 1 else r.gen + 1, valid := false, poisoned := false
        freeing := some (if s.regionHeld (CtrlHdr.gnum s c totalRegions) then 0 else (s.hp r.path).flushes + 1) } ∧
      (∀ n, n ≠ CtrlHdr.gnum s c totalRegions → tget u.wq.regions n = tget s.wq.regions n) ∧ u.wq.qps = s.wq.qps ∧
      u.mem = s.mem ∧ u.mode = s.mode)

/-- Communicators (R266-R268). -/
def Obligations.Communicators : Prop :=
  (∀ (s : State) (c : CtrlHdr) (f : CommFields), s.takesBlock (.createComm c f) = true → passes (s.gateChecks c true) = true →
    passes (s.commChecks c f) = true → s.mem.wf = true →
    Completes (.createComm c f) s fun u =>
      let fn := c.func.toNat
      let g := s.global totalComms fn c.number.toNat
      let table := f.table.getD []
      u.blockOver (.createComm c f) c 0 none 0 ∧
      u.comm g = some ⟨fn, c.number.toNat, f.n.toNat, f.myRank.toNat, f.epoch.toNat, f.connBase.toNat, f.mtDest.toNat,
        (s.levelWords f.levelArith).filterMap id, f.ovfBase.toNat, f.ovfSize.toNat, 0, false, none, 0, [], [], [], false⟩ ∧
      (∀ n, n ≠ g → u.comm n = s.comm n) ∧
      s.wroteMem u (s.stateAddr fn f.mtDest.toNat) ((List.range f.n.toNat).flatMap fun i => leBytes 8 (table.getD i 0).toNat) ∧
      (∀ r, r < f.n.toNat → r ≠ f.myRank.toNat →
        (u.qp (s.global totalQps fn (f.connBase.toNat + r))).map
            (fun x => (x.type, x.st, x.comm, x.attr.remoteModule, x.attr.remoteQpn)) =
          some (QpType.coll, QpSt.rts, some g, BitVec.ofNat 20 (memberModule (table.getD r 0)),
            BitVec.ofNat 24 (memberBase (table.getD r 0) + f.myRank.toNat))) ∧
      u.mode = s.mode ∧ u.security = s.security) ∧
  (∀ (s : State) (c : CtrlHdr) (x : Comm), s.takesBlock (.destroyComm c) = true → passes (s.gateChecks c false) = true →
    c.number.toNat < s.perShare totalComms → s.comm (s.global totalComms c.func.toNat c.number.toNat) = some x →
    x.freeing = false → x.submit.bind s.presentQp = none →
    Completes (.destroyComm c) s fun u =>
      u.blockOver (.destroyComm c) c 0 none 0 ∧
      (u.comm (s.global totalComms c.func.toNat c.number.toNat)).map (fun m => (m.freeing, m.colls)) = some (true, []) ∧
      (∀ q ∈ s.connections x, (u.qp q).all Qp.freeing = true) ∧ u.mode = s.mode ∧ (x.colls = [] → u.mem = s.mem)) ∧
  (∀ (s : State) (f n : Nat) (x : Comm), s.comm (s.global totalComms f n) = some x → x.freeing = true → x.func = f →
    rising s.colls.comms = true →
    Completes (.commFree f n) s fun u =>
      u.comm (s.global totalComms f n) = none ∧ (∀ g, g ≠ s.global totalComms f n → u.comm g = s.comm g) ∧ u.wq = s.wq ∧
      u.mem = s.mem) ∧
  (∀ (s : State) (f n : Nat), (∀ x, s.comm (s.global totalComms f n) = some x → x.freeing = false ∨ x.func ≠ f) →
    Completes (.commFree f n) s fun u => u = s)

/-- Schedules, bindings and kernels (R269, R309, R328, R332). -/
def Obligations.Images : Prop :=
  (∀ (s : State) (c : CtrlHdr) (f : ImageFields) (im : List Byte), s.takesBlock (.loadSchedule c f) = true →
    passes (s.gateChecks c true) = true → badId c.number.toNat = false → s.pastState f.dest.toNat f.length.toNat = false →
    f.dest.toNat % 4096 = 0 → s.sched c.func.toNat c.number.toNat = none →
    s.stateInUse c.func.toNat [(f.dest.toNat, f.dest.toNat + f.length.toNat)] = false →
    idsOf s.colls.scheds c.func.toNat < s.perShare totalScheds → f.length.toNat ≤ 4194304 → f.image = some im →
    schedHeaderOk (slice im 0 f.length.toNat) f.length.toNat c.number.toNat = true → f.stepsOk = true → s.mem.wf = true →
    Completes (.loadSchedule c f) s fun u =>
      let b := slice im 0 f.length.toNat
      u.blockOver (.loadSchedule c f) c 0 none 0 ∧ s.objectsKept u ∧
      s.wroteMem u (s.stateAddr c.func.toNat f.dest.toNat) b ∧
      u.sched c.func.toNat c.number.toNat = some ⟨f.dest.toNat, f.length.toNat, leField b 8 4, leField b 12 2,
        (leField b 16 2, leField b 18 2, leField b 20 2), leField b 22 2⟩ ∧
      u = { s with
        out := u.out, od := u.od, mgmt := u.mgmt, mem := u.mem, colls := { s.colls with scheds := u.colls.scheds } }) ∧
  (∀ (s : State) (c : CtrlHdr), s.takesBlock (.unloadSchedule c) = true → passes (s.gateChecks c false) = true →
    badId c.number.toNat = false → s.sched c.func.toNat c.number.toNat ≠ none →
    s.collUses c.func.toNat (fun y => y.sqe.schedId.toNat == c.number.toNat) = false →
    Completes (.unloadSchedule c) s fun u =>
      u.blockOver (.unloadSchedule c) c 0 none 0 ∧ s.objectsKept u ∧
      u = { s with
        out := u.out, od := u.od, mgmt := u.mgmt
        colls := { s.colls with
          scheds := tdel s.colls.scheds (fid c.func.toNat c.number.toNat), images := u.colls.images } }) ∧
  (∀ (s : State) (c : CtrlHdr) (f : ImageFields) (im : List Byte), s.takesBlock (.loadKernel c f) = true →
    passes (s.gateChecks c true) = true → badId c.number.toNat = false → s.pastState f.dest.toNat f.length.toNat = false →
    f.dest.toNat % 64 = 0 → s.kernel c.func.toNat c.number.toNat = none →
    s.stateInUse c.func.toNat [(f.dest.toNat, f.dest.toNat + f.length.toNat)] = false →
    idsOf s.colls.kernels c.func.toNat < s.perShare totalKernels → f.length.toNat ≤ 292 → f.image = some im →
    kernelHeaderOk (slice im 0 f.length.toNat) f.length.toNat c.number.toNat = true → s.mem.wf = true →
    (let b := slice im 0 f.length.toNat
     kernelFault (leField b 8 1) (leField b 10 1) (leField b 11 1) (wordsOf (leField b 8 1 + 1) (b.drop 32))) = none →
    Completes (.loadKernel c f) s fun u =>
      let b := slice im 0 f.length.toNat
      u.blockOver (.loadKernel c f) c 0 none 0 ∧ s.objectsKept u ∧
      s.wroteMem u (s.stateAddr c.func.toNat f.dest.toNat) b ∧
      u.kernel c.func.toNat c.number.toNat = some ⟨f.dest.toNat, f.length.toNat, leField b 9 1, leField b 10 1, leField b 11 1,
        (wordsOf (leField b 8 1 + 1) (b.drop 32)).take (leField b 8 1)⟩ ∧
      u = { s with
        out := u.out, od := u.od, mgmt := u.mgmt, mem := u.mem, colls := { s.colls with kernels := u.colls.kernels } }) ∧
  (∀ (s : State) (c : CtrlHdr), s.takesBlock (.unloadKernel c) = true → passes (s.gateChecks c false) = true →
    badId c.number.toNat = false → s.kernel c.func.toNat c.number.toNat ≠ none →
    s.collUses c.func.toNat (fun y => y.kind == 9 && kernelId y.sqe == c.number.toNat) = false →
    Completes (.unloadKernel c) s fun u =>
      u.blockOver (.unloadKernel c) c 0 none 0 ∧ s.objectsKept u ∧
      u = { s with
        out := u.out, od := u.od, mgmt := u.mgmt
        colls := { s.colls with
          kernels := tdel s.colls.kernels (fid c.func.toNat c.number.toNat), images := u.colls.images } }) ∧
  (∀ (s : State) (c : CtrlHdr) (f : BindFields), s.takesBlock (.arithBind c f) = true → passes (s.gateChecks c true) = true →
    f.flags.toNat ≤ 1 → badId c.number.toNat = false → f.count ≠ 0 → s.binding c.func.toNat c.number.toNat = none →
    idsOf s.colls.bindings c.func.toNat < s.perShare totalScheds → f.record.toNat % 64 = 0 → s.mem.wf = true →
    (let areas := (List.range 3).map fun l => efArea (f.efBase.getD l (BitVec.allOnes 64))
     let b : Binding := ⟨f.count.toNat, f.record.toNat, areas⟩
     (b.ranges.all fun r => decide (r.2 ≤ s.stateShare)) = true ∧ s.stateInUse c.func.toNat b.ranges = false ∧
       ((areas.filterMap fun a => a).all fun a => a % 4096 == 0) = true) →
    (f.flags = 1 → f.recordOk = true ∧ leField (s.stateRead c.func.toNat f.record.toNat 64) 0 8 = f.count.toNat) →
    Completes (.arithBind c f) s fun u =>
      u.blockOver (.arithBind c f) c 0 none 0 ∧ s.objectsKept u ∧
      u.binding c.func.toNat c.number.toNat =
        some ⟨f.count.toNat, f.record.toNat, (List.range 3).map fun l => efArea (f.efBase.getD l (BitVec.allOnes 64))⟩ ∧
      (f.flags = 0 → s.wroteMem u (s.stateAddr c.func.toNat f.record.toNat)
        (leBytes 8 f.count.toNat ++ List.replicate 8 0 ++ leBytes 8 f.seed.toNat ++ List.replicate 40 0)) ∧
      (f.flags = 1 → u.mem = s.mem) ∧
      u = { s with
        out := u.out, od := u.od, mgmt := u.mgmt, mem := u.mem, colls := { s.colls with bindings := u.colls.bindings } }) ∧
  (∀ (s : State) (c : CtrlHdr), s.takesBlock (.arithUnbind c) = true → passes (s.gateChecks c false) = true →
    badId c.number.toNat = false → s.binding c.func.toNat c.number.toNat ≠ none →
    s.collUses c.func.toNat (fun y => y.sqe.schedId.toNat == c.number.toNat) = false →
    Completes (.arithUnbind c) s fun u =>
      u.blockOver (.arithUnbind c) c 0 none 0 ∧ s.objectsKept u ∧
      u = { s with
        out := u.out, od := u.od, mgmt := u.mgmt
        colls := { s.colls with bindings := tdel s.colls.bindings (fid c.func.toNat c.number.toNat) } })

/-- Shards (R315-R318). -/
def Obligations.Shards : Prop :=
  (∀ (s : State) (c : CtrlHdr) (f : ShardFields) (h : Shard), s.takesBlock (.defineShard c f) = true →
    h = ⟨f.count.toNat, f.first.toNat, f.length.toNat, f.record.toNat, f.base.toNat, f.pFmt.toNat, f.m1Fmt.toNat, f.m2Fmt.toNat,
      f.qFmt.toNat, none⟩ →
    passes (s.gateChecks c true) = true → f.flags.toNat ≤ 1 → badId c.number.toNat = false → f.length ≠ 0 →
    f.first.toNat % 32 = 0 → f.first.toNat + f.length.toNat ≤ f.count.toNat → f.pFmt = 1 ∨ f.pFmt = 2 → f.m1Fmt.toNat ≤ 2 →
    f.m2Fmt.toNat ≤ 2 → 1 ≤ f.qFmt.toNat → f.qFmt.toNat ≤ 7 → (h.ranges.all fun r => decide (r.2 ≤ s.stateShare)) = true →
    s.shard c.func.toNat c.number.toNat = none → s.stateInUse c.func.toNat h.ranges = false → f.record.toNat % 64 = 0 →
    f.base.toNat % 4096 = 0 → idsOf s.colls.shards c.func.toNat < s.perShare totalKernels →
    (f.flags = 1 → f.recordOk = true ∧ h.adopts (s.stateRead c.func.toNat f.record.toNat 64) = true) → s.mem.wf = true →
    Completes (.defineShard c f) s fun u =>
      u.blockOver (.defineShard c f) c 0 none 0 ∧ s.objectsKept u ∧ u.shard c.func.toNat c.number.toNat = some h ∧
      (f.flags = 0 → s.wroteMem u (s.stateAddr c.func.toNat f.record.toNat) (h.recBytes 0 0)) ∧
      (f.flags = 1 → u.mem = s.mem) ∧
      u = { s with
        out := u.out, od := u.od, mgmt := u.mgmt, mem := u.mem, colls := { s.colls with shards := u.colls.shards } }) ∧
  (∀ (s : State) (c : CtrlHdr) (h : Shard), s.takesBlock (.removeShard c) = true → passes (s.gateChecks c false) = true →
    badId c.number.toNat = false → s.shard c.func.toNat c.number.toNat = some h → h.xfer = none →
    s.shardUsed c.func.toNat c.number.toNat = false →
    Completes (.removeShard c) s fun u =>
      u.blockOver (.removeShard c) c 0 none 0 ∧ s.objectsKept u ∧
      u = { s with
        out := u.out, od := u.od, mgmt := u.mgmt
        colls := { s.colls with shards := tdel s.colls.shards (fid c.func.toNat c.number.toNat) } }) ∧
  (∀ (s : State) (c : CtrlHdr) (f : XferFields) (h : Shard), s.takesBlock (.shardXfer c f) = true →
    passes (s.gateChecks c false) = true → badId c.number.toNat = false → s.shard c.func.toNat c.number.toNat = some h →
    f.dir.toNat ≤ 1 → 1 ≤ f.stream.toNat → f.stream.toNat ≤ 3 → h.fmt f.stream.toNat ≠ 0 →
    f.start.toNat + f.elements.toNat ≤ h.length → f.path.toNat ≤ 7 → h.xfer = none →
    s.shardUsed c.func.toNat c.number.toNat = false → s.pathGiven c.func.toNat f.path.toNat = true →
    Completes (.shardXfer c f) s fun u =>
      let x := (f.dir.toNat, f.stream.toNat, f.path.toNat, f.start.toNat, f.elements.toNat, f.addr.toNat)
      u.blockOver (.shardXfer c f) c 0 none 0 ∧ s.objectsKept u ∧
      u = { s with
        out := u.out, od := u.od, mgmt := u.mgmt
        colls := { s.colls with
          shards := tput s.colls.shards (fid c.func.toNat c.number.toNat) { h with xfer := some x } } }) ∧
  (∀ (s : State) (f id moved stream path start elements addr : Nat) (bytes : List Byte) (h : Shard), s.shard f id = some h →
    h.xfer = some (0, stream, path, start, elements, addr) → moved = elements →
    elements * streamElem (h.fmt stream) ≤ bytes.length → s.mem.wf = true →
    Completes (.shardXferDone f id 0 moved bytes) s fun u =>
      u.shard f id = some { h with xfer := none } ∧
      s.wroteMem u (s.stateAddr f (h.stream stream + start * streamElem (h.fmt stream)))
        (bytes.take (elements * streamElem (h.fmt stream))) ∧ u.wq = s.wq ∧ u.mode = s.mode) ∧
  (∀ (s : State) (f id moved stream path start elements addr : Nat) (o : Fin 3) (bytes : List Byte) (h : Shard),
    s.shard f id = some h → h.xfer = some (1, stream, path, start, elements, addr) → 1 ≤ moved → moved ≤ elements →
    Completes (.shardXferDone f id o moved bytes) s fun u =>
      u.shard f id = some { h with xfer := none } ∧ u.mem = s.mem ∧ u.wq = s.wq ∧
      (let t := s.placeWrite path addr (s.stateRead f (h.stream stream + start * streamElem (h.fmt stream))
        (moved * streamElem (h.fmt stream)))
       t.out = u.out.take t.out.length)) ∧
  (∀ (s : State) (f id moved : Nat) (o : Fin 3) (bytes : List Byte), (∀ h, s.shard f id = some h → h.xfer = none) →
    Completes (.shardXferDone f id o moved bytes) s fun u => u = s)

/-! ## Functions -/

/-- Moving a function (R390-R396). -/
def Obligations.FunctionMoves : Prop :=
  (∀ (s : State) (c : CtrlHdr), s.takesBlock (.freezeFunc c) = true → passes (s.gateChecks c false) = true → c.number = 0 →
    c.func ≠ 0 → s.funcSt c.func.toNat = 1 → s.holdsColl c.func.toNat = false → s.pairing = false → rising s.wq.qps = true →
    Completes (.freezeFunc c) s fun u =>
      u.blockOver (.freezeFunc c) c 0 none 0 ∧ u.funcSt c.func.toNat = 2 ∧
      (∀ q x, s.qp q = some x → x.func = c.func.toNat →
        (u.qp q).map (fun y => (y.st, y.frozenFrom)) = some (if x.st = .rts ∨ x.st = .rtr then QpSt.frozen else x.st, x.st)) ∧
      (∀ q x, s.qp q = some x → x.func ≠ c.func.toNat → u.qp q = some x) ∧ u.mem = s.mem ∧ u.security = s.security) ∧
  (∀ (s : State) (f : Nat), s.funcSt f = 2 → s.unfinished f = false → f ≠ 0 →
    Completes (.funcFrozen f) s fun u =>
      u.func f = { s.func f with st := 3 } ∧ (∀ g, g ≠ f → u.func g = s.func g) ∧
      ({ s with tenant := { s.tenant with funcs := u.tenant.funcs } }).onlyReported u ∧
      (∀ e, tget s.eqs 0 = some e → e.full = false → e.lost = 0 → s.firmwareRuns = true → s.holding = false →
        Output.posted e.path (e.base.toNat + e.tail.toNat % 2 ^ e.log2 * 32)
          ((leBytes 32 (eventNat 0x1002 0 f (s.heldSqes f) s.timer)).take 4) ∈ u.out ∧
        tget u.eqs 0 = some { e with tail := e.tail + 1, used := e.used + 1, arm := false })) ∧
  (∀ (s : State) (f : Nat), (s.funcSt f ≠ 2 ∨ s.unfinished f = true) → Completes (.funcFrozen f) s fun u => u = s) ∧
  (∀ (s : State) (c : CtrlHdr) (x : ImageXfer) (n : Nat), s.takesBlock (.saveFunc c x n) = true →
    passes (s.gateChecks c false) = true → c.number = 0 → c.func ≠ 0 → s.funcSt c.func.toNat = 3 →
    (s.func c.func.toNat).saving = none → x.wrapSlot.toNat < s.perShare totalSlots →
    s.wrapFault c.func.toNat x.wrapSlot.toNat (s.holdsKeys c.func.toNat) = false →
    Completes (.saveFunc c x n) s fun u =>
      s.objectsKept u ∧
      (n ≤ x.length.toNat →
        u.blockOver (.saveFunc c x n) c 0 none 0 ∧
        Output.vfImage c.func.toNat x.addr.toNat (s.imageHeader c.func.toNat n) n ∈ u.out ∧
        u = { s with
          out := u.out, od := u.od, mgmt := u.mgmt, freeCount := u.freeCount
          tenant := { s.tenant with
            funcs := tput s.tenant.funcs c.func.toNat { s.func c.func.toNat with saving := some n } } }) ∧
      (x.length.toNat < n →
        u.blockOver (.saveFunc c x n) c 5 none n ∧ u = { s with out := u.out, od := u.od, mgmt := u.mgmt })) ∧
  (∀ (s : State) (f n : Nat) (ok : Bool), (s.func f).saving = some n →
    Completes (.saveDone f ok) s fun u =>
      u.func f = { s.func f with saving := none } ∧ (∀ g, g ≠ f → u.func g = s.func g) ∧
      ({ s with tenant := { s.tenant with funcs := u.tenant.funcs } }).onlyReported u) ∧
  (∀ (s : State) (c : CtrlHdr) (x : ImageXfer) (al : BitVec 32) (i : VfImage), s.takesBlock (.restoreFunc c x al (some i)) = true →
    passes (s.gateChecks c false) = true → c.number = 0 → c.func ≠ 0 → s.funcSt c.func.toNat = 1 →
    s.vfEmpty c.func.toNat = true → (s.func c.func.toNat).restoring = none → s.pairing = false →
    x.wrapSlot.toNat < s.perShare totalSlots → passes (s.imageChecks c.func.toNat x al i) = true →
    Completes (.restoreFunc c x al (some i)) s fun u =>
      u.blockOver (.restoreFunc c x al (some i)) c 0 none 0 ∧ s.objectsKept u ∧
      u = { s with
        out := u.out, od := u.od, mgmt := u.mgmt
        tenant := { s.tenant with
          funcs := tput s.tenant.funcs c.func.toNat { s.func c.func.toNat with restoring := some (al.toNat, i) } } }) ∧
  (∀ (s : State) (f al : Nat) (i : VfImage), (s.func f).restoring = some (al, i) → f ≠ 0 →
    (i.cqs.map Prod.fst).Nodup → (i.regions.map ImageRegion.number).Nodup → (i.keys.map ImageKey.slot).Nodup →
    (i.qps.map ImageQp.number).Nodup →
    Completes (.restoreDone f) s fun u =>
      u.func f = { s.func f with restoring := none, alias_ := al } ∧ u.mem = s.mem ∧ u.mode = s.mode ∧
      (∀ e h t, i.eq = some (e, h, t) →
        tget u.eqs f = some ⟨e.base, (s.ringLog2 e.log2.toNat).getD 6, e.path.toNat, e.vector.toNat, h, t, false, 0,
          ahead h t⟩) ∧
      (∀ c, c ∈ i.cqs →
        tget u.wq.cqs (s.global totalCqs f c.1) = some ⟨f, c.2.1.base.toNat, (s.ringLog2 c.2.1.log2.toNat).getD 6, c.2.1.path.toNat,
          c.2.1.noFlush == 0, c.2.1.vector.toNat, c.2.2.1, c.2.2.2, false, false, false, ahead c.2.2.1 c.2.2.2⟩) ∧
      (∀ r, r ∈ i.regions →
        (tget u.wq.regions (s.global totalRegions f r.number)).map
            (fun y => (y.func, y.va, y.length, y.access, y.gen, y.valid)) =
          some (f, r.fields.va.toNat, r.fields.length.toNat, r.fields.access.toNat % 32, r.gen, true)) ∧
      (∀ k, k ∈ i.keys → u.keySlot (s.globalSlot f k.slot) =
        ⟨k.usage.toNat, k.gen.toNat, ((s.keySlot (s.globalSlot f k.slot)).loads + 1) % 2 ^ 32, k.key⟩) ∧
      (∀ m, m ∈ i.qps → (∀ e, e ∈ imageSqes i → e.1 ≠ m.number) →
        (u.qp (s.global totalQps f m.number)).map (fun y => (y.func, y.st, y.req.una, y.resp.e, y.attr.remoteModule, y.attr.remoteQpn)) =
          some (f, qpStOf m.st.toNat, m.una, m.expect, m.remoteModule, m.remoteQpn))) ∧
  (∀ (s : State) (c : CtrlHdr) (t : BitVec 32), s.takesBlock (.forwardFunc c t) = true → passes (s.gateChecks c false) = true →
    c.number = 0 → c.func ≠ 0 → s.funcSt c.func.toNat = 3 → t ≠ 0 → t.toNat < 2 ^ 20 →
    rising s.eqs = true → rising s.wq.qps = true →
    Completes (.forwardFunc c t) s fun u =>
      u.blockOver (.forwardFunc c t) c 0 none 0 ∧ u.func c.func.toNat = { FuncSt.fresh 4 with target := t.toNat, saving := (s.func c.func.toNat).saving } ∧
      (∀ g, g ≠ c.func.toNat → u.func g = s.func g) ∧
      (∀ q x, u.qp q = some x → x.func ≠ c.func.toNat) ∧ (∀ q x, tget u.wq.cqs q = some x → x.func ≠ c.func.toNat) ∧
      tget u.eqs c.func.toNat = none ∧ (s.holdsColl c.func.toNat = false → u.mem = s.mem) ∧
      u.security = s.security) ∧
  (∀ (s : State) (c : CtrlHdr), s.takesBlock (.forwardFunc c 0) = true → c.reservedZero = true → c.func.toNat ≤ 1024 →
    s.functionLive c.func.toNat = true → c.number = 0 → c.func ≠ 0 → s.funcSt c.func.toNat = 4 →
    Completes (.forwardFunc c 0) s fun u =>
      u.blockOver (.forwardFunc c 0) c 0 none 0 ∧ s.objectsKept u ∧
      u = { s with
        out := u.out, od := u.od, mgmt := u.mgmt
        tenant := { s.tenant with funcs := tput s.tenant.funcs c.func.toNat { FuncSt.fresh 1 with saving := (s.func c.func.toNat).saving } } }) ∧
  (∀ (s : State) (c : CtrlHdr), s.takesBlock (.thawFunc c) = true → passes (s.gateChecks c false) = true → c.number = 0 →
    c.func ≠ 0 → s.funcSt c.func.toNat = 3 → rising s.wq.qps = true →
    Completes (.thawFunc c) s fun u =>
      u.blockOver (.thawFunc c) c 0 none 0 ∧ u.func c.func.toNat = { s.func c.func.toNat with st := 1 } ∧
      (∀ q x, s.qp q = some x → x.func = c.func.toNat →
        (u.qp q).map (fun y => (y.st, y.wqes, y.resp, y.req.una, y.req.nxt, y.attr)) =
          some (if x.st = .frozen then x.frozenFrom else x.st, x.wqes, x.resp, x.req.una, x.req.nxt, x.attr)) ∧
      u.mem = s.mem ∧ u.security = s.security)

/-- Enabling and resetting functions (R86, R382, R388). -/
def Obligations.FunctionResets : Prop :=
  (∀ (s : State) (n : Nat), s.host.perst = false → s.tenant.vfEnable = false → n ≤ s.shares → rising s.od = true → n < 2 ^ 16 →
    Completes (.vfEnable true n) s fun u =>
      u.tenant.vfEnable = true ∧ u.tenant.numVfs = n ∧ u.obj Row.vfsEnabled = n ∧
      (∀ f, 1 ≤ f → f ≤ n → s.funcSt f = 5 → u.funcSt f = 5) ∧
      (∀ f, 1 ≤ f → f ≤ n → s.funcSt f ≠ 5 → u.funcSt f = (if f = s.shares ∧ s.pfHolds = true then 6 else 1)) ∧
      ({ s with tenant := u.tenant }).onlyReported u) ∧
  (∀ (s : State) (n : Nat), (s.host.perst = true ∨ s.tenant.vfEnable = true ∨ s.shares < n) →
    Completes (.vfEnable true n) s fun u => u = s) ∧
  (∀ s : State, s.host.perst = false → s.tenant.vfEnable = true → (∀ f, 1 ≤ f → f ≤ s.tenant.numVfs → s.funcSt f ≠ 0) →
    rising s.od = true →
    Completes (.vfEnable false 0) s fun u =>
      u.tenant.vfEnable = false ∧ u.obj Row.vfsEnabled = 0 ∧ (∀ f, 1 ≤ f → f ≤ s.tenant.numVfs → u.funcSt f = 5) ∧ u.mode = s.mode) ∧
  (∀ (s : State) (f : Nat), s.firmwareRuns = true → f ≠ 0 → s.functionLive f = true → s.funcSt f ≠ 0 → s.funcSt f ≠ 5 →
    s.canonical = true →
    Completes (.functionLevelReset f) s fun u =>
      u.func f = FuncSt.fresh 5 ∧ (∀ q x, u.qp q = some x → x.func ≠ f) ∧ (∀ q x, tget u.wq.cqs q = some x → x.func ≠ f) ∧
      tget u.eqs f = none ∧
      (∀ q x, s.qp q = some x → x.func ≠ f → (u.qp q).map (fun y => (y.func, y.st, y.type, y.req.una)) = some (x.func, x.st, x.type, x.req.una)) ∧
      (∀ g, s.shareOf f * s.perShare totalSlots ≤ g → g < (s.shareOf f + 1) * s.perShare totalSlots → (u.keySlot g).usage = 0) ∧
      (∀ a, s.mem.layout.base 2 * gib + s.shareOf f * (s.mem.layout.size 2 * gib / s.shares) ≤ a →
        a < s.mem.layout.base 2 * gib + (s.shareOf f + 1) * (s.mem.layout.size 2 * gib / s.shares) → u.mem.byte a = 0) ∧
      u.mode = s.mode) ∧
  (∀ (s : State) (f : Nat), s.firmwareRuns = false → Completes (.functionLevelReset f) s fun u => u = s) ∧
  (∀ (s : State) (f : Nat), s.funcSt f = 5 → f ≠ 0 → rising s.od = true → rising s.tenant.funcs = true →
    Completes (.vfFlrDone f) s fun u =>
      u.funcSt f = (if s.functionLive f then (if f = s.shares ∧ s.pfHolds = true then 6 else 1) else 0) ∧
      u.obj Row.flrCount = (s.obj Row.flrCount + 1) % 2 ^ 32 ∧ (∀ g, g ≠ f → u.func g = s.func g) ∧
      ({ s with tenant := { s.tenant with funcs := u.tenant.funcs } }).onlyReported u) ∧
  (∀ (s : State) (f : Nat), s.funcSt f ≠ 5 → Completes (.vfFlrDone f) s fun u => u = s)

/-! ## Packets -/

/-- Requests at their responder (R144, R153-R157, R164, R175-R180, R366). -/
def Obligations.RequestsServed : Prop :=
  (∀ (s : State) (a : Arrival) (q : Nat) (x : Qp) (r : Region) (o : Byte) (c : Instr),
    (c, o) ∈ [(Instr.pktWrite a, (0x03 : Byte)), (.pktWriteImm a, 0x04)] → s.carries a o q x = true →
    x.expects (arriveAs a o).pkt = true → s.check q x (arriveAs a o).pkt = none →
    tget s.wq.regions (a.pkt.key.toNat / 256) = some r → (a.pkt.payloadLen = 0 ∨ (s.hp r.path).up = true) →
    r.path < s.halfPorts.length →
    Completes c s fun u =>
      let bytes := slice a.pkt.payload 0 a.pkt.payloadLen.toNat
      let ps := if s.twin.stopped then [] else r.bus a.pkt.remoteAddr.toNat bytes.length
      (∃ l, u.out = s.out ++ placements (s.writeOut r.path) ps bytes ++ l ∧ (o = 0x03 → l = [])) ∧
      (u.hp r.path).presented = (s.hp r.path).presented + ps.length ∧
      (u.qp q).map (fun y => (y.resp.e, y.resp.msgs, y.resp.window)) = some (x.resp.e + 1, [], []) ∧
      (∀ q', q' ≠ q → u.qp q' = s.qp q') ∧ u.mem = s.mem ∧ u.mode = s.mode ∧
      (o = 0x03 → u.wq.cqWait = s.wq.cqWait) ∧
      (o = 0x04 → s.cqTakes (s.global totalCqs x.func x.rcqn) x = true →
        s.addsCqe u (s.global totalCqs x.func x.rcqn) fun w => w.opcode = 0x04 ∧ w.imm = a.pkt.aux ∧ w.immValid = true ∧
          w.byteCount = BitVec.ofNat 32 a.pkt.payloadLen.toNat ∧ w.status = 0 ∧ w.count = 0)) ∧
  (∀ (s : State) (a : Arrival) (q : Nat) (x : Qp) (r : RecvE), s.carries a 0x01 q x = true → x.expects (arriveAs a 0x01).pkt = true →
    x.srqn = none → x.recvFor a.pkt.aux = some r → r.fault = none → r.ready = true → a.pkt.payloadLen.toNat ≤ r.length →
    s.recvDown r 0 a.pkt.payloadLen.toNat = false → s.sideOk x.func true r.sqe r.segs 0 a.pkt.payloadLen.toNat = true →
    (x.resp.recvs.map RecvE.index).Nodup → (∀ v, v ∈ x.resp.recvs → v.aborted = false) →
    s.cqTakes (s.global totalCqs x.func x.rcqn) x = true →
    Completes (.pktSend a) s fun u =>
      (u.qp q).map (fun y => (y.resp.e, y.resp.recvs, y.resp.recvBase)) =
        some (x.resp.e + 1, x.resp.recvs.filter (fun v => v.index != r.index), x.resp.recvBase + 1) ∧
      (s.addsCqe u (s.global totalCqs x.func x.rcqn) fun w => w.opcode = 0x02 ∧ w.index = r.index ∧ w.wrId = r.sqe.wrId ∧
        w.byteCount = BitVec.ofNat 32 a.pkt.payloadLen.toNat ∧ w.status = 0) ∧
      (∀ w, w ∈ (s.placeSegs r.segs 0 (slice a.pkt.payload 0 a.pkt.payloadLen.toNat)).1.out → w ∈ u.out) ∧
      (∀ q', q' ≠ q → u.qp q' = s.qp q') ∧ u.mem = s.mem ∧ u.mode = s.mode) ∧
  (∀ (s : State) (a : Arrival) (q : Nat) (x : Qp), s.carries a 0x01 q x = true → x.expects (arriveAs a 0x01).pkt = true →
    x.srqn = none → x.recvFor a.pkt.aux = none → rising s.od = true →
    Completes (.pktSend a) s fun u =>
      (∃ k, u.wq.outbox = s.wq.outbox ++ [k] ∧ k.pkt.opcode = 0x31 ∧ k.pkt.aux = 0x10 ∧ k.pkt.psn = a.pkt.psn ∧
        k.pkt.dstModule = a.pkt.srcModule ∧ k.pkt.dstQpn = a.pkt.srcQpn) ∧
      u.qp q = some x.seen ∧ u.obj Row.rnrNakCount = (s.obj Row.rnrNakCount + 1) % 2 ^ 64 ∧ u.out = s.out ∧ u.wq.cqWait = s.wq.cqWait ∧
      u.mem = s.mem) ∧
  (∀ (s : State) (a : Arrival) (q : Nat) (x : Qp), s.carries a 0x01 q x = true → x.type = .ud → a.pkt.key ≠ x.attr.qKey →
    Completes (.pktSend a) s fun u =>
      u.qp q = some x.seen ∧ u.out = s.out ∧ u.wq.cqWait = s.wq.cqWait ∧ u.halfPorts = s.halfPorts ∧ u.mem = s.mem) ∧
  (∀ (s : State) (a : Arrival) (q : Nat) (x : Qp) (r : Region) (bs : List Byte), s.carries a 0x05 q x = true →
    x.expects (arriveAs a 0x05).pkt = true → s.check q x (arriveAs a 0x05).pkt = none → a.data = some bs → 0 < x.mtu →
    tget s.wq.regions (a.pkt.key.toNat / 256) = some r →
    Completes (.pktReadReq a) s fun u =>
      (∃ k, k ∈ u.wq.outbox ∧ k.pkt.opcode = 0x20 ∧ k.pkt.psn = a.pkt.psn ∧ k.pkt.msgId = a.pkt.msgId ∧ k.pkt.pktOffset = 0 ∧
        k.pkt.payload = (slice bs 0 a.pkt.aux.toNat).take (min x.mtu a.pkt.aux.toNat)) ∧
      (u.qp q).map (fun y => (y.resp.e, y.resp.heldReqs)) = some (x.resp.e, [⟨arriveAs a 0x05, true, a.pkt.key.toNat / 256, r.path,
        ((r.bus a.pkt.remoteAddr.toNat 8).headD (0, 0)).1⟩]) ∧
      (∀ q', q' ≠ q → u.qp q' = s.qp q') ∧ u.out = s.out ∧ u.mem = s.mem ∧ u.wq.cqWait = s.wq.cqWait) ∧
  (∀ (s : State) (a : Arrival) (q : Nat) (x : Qp) (r : Region) (o : Byte) (c : Instr),
    (c, o) ∈ [(Instr.pktFetchAddReq a, (0x06 : Byte)), (.pktCmpSwapReq a, 0x07)] → s.carries a o q x = true →
    x.expects (arriveAs a o).pkt = true → s.check q x (arriveAs a o).pkt = none → tget s.wq.regions (a.pkt.key.toNat / 256) = some r →
    (x.resp.cacheBlock = true ∨ (tget s.wq.cacheUsed (s.shareOf x.func)).getD 0 < s.perShare 2097152) →
    Completes c s fun u =>
      let addr := ((r.bus a.pkt.remoteAddr.toNat 8).headD (0, 0)).1
      u.out = s.out ++ [.atomicOp r.path addr (o == 0x07) (BitVec.ofNat 64 (beNat (a.pkt.payload.take 8)))
        (BitVec.ofNat 64 (beNat ((a.pkt.payload.drop 8).take 8)))] ∧
      (u.qp q).map (fun y => (y.resp.e, y.resp.heldReqs, y.resp.cacheBlock)) =
        some (x.resp.e, [⟨arriveAs a o, true, a.pkt.key.toNat / 256, r.path, addr⟩], true) ∧
      (tget u.wq.cacheUsed (s.shareOf x.func)).getD 0 =
        (tget s.wq.cacheUsed (s.shareOf x.func)).getD 0 + (if x.resp.cacheBlock then 0 else 1) ∧
      (∀ q', q' ≠ q → u.qp q' = s.qp q') ∧ u.mem = s.mem ∧ u.wq.cqWait = s.wq.cqWait) ∧
  (∀ (s : State) (q : Nat) (x : Qp) (h : HeldReq) (v : BitVec 64) (p : PsnRec), s.qp q = some x → s.mirrors q x = false →
    x.resp.heldReqs = [h] → h.issued = true → isAtomicOp h.arrival.pkt.opcode = true → h.arrival.pkt.psn = x.resp.e →
    x.resp.window = [(x.resp.e.toNat, p)] → x.resp.msgs = [] → x.resp.failed = none →
    Completes (.atomicopDone q x.resp.e (some v)) s fun u =>
      (u.qp q).map (fun y => (y.resp.e, y.resp.heldReqs, y.resp.cache)) =
        some (x.resp.e + 1, [], (x.resp.cache ++ [(x.resp.e, v)]).drop (x.resp.cache.length + 1 - 16)) ∧
      (∃ k, k ∈ u.wq.outbox ∧ k.pkt.opcode = 0x21 ∧ k.pkt.psn = x.resp.e ∧ k.pkt.msgId = h.arrival.pkt.msgId ∧
        k.pkt.payload = beBytes 8 v.toNat) ∧
      (∀ q', q' ≠ q → u.qp q' = s.qp q') ∧ u.mem = s.mem ∧ u.out = s.out) ∧
  (∀ (s : State) (q : Nat) (x : Qp) (p : PsnRec), s.qp q = some x → p.st = .held → isReadOrAtomic p.opcode = false →
    x.resp.window = [(x.resp.e.toNat, p)] → x.resp.msgs = [] → x.resp.failed = none → x.resp.heldReqs = [] →
    Completes (.placementTlpAcknowledged q x.resp.e) s fun u =>
      (u.qp q).map (fun y => (y.resp.e, y.resp.window)) = some (x.resp.e + 1, []) ∧
      (∀ q', q' ≠ q → u.qp q' = s.qp q') ∧ u.mem = s.mem ∧ u.out = s.out) ∧
  (∀ (s : State) (a : Arrival) (q : Nat) (x : Qp) (o : Byte) (c : Instr) (syn : Nat),
    (c, o) ∈ [(Instr.pktWrite a, (0x03 : Byte)), (.pktWriteImm a, 0x04), (.pktReadReq a, 0x05), (.pktFetchAddReq a, 0x06),
      (.pktCmpSwapReq a, 0x07)] → s.carries a o q x = true → x.expects (arriveAs a o).pkt = true →
    s.check q x (arriveAs a o).pkt = some syn →
    Completes c s fun u =>
      (∃ k, k ∈ u.wq.outbox ∧ k.pkt.opcode = 0x31 ∧ k.pkt.aux = BitVec.ofNat 32 syn ∧ k.pkt.psn = a.pkt.psn ∧
        k.pkt.dstModule = a.pkt.srcModule ∧ k.pkt.dstQpn = a.pkt.srcQpn) ∧
      (u.qp q).map (fun y => (y.resp.e, y.resp.heldReqs)) = some (x.resp.e + 1, []) ∧
      (∀ h, (u.hp h).placements = (s.hp h).placements) ∧ u.wq.cqWait = s.wq.cqWait ∧
      (∀ q', q' ≠ q → u.qp q' = s.qp q') ∧ u.mem = s.mem) ∧
  (∀ (s : State) (a : Arrival) (q : Nat) (x : Qp) (o : Byte) (c : Instr),
    (c, o) ∈ [(Instr.pktSend a, (0x01 : Byte)), (.pktWrite a, 0x03), (.pktWriteImm a, 0x04), (.pktReadReq a, 0x05),
      (.pktFetchAddReq a, 0x06), (.pktCmpSwapReq a, 0x07)] → s.carries a o q x = true → x.type = .rc →
    x.resp.classify a.pkt.psn = .outside → rising s.od = true →
    Completes c s fun u =>
      u.qp q = some x.seen ∧ u.obj Row.outOfWindowDrop = (s.obj Row.outOfWindowDrop + 1) % 2 ^ 64 ∧ u.out = s.out ∧
      u.wq.outbox = s.wq.outbox ∧ u.mem = s.mem)

/-- Replies (R157, R163, R168-R178, R214-R217). -/
def Obligations.RepliesTaken : Prop :=
  (∀ (s : State) (a : Arrival) (q : Nat) (x : Qp), s.carries a 0x30 q x = true → x.type ≠ .ud →
    psnPrecedes a.pkt.psn x.req.una = false → psnPrecedes x.req.nxt a.pkt.psn = false →
    (∀ c ∈ x.req.credits, s.timer < c.2) →
    Completes (.pktAck a) s fun u =>
      (u.qp q).map (fun y => (y.req.una, y.req.nxt, y.req.balance, y.resp)) =
        some (a.pkt.psn, x.req.nxt, x.req.balance + (a.pkt.aux.toNat / 2 ^ 16 * 4096 : Nat), x.resp) ∧
      (u.qp q).map (fun y => y.wqes.any fun w => w.st == .started && w.allSent && !isReadOrAtomic w.sqe.opcode &&
        psnPrecedes w.lastPsn a.pkt.psn) = some false ∧
      (∀ q', q' ≠ q → u.qp q' = s.qp q') ∧ u.mem = s.mem ∧ u.mode = s.mode) ∧
  (∀ (s : State) (a : Arrival) (q : Nat) (x : Qp), s.carries a 0x30 q x = true → x.type ≠ .ud →
    psnPrecedes a.pkt.psn x.req.una = false → psnPrecedes x.req.nxt a.pkt.psn = true → x.regainAck a.pkt.psn = false →
    rising s.od = true →
    Completes (.pktAck a) s fun u =>
      u.qp q = some x.seen ∧ u.obj Row.ackInvalid = (s.obj Row.ackInvalid + 1) % 2 ^ 64 ∧ u.mem = s.mem ∧ u.out = s.out) ∧
  (∀ (s : State) (a : Arrival) (q : Nat) (x : Qp) (w : Wqe), s.carries a 0x31 q x = true → x.type ≠ .ud →
    x.wqeOf a.pkt.psn = some w → a.pkt.aux = 0x10 → x.req.rnrFrom = none →
    (x.attr.rnrRetry = 7 ∨ (if x.req.rnrOf = some w.index then x.req.rnrRetries else 0) < x.attr.rnrRetry) →
    Completes (.pktNak a) s fun u =>
      (u.qp q).map (fun y => (y.st, y.req.rnrFrom, y.req.rnrRetries, y.req.una, y.wqes)) =
        some (.rts, some a.pkt.psn, (if x.req.rnrOf = some w.index then x.req.rnrRetries else 0) + 1, x.req.una, x.wqes) ∧
      (∃ t, (u.qp q).map (fun y => y.req.rnrUntil) = some t ∧ s.timer + x.attr.rnrDelay * 10000 ≤ t) ∧
      (∀ q', q' ≠ q → u.qp q' = s.qp q') ∧ u.mem = s.mem ∧ u.out = s.out) ∧
  (∀ (s : State) (a : Arrival) (q : Nat) (x : Qp) (w : Wqe), s.carries a 0x31 q x = true → x.type ≠ .ud →
    x.wqeOf a.pkt.psn = some w → a.pkt.aux ∈ ([1, 2, 3, 4, 0x11, 0x12, 0x13, 0x21] : List (BitVec 32)) →
    Completes (.pktNak a) s fun u =>
      (u.qp q).map Qp.st = some .error ∧ (q, if a.pkt.aux.toNat ≤ 4 then 0x04 else 0x05) ∈ u.wq.erring ∧
      (∀ q', q' ≠ q → u.qp q' = s.qp q') ∧ u.mem = s.mem) ∧
  (∀ (s : State) (a : Arrival) (q : Nat) (x : Qp), s.carries a 0x31 q x = true → x.type ≠ .ud → a.pkt.aux.toNat % 256 = 0x20 →
    (x.req.parkCount + 1) % 16 ≠ 0 → rising s.od = true →
    Completes (.pktNak a) s fun u =>
      u.qp q = some { x.seen with
        req := { x.req with
          parkCount := x.req.parkCount + 1, parkFrom := some (lowerPsn x.req.una a.pkt.psn x.req.parkFrom)
          parkUntil := max (s.timer + a.pkt.aux.toNat / 2 ^ 16 * 1000) (if x.req.parkFrom.isSome then x.req.parkUntil else 0) } } ∧
      u.obj Row.parkFullReceived = (s.obj Row.parkFullReceived + 1) % 2 ^ 64 ∧ u.out = s.out ∧ u.mem = s.mem) ∧
  (∀ (s : State) (a : Arrival) (q : Nat) (x : Qp) (o : Byte) (c : Instr),
    (c, o) ∈ [(Instr.pktReadResp a, (0x20 : Byte)), (.pktAtomicResp a, 0x21)] → s.carries a o q x = true → x.type ≠ .ud →
    x.wqeOf a.pkt.psn = none → rising s.od = true →
    Completes c s fun u =>
      u.qp q = some x.seen ∧ u.obj Row.dupDrop = (s.obj Row.dupDrop + 1) % 2 ^ 64 ∧ u.out = s.out ∧ u.mem = s.mem) ∧
  (∀ (s : State) (a : Arrival) (q : Nat) (x : Qp) (w : Wqe) (f : Flight) (o : Byte) (c : Instr) (bytes : List Byte),
    (c, o, bytes) ∈ [(Instr.pktReadResp a, (0x20 : Byte), a.pkt.payload),
      (.pktAtomicResp a, 0x21, leBytes 8 (beNat (a.pkt.payload.take 8)))] → s.carries a o q x = true → x.type ≠ .ud →
    x.wqeOf a.pkt.psn = some w → x.wqes = [w] → w.ended = false → w.internal = false → w.sqe.c = true →
    (o = 0x20 → w.sqe.opcode = 0x05 ∧ w.length ≤ x.mtu ∧ w.coverage = 0 ∧ a.pkt.pktOffset = 0) →
    (o = 0x21 → isAtomicOp w.sqe.opcode = true) →
    x.req.flight = [f] → f.psn = a.pkt.psn → x.req.una = a.pkt.psn → x.req.nxt = a.pkt.psn + 1 →
    (s.segPaths w.segs 0 bytes.length).any (fun h => !(s.hp h).up) = false →
    s.sideOk x.func true w.sqe w.segs 0 bytes.length = true → s.cqTakes (s.global totalCqs x.func x.sq.cqn) x = true →
    Completes c s fun u =>
      (∀ k, k ∈ (s.placeSegs w.segs 0 bytes).1.out → k ∈ u.out) ∧
      (u.qp q).map (fun y => (y.wqes, y.req.una, y.req.nxt, y.req.flight, y.req.retries, y.resp)) =
        some ([], x.req.nxt, x.req.nxt, [], 0, x.resp) ∧
      (s.addsCqe u (s.global totalCqs x.func x.sq.cqn) fun k => k.index = w.index ∧ k.opcode = w.sqe.opcode ∧ k.status = 0) ∧
      (∀ q', q' ≠ q → u.qp q' = s.qp q') ∧ u.mem = s.mem) ∧
  (∀ (s : State) (a : Arrival) (q : Nat) (x : Qp), s.carries a 0x32 q x = true → x.type = .rc ∨ x.type = .coll →
    Completes (.pktGrant a) s fun u =>
      u.qp q = some { x.seen with resp := { x.resp with needMax := max x.resp.needMax (beNat (slice a.pkt.payload 0 8)) } } ∧
      u.out = s.out ∧ u.mem = s.mem ∧ u.wq.cqWait = s.wq.cqWait) ∧
  (∀ (s : State) (a : Arrival) (q units : Nat) (x : Qp), s.transportRuns = true → s.holding = false →
    s.forwardTarget (arriveAs a 0x32).pkt = none → s.toForwardHome (arriveAs a 0x32).pkt = false →
    s.goodHeader (arriveAs a 0x32).pkt = true → a.pkt.dstQpn ≠ 0 → (s.police (arriveAs a 0x32)).2 = true →
    s.isFrozen (arriveAs a 0x32).pkt = false → s.presentQp a.pkt.dstQpn.toNat = none → a.pkt.aux = 0x100 →
    batchEntry (slice a.pkt.payload 0 8) = (q, units) → units ≠ 0 → s.presentQp q = some x → x.type = .rc ∨ x.type = .coll →
    x.attr.remoteModule = a.pkt.srcModule → x.attr.cipherOn = false → (∀ c ∈ x.req.credits, s.timer < c.2) →
    Completes (.pktGrant a) s fun u =>
      (u.qp q).map (fun y => (y.req.balance, y.req.una, y.wqes)) = some (x.req.balance + (units * 4096 : Nat), x.req.una, x.wqes) ∧
      u = { s with traffic := u.traffic, od := u.od, wq := { s.wq with qps := u.wq.qps } } ∧ (∀ q', q' ≠ q → u.qp q' = s.qp q'))

/-- Transport timers (R158, R166, R170, R171). The instants at which the rate increases are the model's reading of R158. -/
def Obligations.TransportTimers : Prop :=
  (∀ (s : State) (q t : Nat) (x : Qp), s.qp q = some x → x.tier = .hot → x.lost = false → x.freeing = false → x.resp.doneSince = some t →
     s.mirrors q x = false →
    rising s.od = true →
    Completes (.ackDelayExpiry q) s fun u =>
      (u.wq.outbox.map fun k => (k.qpn, k.pkt.opcode, k.pkt.psn, k.pkt.dstModule, k.pkt.dstQpn)) =
        (s.wq.outbox.map fun k => (k.qpn, k.pkt.opcode, k.pkt.psn, k.pkt.dstModule, k.pkt.dstQpn)) ++
          [(q, 0x30, x.resp.e, x.attr.remoteModule, x.attr.remoteQpn)] ∧
      (u.qp q).map (fun y => (y.resp.e, y.resp.re, y.resp.doneSince, y.req)) = some (x.resp.e, x.resp.e, none, x.req) ∧
      u.timer = max s.timer (t + s.obj Row.ackDelay * 250) ∧ u.obj Row.ackSent = (s.obj Row.ackSent + 1) % 2 ^ 64 ∧
      (∀ q', q' ≠ q → u.qp q' = s.qp q') ∧ u.out = s.out ∧ u.mem = s.mem) ∧
  (∀ (s : State) (q t : Nat) (x : Qp), s.qp q = some x → x.tier = .hot → x.freeing = false → x.maySend = true →
    x.timerDue = some t → x.timedOut ≠ [] → x.req.retries < 7 → rising s.od = true →
    Completes (.retransmitTimeout q) s fun u =>
      (u.qp q).map (fun y => (y.st, y.req.retries, y.req.rtoCur, y.req.una, y.req.nxt, y.wqes)) =
        some (.rts, x.req.retries + 1, min (2 * x.req.rtoCur) s.rtoMax, x.req.una, x.req.nxt, x.wqes) ∧
      (∀ p, p ∈ x.timedOut → (u.qp q).any (fun y => y.req.resend.contains p) = true) ∧
      (∀ p, p ∈ x.req.resend → (u.qp q).any (fun y => y.req.resend.contains p) = true) ∧
      u.obj Row.retxTimeout = (s.obj Row.retxTimeout + x.timedOut.length) % 2 ^ 64 ∧
      u.timer = roundUp (max t s.timer) 1000 ∧ (∀ q', q' ≠ q → u.qp q' = s.qp q') ∧ u.out = s.out ∧ u.mem = s.mem) ∧
  (∀ (s : State) (q : Nat) (x : Qp) (w : Wqe), s.qp q = some x → x.tier = .hot → x.freeing = false → x.maySend = true →
    x.timerDue.isSome = true → x.timedOut ≠ [] → 7 ≤ x.req.retries → x.oldest = some w → rising s.od = true →
    Completes (.retransmitTimeout q) s fun u =>
      (u.qp q).map Qp.st = some .error ∧ (q, 0x06) ∈ u.wq.erring ∧
      u.obj Row.retryExceededCount = (s.obj Row.retryExceededCount + 1) % 2 ^ 32 ∧
      (∀ q', q' ≠ q → u.qp q' = s.qp q') ∧ u.mem = s.mem) ∧
  (∀ (s : State) (q : Nat) (p : Psn) (x : Qp) (f : Flight), s.qp q = some x → x.tier = .hot → x.freeing = false →
    x.maySend = true →
    x.req.flight.find? (fun g => g.psn == p) = some f → rising s.od = true →
    Completes (.sackLoss q p) s fun u =>
      u.timer = max s.timer (f.lastSend + x.req.srtt + s.obj Row.reorderWindow * 250 + 1) ∧
      (∀ n, n ∈ x.req.sackLost u.timer (s.obj Row.reorderWindow * 250) → (u.qp q).any (fun y => y.req.resend.contains n) = true) ∧
      (∀ n, (u.qp q).any (fun y => y.req.resend.contains n) = true →
        n ∈ x.req.resend ∨ n ∈ x.req.sackLost u.timer (s.obj Row.reorderWindow * 250)) ∧
      (u.qp q).map (fun y => (y.st, y.req.una, y.req.nxt, y.req.retries, y.wqes, y.resp)) =
        some (x.st, x.req.una, x.req.nxt, x.req.retries, x.wqes, x.resp) ∧
      u.obj Row.retxSack =
        (s.obj Row.retxSack + (x.req.sackLost u.timer (s.obj Row.reorderWindow * 250)).length) % 2 ^ 64 ∧
      (∀ q', q' ≠ q → u.qp q' = s.qp q') ∧ u.out = s.out ∧ u.mem = s.mem) ∧
  (∀ (s : State) (q t : Nat) (p : Psn) (x : Qp) (c : Instr), s.qp q = some x → x.st = .rts → x.tier = .hot → x.lost = false → x.freeing = false →
    (c = .rnrDelayExpiry q ∧ x.req.rnrFrom = some p ∧ t = x.req.rnrUntil) ∨
      (c = .parkPauseExpiry q ∧ x.req.parkFrom = some p ∧ t = x.req.parkUntil) →
    Completes c s fun u =>
      (u.qp q).map (fun y => (y.req.rnrFrom, y.req.parkFrom, y.req.una, y.req.nxt, y.wqes, y.resp)) =
        some (if c = .rnrDelayExpiry q then none else x.req.rnrFrom, if c = .rnrDelayExpiry q then x.req.parkFrom else none, x.req.una,
          x.req.nxt, x.wqes, x.resp) ∧
      (∀ n, n ∈ x.unackedFrom p → (u.qp q).any (fun y => y.req.resend.contains n) = true) ∧
      u = { s with timer := max s.timer t, od := u.od, wq := { s.wq with qps := u.wq.qps } } ∧ (∀ q', q' ≠ q → u.qp q' = s.qp q')) ∧
  (∀ (s : State) (q : Nat) (x : Qp) (c : Instr), s.qp q = some x → x.tier ≠ .hot → x.lost = false → x.freeing = false →
    s.fetchRunning q = false → s.ctx.fetchWait.any (fun f => f.2 == q) = false →
    (c = .ackDelayExpiry q ∧ x.resp.doneSince.isSome = true) ∨ (c = .rnrDelayExpiry q ∧ x.st = .rts ∧ x.req.rnrFrom.isSome = true) ∨
      (c = .parkPauseExpiry q ∧ x.st = .rts ∧ x.req.parkFrom.isSome = true) ∨
      (c = .retransmitTimeout q ∧ x.timerDue.isSome = true) →
    Completes c s fun u =>
      u.wq = s.wq ∧ u.ctx.fetching = s.ctx.fetching ++ [(q, none)] ∧ s.timer ≤ u.timer ∧ (∀ a, u.mem.byte a = s.mem.byte a)) ∧
  (∀ (s : State) (q : Nat) (x : Qp), s.qp q = some x → x.type = .roceRc → x.st = .rts →
    Completes (.cnpRx q) s fun u =>
      u.qp q = some (if x.lastCnp.any (fun t => decide (s.timer < t + 50000)) then x
        else { x with roceRate := x.roceRate / 2, lastCnp := some s.timer }) ∧
      u = { s with wq := { s.wq with qps := u.wq.qps } }) ∧
  (∀ (s : State) (q : Nat) (x : Qp), s.qp q = some x → x.type = .roceRc → x.st = .rts →
    Completes (.roceRateIncrease q) s fun u =>
      u.qp q = some { x with roceRate := min (2 ^ 32) (x.roceRate + 2 ^ 28) } ∧
      u = { s with timer := u.timer, ticks := u.ticks, wq := { s.wq with qps := u.wq.qps } } ∧
      max (x.lastCnp.getD 0) ((tget s.ticks (65536 + q)).getD 0) + 100000 ≤ u.timer) ∧
  (∀ (s : State) (q : Nat) (p : Psn) (c : Instr), s.qp q = none →
    c ∈ [Instr.ackDelayExpiry q, .retransmitTimeout q, .sackLoss q p, .rnrDelayExpiry q, .parkPauseExpiry q, .cnpRx q,
      .roceRateIncrease q] → Completes c s fun u => u = s)

/-- The context store (R186-R201). -/
def Obligations.ContextStore : Prop :=
  (∀ (s : State) (q : Nat) (x : Qp) (image : List Byte), s.ctx.fetching.any (fun f => f.1 == q) = true → s.qp q = some x →
    contextWellFormed image = true → contextOk q image = true → 0 < s.freeHot → s.parkedOf q = [] →
    Completes (.contextFetchDone q image) s fun u =>
      (u.qp q).map (fun y => (y.tier, y.referenced, y.dirty)) = some (.hot, true, false) ∧
      (u.qp q).map (fun y => (y.st, y.attr, y.req, y.resp, y.wqes)) = some (x.st, x.attr, x.req, x.resp, x.wqes) ∧
      (∀ q', q' ≠ q → u.qp q' = s.qp q') ∧ u.ctx.fetching = s.ctx.fetching.filter (fun f => f.1 != q) ∧
      u.mem = s.mem ∧ u.wq.cqWait = s.wq.cqWait) ∧
  (∀ (s : State) (q : Nat) (x : Qp) (image : List Byte), s.ctx.fetching.any (fun f => f.1 == q) = true → s.qp q = some x →
    contextWellFormed image = true → contextOk q image = false → rising s.od = true →
    Completes (.contextFetchDone q image) s fun u =>
      u.qp q = some { x with lost := true } ∧ (∀ q', q' ≠ q → u.qp q' = s.qp q') ∧ u.parkedOf q = [] ∧
      u.obj Row.contextCheckFail = (s.obj Row.contextCheckFail + 1) % 2 ^ 32 ∧
      u.obj Row.contextLostDrop = (s.obj Row.contextLostDrop + (s.parkedOf q).length) % 2 ^ 64 ∧ u.mem = s.mem) ∧
  (∀ (s : State) (q : Nat), s.ctx.fetching.any (fun f => f.1 == q) = true → s.hostBacked q = true → rising s.od = true →
    Completes (.contextFetchFail q) s fun u =>
      u.wq = s.wq ∧ u.parkedOf q = [] ∧
      u.ctx = { s.ctx with
        fetching := s.ctx.fetching.filter fun f => f.1 != q
        parked := s.ctx.parked.filter fun k => k.arrival.pkt.dstQpn.toNat != q } ∧
      u.obj Row.hbFetchFail = (s.obj Row.hbFetchFail + 1) % 2 ^ 32 ∧
      u.obj Row.parkDrop = (s.obj Row.parkDrop + (s.parkedOf q).length) % 2 ^ 64 ∧ u.mem = s.mem) ∧
  (∀ (s : State) (q : Nat) (image : List Byte) (c : Instr), s.ctx.fetching.any (fun f => f.1 == q) = false →
    contextWellFormed image = true → c ∈ [Instr.contextFetchDone q image, .contextFetchFail q] → Completes c s fun u => u = s) ∧
  (∀ (s : State) (p : NetPort) (q : Nat) (l : List (Nat × Nat)), (s.ctx.fetching.filter fun f => f.2 == some p.val).length < 1024 →
    s.ctx.fetchWait = (p.val, q) :: l → s.fetchRunning q = false → s.isHot q = false → s.ctx.writeback = [] →
    Completes (.fetchEntryFree p) s fun u =>
      u.ctx.fetching = s.ctx.fetching ++ [(q, some p.val)] ∧
      u.ctx.fetchWait = l.filter (fun f => !(s.fetchRunning f.2 || s.isHot f.2)) ∧ u.wq = s.wq ∧
      (s.hostBacked q = true → u.out = s.out ++ [.contextRead (s.poolAddr q)]) ∧ (s.hostBacked q = false → u.out = s.out) ∧
      ∀ a, u.mem.byte a = s.mem.byte a) ∧
  (∀ (s : State) (q : Nat) (l : List Nat) (x : Qp), s.ctx.slotWait = q :: l → 0 < s.freeHot → s.qp q = some x → s.parkedOf q = [] →
    Completes .hotSlotAvailable s fun u =>
      (u.qp q).map (fun y => (y.tier, y.referenced, y.dirty)) = some (.hot, true, false) ∧
      (u.qp q).map (fun y => (y.st, y.attr, y.req, y.resp, y.wqes)) = some (x.st, x.attr, x.req, x.resp, x.wqes) ∧
      (∀ q', q' ≠ q → u.qp q' = s.qp q') ∧ u.ctx.slotWait = l ∧ u.mem = s.mem) ∧
  (∀ s : State, s.obj Row.hotLowWatermark ≤ s.freeHot → Completes .evictionSweep s fun u => u = s) ∧
  (∀ s : State, s.freeHot < s.obj Row.hotLowWatermark → rising s.wq.qps = true →
    Completes .evictionSweep s fun u =>
      (∀ q x, s.qp q = some x → (s.pinned q x = true ∨ x.tier ≠ .hot) → u.qp q = some x) ∧
      (∀ q, (u.qp q).map (fun y => (y.st, y.sq, y.rq, y.req, y.resp, y.wqes)) =
        (s.qp q).map (fun y => (y.st, y.sq, y.rq, y.req, y.resp, y.wqes))) ∧
      s.freeHot ≤ u.freeHot ∧ u.mem = s.mem ∧ u.timer = s.timer) ∧
  (∀ (s : State) (p : NetPort) (m : ModAddr) (n : Qpn) (t : Nat) (l : List (Nat × ModAddr × Qpn × Nat)),
    s.ctx.suppress = (p.val, m, n, t) :: l →
    Completes (.suppressionLapse p m n) s fun u => u = { s with timer := max s.timer t, ctx := { s.ctx with suppress := l } })

/-! ## Traffic -/

/-- The traffic manager (R204-R219). -/
def Obligations.TrafficManager : Prop :=
  (∀ (s t : State) (p : NetPort) (bs : List Byte) (level v : Nat) (k : QPkt), s.enabled 5 = true → s.enabled 6 = true →
    s.offPort = none → s.topLevel p.val = some level → s.levelTurn p.val level = (t, some v) →
    t.pickVc p.val v = some (.transit k) → s.ethernet p.val = false → p.val < s.fabric.links.length →
    Completes (.egressSchedule p bs) s fun u =>
      let f : LinkFrame := ⟨(s.link p.val).nextLseq, (s.link p.val).expect, v, k.cls, k.mode, k.down, k.stomp, k.pkt⟩
      u.out = s.out ++ [.frame p.val f.bytes] ∧
      u.link p.val = { s.link p.val with
        nextLseq := ((s.link p.val).nextLseq + 1) % 4096, held := (s.link p.val).held ++ [f]
        lackAt := if (s.link p.val).held.isEmpty then s.timer else (s.link p.val).lackAt
        sent := (s.link p.val).sent.set v (((s.link p.val).sent.getD v 0 + frameUnits k.pkt) % 65536) } ∧
      (u.egressVc p.val v).queue = (s.egressVc p.val v).queue.erase k ∧ u.wq = s.wq ∧ u.mem = s.mem ∧ u.timer = s.timer) ∧
  (∀ (s t : State) (p : NetPort) (bs : List Byte) (level v : Nat) (l : Local) (k : Packet) (w : Wqe) (x : Qp), s.enabled 5 = true →
    s.enabled 6 = true → s.offPort = none → s.topLevel p.val = some level → s.levelTurn p.val level = (t, some v) →
    t.pickVc p.val v = some (.own l) → l.entry = some (k, w) → s.qp l.qpn = some x → x.type ≠ .ud → k.retx = false →
    isReadOrAtomic k.opcode = false → w.internal = false → s.payloadOk x w k = true → s.readPathDown x k w = false →
    s.ethernet p.val = false →
    Completes (.egressSchedule p bs) s fun u =>
      Output.frame p.val (LinkFrame.mk (s.link p.val).nextLseq (s.link p.val).expect v l.pkt.cls l.pkt.mode l.pkt.down l.pkt.stomp
        (s.sealed l.qpn { k with payload := slice bs 0 k.payloadLen.toNat })).bytes ∈ u.out ∧
      (u.qp l.qpn).map (fun y => (y.req.nxt, y.req.una, y.resp, y.st)) = some (x.req.nxt + 1, x.req.una, x.resp, x.st) ∧
      (∀ q', q' ≠ l.qpn → u.qp q' = s.qp q') ∧ u.mem = s.mem ∧ u.timer = s.timer) ∧
  (∀ (s : State) (p : NetPort) (bs : List Byte),
    (s.enabled 5 = false ∨ s.enabled 6 = false ∨ (s.offPort = none ∧ s.topLevel p.val = none)) →
    Completes (.egressSchedule p bs) s fun u => u = s) ∧
  (∀ s : State, s.enabled 6 = true → rising s.traffic.vcTokens = true → s.onBeat 5 1000 = true →
    Completes .bucketRefill s fun u =>
      (∀ p v, p < 4 → v < 8 → tget u.traffic.vcTokens (p * 8 + v) =
        if s.obj Row.vcRate p v = 0 then none
        else match tget s.traffic.vcTokens (p * 8 + v) with
          | none => some ((8 * s.obj Row.vcBurst p v : Nat) : Int)
          | some n => some (min (n + s.obj Row.vcRate p v) ((8 * s.obj Row.vcBurst p v : Nat) : Int))) ∧
      u.timer % 1000 = 0 ∧ u = { s with timer := u.timer, ticks := u.ticks, traffic := u.traffic }) ∧
  (∀ (s : State) (q : Nat) (x : Qp), s.enabled 6 = true → s.enabled 3 = true →
    s.wq.qps = [(q, x)] → s.granting q x = true → x.type = .rc → x.comm = none → x.resp.recent = [] → x.resp.granted = x.resp.arrived → x.resp.granted < x.resp.needMax →
    x.resp.needMax ≤ x.resp.granted + 4096 → 4096 ≤ s.obj Row.grantFloor → s.obj Row.grantChunk ≠ 0 → s.grantLevel x ≤ 3 →
    s.mirrors q x = false → rising s.od = true → s.onBeat 6 1000 = true →
    Completes .grantTick s fun u =>
      (s.halfPortSlow s.headDelays q = false →
        (u.qp q).map (fun y => (y.resp.granted, y.resp.needMax, y.resp.e, y.req)) =
          some (x.resp.granted + 4096, x.resp.needMax, x.resp.e, x.req) ∧
        u.obj Row.grantUnitsSent = (s.obj Row.grantUnitsSent + 1) % 2 ^ 64 ∧
        (u.wq.outbox.map fun k => (k.qpn, k.pkt.opcode, k.pkt.psn, k.pkt.aux.toNat / 2 ^ 16)) =
          (s.wq.outbox.map fun k => (k.qpn, k.pkt.opcode, k.pkt.psn, k.pkt.aux.toNat / 2 ^ 16)) ++
            [(q, 0x30, x.resp.e, min (x.resp.grantOut + 1) 65535)]) ∧
      u.halfPorts = s.halfPorts.map HalfPortSt.drainTick ∧ u.timer % 1000 = 0 ∧ u.mem = s.mem ∧ u.out = s.out) ∧
  (∀ (s : State) (q : Nat) (x : Qp), s.enabled 6 = true → s.enabled 3 = true →
    s.wq.qps = [(q, x)] → s.granting q x = true → x.resp.granted ≤ x.resp.arrived →
    s.grantLevel x ≤ 3 → rising s.od = true →
    Completes .grantTick s fun u =>
      (s.halfPortSlow s.headDelays q = true →
        (u.qp q).map (fun y => y.resp.granted) = some x.resp.granted ∧
        u.obj Row.halfportHold = (s.obj Row.halfportHold + 1) % 2 ^ 64 ∧ u.wq.outbox = s.wq.outbox ∧ u.out = s.out ∧ u.mem = s.mem)) ∧
  (∀ (s : State), (s.enabled 6 = false ∨ s.enabled 3 = false) →
    Completes .grantTick s fun u =>
      u = { s with freeCount := s.freeCount + 8, timer := u.timer, ticks := u.ticks, halfPorts := s.halfPorts.map HalfPortSt.drainTick }) ∧
  (∀ (s : State) (q b t : Nat) (l : List (Nat × Nat)) (x : Qp), s.qp q = some x → x.req.credits = (b, t) :: l → rising s.od = true →
    Completes (.creditExpiry q) s fun u =>
      let dead := ((x.req.credits.filter fun c => decide (c.2 ≤ u.timer)).map Prod.fst).sum
      u.timer = max s.timer t ∧
      u.qp q = some { x with
        req := { x.req with
          credits := x.req.credits.filter fun c => !decide (c.2 ≤ u.timer), balance := x.req.balance - (dead : Int) } } ∧
      u.obj Row.grantLapsed = (s.obj Row.grantLapsed + dead) % 2 ^ 64 ∧ (∀ q', q' ≠ q → u.qp q' = s.qp q') ∧ u.mem = s.mem) ∧
  (∀ (s : State) (q since : Nat) (x : Qp), s.qp q = some x → x.req.waitSince = some since → x.maySend = true → rising s.od = true →
    Completes (.demandReportTimer q) s fun u =>
      u.timer = max s.timer (x.req.lastReport.getD since + 100000) ∧
      u.qp q = some { x with req := { x.req with reported := x.req.need, lastReport := some u.timer, reportDue := false } } ∧
      (u.wq.outbox.map fun k => (k.qpn, k.pkt.opcode, k.pkt.aux, k.pkt.payload)) =
        (s.wq.outbox.map fun k => (k.qpn, k.pkt.opcode, k.pkt.aux, k.pkt.payload)) ++ [(q, 0x32, 1, beBytes 8 x.req.need)] ∧
      u.obj Row.demandSent = (s.obj Row.demandSent + 1) % 2 ^ 64 ∧ u.mem = s.mem ∧ u.out = s.out) ∧
  (∀ (s : State) (p v : Nat), s.enabled 6 = true → p < 4 → v < 8 → rising s.od = true →
    Completes .tmSample s fun u =>
      let b := depthBin (((s.egressVc p v).queue.map (s.queuedBytes p)).sum + ((s.vcOffers p v).map Prod.fst).sum)
      u.objField Row.depthHist (4 * b) 4 p v = min (2 ^ 32 - 1) (s.objField Row.depthHist (4 * b) 4 p v + 1) ∧
      u = { s with timer := u.timer, ticks := u.ticks, od := u.od }) ∧
  (∀ (s : State) (c : Instr), s.enabled 6 = false → c = .bucketRefill ∨ c = .tmSample →
    Completes c s fun u => u = { s with timer := u.timer, ticks := u.ticks })

/-! ## The native link layer, ports and lanes -/

/-- The native link layer (R222-R227, R234, R239, R241). -/
def Obligations.LinkLayer : Prop :=
  (∀ (s : State) (link : Link) (f : RxFrame), link.val < 4 → link.val < s.fabric.links.length → (s.link link.val).up = true →
    s.native link.val = true → (frameOf f.bytes).kind = 0 → (frameOf f.bytes).hcrcOk = true → f.fecBad = false →
    (frameOf f.bytes).trailer = .good → (frameOf f.bytes).lseq = (s.link link.val).expect → rising s.od = true →
    s.resolve (frameOf f.bytes).pkt.dstModule.toNat (frameOf f.bytes).pkt.dstQpn.toNat ≠ some s.ownAddress.toNat →
    Completes (.linkFrameRx link f) s fun u =>
      let x := s.link link.val
      let g := frameOf f.bytes
      u.link link.val = { x.lacked s.timer g.lack with
        expect := (x.expect + 1) % 4096, reqAt := none
        ingress := tput x.ingress g.vc ((tget x.ingress g.vc).getD [] ++ [frameTransit g link.val s.timer]) } ∧
      (∀ m, m ≠ link.val → u.link m = s.link m) ∧
      u.objField Row.vcRx 0 8 link.val g.vc = (s.objField Row.vcRx 0 8 link.val g.vc + 1) % 2 ^ 64 ∧
      u.objField Row.vcRx 8 8 link.val g.vc = (s.objField Row.vcRx 8 8 link.val g.vc + Packet.bytes g.pkt) % 2 ^ 64 ∧
      u = { s with od := u.od, fabric := u.fabric }) ∧
  (∀ (s : State) (link : Link) (f : RxFrame) (hl : link.val < 4), link.val < s.fabric.links.length → (s.link link.val).up = true →
    s.native link.val = true → (frameOf f.bytes).kind = 0 → (frameOf f.bytes).hcrcOk = true → f.fecBad = false →
    (frameOf f.bytes).trailer = .good → (frameOf f.bytes).lseq = (s.link link.val).expect →
    s.resolve (frameOf f.bytes).pkt.dstModule.toNat (frameOf f.bytes).pkt.dstQpn.toNat = some s.ownAddress.toNat →
    Completes (.linkFrameRx link f) s fun u =>
      let x := s.link link.val
      let g := frameOf f.bytes
      ∃ t : State, u = t.receive ⟨⟨link.val, hl⟩, g.pkt, f.data⟩ none ∧ t = { s with od := t.od, fabric := t.fabric } ∧
        t.link link.val = { x.lacked s.timer g.lack with
          expect := (x.expect + 1) % 4096, reqAt := none
          freed := x.freed.set g.vc ((x.freed.getD g.vc 0 + frameUnits g.pkt) % 65536) }) ∧
  (∀ (s : State) (link : Link) (f : RxFrame), link.val < s.fabric.links.length → (s.link link.val).up = true →
    s.native link.val = true → (frameOf f.bytes).kind = 0 → (frameOf f.bytes).hcrcOk = true → f.fecBad = false →
    (frameOf f.bytes).trailer = .stomped → (frameOf f.bytes).lseq = (s.link link.val).expect → rising s.od = true →
    Completes (.linkFrameRx link f) s fun u =>
      let x := s.link link.val
      let g := frameOf f.bytes
      u.link link.val = { x.lacked s.timer g.lack with
        expect := (x.expect + 1) % 4096, reqAt := none
        freed := x.freed.set g.vc ((x.freed.getD g.vc 0 + frameUnits g.pkt) % 65536) } ∧
      (link.val < 4 → u.obj Row.stompDrop link.val = (s.obj Row.stompDrop link.val + 1) % 2 ^ 64) ∧
      u = { s with od := u.od, fabric := u.fabric }) ∧
  (∀ (s : State) (link : Link) (f : RxFrame), link.val < s.fabric.links.length → (s.link link.val).up = true →
    s.native link.val = true → (frameOf f.bytes).kind = 0 →
    (frameOf f.bytes).hcrcOk = false ∨ f.fecBad = true ∨ (frameOf f.bytes).trailer = .bad →
    (s.link link.val).reqAt = none → rising s.od = true →
    Completes (.linkFrameRx link f) s fun u =>
      let x := s.link link.val
      u.link link.val = { x with reqAt := some s.timer, reported := x.freed } ∧
      (link.val < 4 → u.obj Row.crcFail link.val = (s.obj Row.crcFail link.val + 1) % 2 ^ 64) ∧
      u.out = s.out ++ [.frame link.val (controlBytes 1 x.freed x.expect x.expect 0 0)] ∧
      ((frameOf f.bytes).hcrcOk = false ∨ f.fecBad = true → u.traffic = s.traffic) ∧
      u = { s with od := u.od, fabric := u.fabric, out := u.out, traffic := u.traffic }) ∧
  (∀ (s : State) (link : Link) (f : RxFrame), link.val < s.fabric.links.length → (s.link link.val).up = true →
    s.native link.val = true → (frameOf f.bytes).kind = 0 → (frameOf f.bytes).hcrcOk = true → f.fecBad = false →
    (frameOf f.bytes).trailer ≠ .bad → (frameOf f.bytes).lseq ≠ (s.link link.val).expect → (s.link link.val).reqAt = none →
    Completes (.linkFrameRx link f) s fun u =>
      let x := s.link link.val
      u.link link.val = { x.lacked s.timer (frameOf f.bytes).lack with reqAt := some s.timer, reported := x.freed } ∧
      u.out = s.out ++ [.frame link.val (controlBytes 1 x.freed x.expect x.expect 0 0)] ∧
      u = { s with fabric := u.fabric, out := u.out }) ∧
  (∀ (s : State) (port : NetPort) (f : EthFrame) (p : Nat), s.iface port.val = p → s.portUp p = true → s.ethernet p = true →
    f.dstMac = leBytes 6 (Config.ethMac p) → f.fragment = false → f.checksumOk = true → f.fcsOk = true → f.length ≤ 9216 →
    f.tags.length ≤ 1 → f.ipDst = some s.ownAddress → f.udpPort.toNat = s.obj Row.nativeUdpPort → f.udpPort ≠ 4791 →
    s.wrongEncapsulation f.arr.pkt.dstQpn.toNat false = false → rising s.od = true → p < s.fabric.links.length →
    Completes (.ethFrameRx port f) s fun u =>
      let v := frameVc f
      ∃ t : State, u = t.receive f.arr none ∧ t = { s with od := t.od, fabric := t.fabric, out := t.out } ∧
        t.objField Row.vcRx 0 8 p v = (s.objField Row.vcRx 0 8 p v + 1) % 2 ^ 64 ∧
        t.objField Row.vcRx 8 8 p v = (s.objField Row.vcRx 8 8 p v + f.length) % 2 ^ 64 ∧
        (s.obj Row.pfcEnable p = 0 → t.out = s.out ∧ t.fabric = s.fabric) ∧
        (s.obj Row.pfcEnable p ≠ 0 → 49152 < f.buffered → (s.link p).pausing.testBit v = false →
          t.out = s.out ++ [.pfc p v true] ∧ (t.link p).pausing.testBit v = true)) ∧
  (∀ (s : State) (port : NetPort) (f : EthFrame) (p : Nat), s.iface port.val = p → s.portUp p = true → s.ethernet p = true →
    f.dstMac = leBytes 6 (Config.ethMac p) →
    f.fragment = true ∨ f.checksumOk = false ∨ f.fcsOk = false ∨ 9216 < f.length ∨ 1 < f.tags.length → rising s.od = true →
    Completes (.ethFrameRx port f) s fun u =>
      u.obj Row.badHeaderDrop = (s.obj Row.badHeaderDrop + 1) % 2 ^ 64 ∧ u = { s with od := u.od }) ∧
  (∀ (s : State) (port : NetPort) (f : EthFrame) (p : Nat), s.iface port.val = p →
    s.portUp p = false ∨ s.ethernet p = false ∨ f.dstMac ≠ leBytes 6 (Config.ethMac p) →
    Completes (.ethFrameRx port f) s fun u => u = s) ∧
  (∀ (s : State) (link : Link) (b : List Byte), controlWellFormed 0 b = true → link.val < s.fabric.links.length → (s.link link.val).st = 2 → s.native link.val = true → rising s.od = true →
    Completes (.credit link b) s fun u =>
      if (controlOf b).crcOk then
        u.link link.val = { (s.link link.val).lacked s.timer (controlOf b).lack with granted := (controlOf b).credits } ∧
        (∀ m, m ≠ link.val → u.link m = s.link m) ∧ u = { s with fabric := u.fabric }
      else (link.val < 4 → u.obj Row.crcFail link.val = (s.obj Row.crcFail link.val + 1) % 2 ^ 64) ∧ u = { s with od := u.od }) ∧
  (∀ (s : State) (link : Link) (b : List Byte), controlWellFormed 1 b = true → link.val < s.fabric.links.length → (s.link link.val).st = 2 → s.native link.val = true →
    (controlOf b).crcOk = true → rising s.od = true →
    Completes (.replayReq link b) s fun u =>
      let x := (s.link link.val).lacked s.timer (controlOf b).lack
      let fs := x.held.dropWhile fun h => h.lseq != (controlOf b).replayFrom
      u.out = s.out ++ resent link.val x.expect fs ∧
      u.link link.val = { x with granted := (controlOf b).credits, lackAt := s.timer } ∧
      (link.val < 4 → fs ≠ [] → u.obj Row.replayCount link.val = (s.obj Row.replayCount link.val + 1) % 2 ^ 64) ∧
      u = { s with od := u.od, fabric := u.fabric, out := u.out }) ∧
  (∀ (s : State) (link : Link), link.val < s.fabric.links.length → (s.link link.val).st = 2 → (s.link link.val).held ≠ [] →
    rising s.od = true →
    Completes (.replayTimer link) s fun u =>
      let x := s.link link.val
      u.timer = max s.timer (x.lackAt + 2000) ∧ u.out = s.out ++ resent link.val x.expect x.held ∧
      u.link link.val = { x with lackAt := u.timer } ∧
      (link.val < 4 → u.obj Row.replayCount link.val = (s.obj Row.replayCount link.val + 1) % 2 ^ 64) ∧
      u = { s with timer := u.timer, od := u.od, fabric := u.fabric, out := u.out }) ∧
  (∀ (s : State) (link : Link), (s.link link.val).st ≠ 2 ∨ (s.link link.val).held = [] →
    Completes (.replayTimer link) s fun u => u = s) ∧
  (∀ (s : State) (link : Link), link.val < s.fabric.links.length → (s.link link.val).st = 2 → s.native link.val = true → s.onBeat (16 + link.val) 500 = true →
    Completes (.controlFrameTimer link) s fun u =>
      let x := s.link link.val
      u.out = s.out ++ [.frame link.val (controlBytes 0 x.freed x.expect 0 0 0)] ∧ u.link link.val = { x with reported := x.freed } ∧
      u.timer % 500 = 0 ∧ u = { s with timer := u.timer, ticks := u.ticks, fabric := u.fabric, out := u.out }) ∧
  (∀ (s : State) (port : NetPort) (v : Vc) (quanta p : Nat), s.iface port.val = p → p < s.fabric.links.length → rising s.od = true →
    Completes (.pfcFrameRx port v quanta) s fun u =>
      if s.ethernet p = true ∧ s.portUp p = true then
        if s.obj Row.pfcEnable p = 0 then
          u.obj Row.pauseDiscard p = (s.obj Row.pauseDiscard p + 1) % 2 ^ 64 ∧ u = { s with od := u.od }
        else
          u.link p = { s.link p with paused := setBit (s.link p).paused v.val (quanta != 0) } ∧
          (∀ m, m ≠ p → u.link m = s.link m) ∧ u = { s with fabric := u.fabric }
      else u = s) ∧
  (∀ (s : State) (port : NetPort) (v : Vc) (p : Nat), s.iface port.val = p → p < s.fabric.links.length →
    Completes (.pfcPauseExpiry port v) s fun u =>
      (u.link p).paused.testBit v.val = false ∧
      (∀ w, w ≠ v.val → (u.link p).paused.testBit w = (s.link p).paused.testBit w) ∧
      u = s.setLink p { s.link p with paused := (u.link p).paused }) ∧
  (∀ (s : State) (port : NetPort), rising s.od = true →
    Completes (.pauseFrameRx port) s fun u =>
      if s.ethernet port.val = true ∧ s.portUp port.val = true then
        u.obj Row.pauseDiscard (s.iface port.val) = (s.obj Row.pauseDiscard (s.iface port.val) + 1) % 2 ^ 64 ∧ u = { s with od := u.od }
      else u = s) ∧
  (∀ (s : State) (port : NetPort) (vc : Vc) (k : QPkt), port.val < s.fabric.links.length →
    tget (s.link port.val).ingress vc.val = some [k] →
    (∀ m w, m ≠ port.val ∨ w ≠ vc.val → (tget (s.link m).ingress w).getD [] = []) → rising s.od = true →
    rising (s.link port.val).ingress = true →
    Completes (.stuckTimeout port vc) s fun u =>
      let x := s.link port.val
      let v := vc.val
      u.link port.val = { x with
        ingress := tput x.ingress v [], freed := x.freed.set v ((x.freed.getD v 0 + frameUnits k.pkt) % 65536) } ∧
      u.objField Row.vcDrop 4 4 port.val v = (s.objField Row.vcDrop 4 4 port.val v + 1) % 2 ^ 32 ∧
      u = { s with od := u.od, fabric := u.fabric })

/-- Lanes, ports and notices (R228, R229, R232, R235, R236, R242). -/
def Obligations.LanesAndPorts : Prop :=
  (∀ (s : State) (link : Link) (b : List Byte) (lanes : BitVec 4), controlWellFormed 2 b = true → link.val < 4 →
    link.val < s.fabric.links.length → (s.link link.val).st = 2 → s.native link.val = true → (controlOf b).crcOk = true →
    widest lanes.toNat ≠ 0 → rising s.od = true →
    Completes (.retrain link b lanes) s fun u =>
      let x := (s.link link.val).lacked s.timer (controlOf b).lack
      u.link link.val = { x with granted := (controlOf b).credits, lanes := widest lanes.toNat, lackAt := s.timer } ∧
      u.out = s.out ++ resent link.val x.expect x.held ∧
      u.obj Row.widthChanges link.val = (s.obj Row.widthChanges link.val + 1) % 2 ^ 32 ∧
      (∀ k, k < 4 → u.objBit Row.laneStatus 0 (laneObj link.val k) = lanes.toNat.testBit k ∧
        u.objBit Row.laneStatus 1 (laneObj link.val k) = (widest lanes.toNat).testBit k) ∧
      u = { s with od := u.od, fabric := u.fabric, out := u.out }) ∧
  (∀ (s : State) (link : Link) (b : List Byte), controlWellFormed 2 b = true → link.val < 4 → link.val < s.fabric.links.length →
    (s.link link.val).st = 2 → s.native link.val = true → (controlOf b).crcOk = true → rising s.od = true →
    Completes (.retrain link b 0) s fun u =>
      u.link link.val = { LinkSt.idle with st := 3 } ∧
      u.obj Row.portDownCount link.val = (s.obj Row.portDownCount link.val + 1) % 2 ^ 32 ∧
      u.obj Row.widthChanges link.val = (s.obj Row.widthChanges link.val + 1) % 2 ^ 32) ∧
  (∀ (s : State) (lane : Fin 24) (lanes : BitVec 4), lane.val / 4 < s.fabric.links.length → (s.link (lane.val / 4)).st = 2 →
    widest (setBit lanes.toNat (lane.val % 4) false) ≠ 0 → rising s.od = true →
    Completes (.laneFault lane lanes) s fun u =>
      let x := s.link (lane.val / 4)
      u.link (lane.val / 4) = { x with lanes := widest (setBit lanes.toNat (lane.val % 4) false), lackAt := s.timer } ∧
      (u.link (lane.val / 4)).lanes.testBit (lane.val % 4) = false ∧
      u.obj Row.laneRetireCount lane.val = (s.obj Row.laneRetireCount lane.val + 1) % 2 ^ 32 ∧
      u.out = s.out ++ resent (lane.val / 4) x.expect x.held ∧
      u = { s with od := u.od, fabric := u.fabric, out := u.out }) ∧
  (∀ (s : State) (lane : Fin 24) (errors : Nat) (lanes : BitVec 4), lane.val / 4 < s.fabric.links.length →
    (s.link (lane.val / 4)).st = 2 → rising s.od = true → rising s.fabric.laneRuns = true →
    Completes (.laneSerWindow lane errors lanes) s fun u =>
      let limit := s.obj Row.laneSerLimit lane.val
      let run := if limit ≠ 0 ∧ limit < errors then (tget s.fabric.laneRuns lane.val).getD 0 + 1 else 0
      u.obj Row.laneSymbolErrors lane.val = (s.obj Row.laneSymbolErrors lane.val + errors) % 2 ^ 64 ∧
      tget u.fabric.laneRuns lane.val = some run ∧
      (3 ≤ run → u.objBit Row.laneStatus 2 lane.val = true) ∧
      (3 ≤ run → s.objBit Row.laneStatus 2 lane.val = false → (u.link (lane.val / 4)).lanes.testBit (lane.val % 4) = false ∧
        u.obj Row.laneRetireCount lane.val = (s.obj Row.laneRetireCount lane.val + 1) % 2 ^ 32) ∧
      (run < 3 → u.fabric.links = s.fabric.links ∧ u = { s with od := u.od, fabric := u.fabric })) ∧
  (∀ (s : State) (link : Link) (lanes : BitVec 4), link.val < 4 → link.val < s.fabric.links.length → (s.link link.val).st = 2 →
    (s.link link.val).lanes ≠ 15 → widest lanes.toNat ≠ 0 → rising s.od = true →
    Completes (.laneRetryTimer link lanes) s fun u =>
      let x := s.link link.val
      u.link link.val = { x with lanes := widest lanes.toNat, lackAt := s.timer } ∧
      u.obj Row.widthChanges link.val = (s.obj Row.widthChanges link.val + 1) % 2 ^ 32 ∧
      (∀ k, k < 4 → lanes.toNat.testBit k = true → u.objBit Row.laneStatus 2 (laneObj link.val k) = false) ∧
      u.out = s.out ++ resent link.val x.expect x.held ∧
      u = { s with od := u.od, fabric := u.fabric, out := u.out }) ∧
  (∀ (s : State) (link : Link) (lanes : BitVec 4), (s.link link.val).st ≠ 2 ∨ (s.link link.val).lanes = 15 →
    Completes (.laneRetryTimer link lanes) s fun u => u = s) ∧
  (∀ (s : State) (link : Link) (c : PortDownCause), link.val < 4 → link.val < s.fabric.links.length → (s.link link.val).st = 2 →
    s.portsOf link.val = [link.val] → rising s.od = true → rising s.traffic.egress = true →
    Completes (.portDown link c) s fun u =>
      let queued := (List.range 8).flatMap fun v => (s.egressVc link.val v).queue
      u.link link.val = { LinkSt.idle with st := 3 } ∧ (∀ m, m ≠ link.val → (u.link m).held = (s.link m).held) ∧
      u.obj Row.portDownCount link.val = (s.obj Row.portDownCount link.val + 1) % 2 ^ 32 ∧
      (∀ v, v < 8 → (u.egressVc link.val v).queue = []) ∧
      u.wq.outbox.map QPkt.pkt = s.wq.outbox.map QPkt.pkt ++ (((s.link link.val).ingress.flatMap Prod.snd).map QPkt.pkt ++
        (queued.filter fun k => !k.stomp).map QPkt.pkt) ∧
      (∀ q, u.qp q = s.qp q) ∧ u.mem = s.mem ∧ u.timer = s.timer) ∧
  (∀ (s : State) (link : Link) (c : PortDownCause), (∀ p ∈ s.portsOf link.val, (s.link p).st ≠ 2) →
    Completes (.portDown link c) s fun u => u = s) ∧
  (∀ (s : State) (link : Link) (c : PortDownCause), s.paired800 link.val = true → s.fabric.links.length = 6 →
    (∀ p ∈ s.portsOf link.val, (s.link p).st = 2) →
    Completes (.portDown link c) s fun u =>
      (∀ p ∈ s.portsOf link.val, u.link p = { LinkSt.idle with st := 3 }) ∧ (∀ q, u.qp q = s.qp q) ∧ u.mem = s.mem) ∧
  (∀ (s : State) (link : Link), link.val < s.fabric.links.length → (s.link link.val).st = 3 →
    s.enabled (if link.val < 4 then 5 else 11) = true → s.portMode link.val ≠ 0 →
    Completes (.portRetrainTimer link) s fun u => u = s.setLink link.val { LinkSt.idle with st := 1 }) ∧
  (∀ (s : State) (link : Link) (lanes : BitVec 4), link.val < s.fabric.links.length → (s.link link.val).st = 1 →
    s.enabled (if link.val < 4 then 5 else 11) = true → widest (s.notRetired link.val lanes.toNat) ≠ 0 → rising s.od = true →
    Completes (.portUp link lanes) s fun u =>
      let use := widest (s.notRetired link.val lanes.toNat)
      u.link link.val = { LinkSt.idle with st := 2, lanes := use } ∧ (∀ m, m ≠ link.val → u.link m = s.link m) ∧
      (∀ k, k < 4 → u.objBit Row.laneStatus 1 (laneObj link.val k) = use.testBit k) ∧
      u = { s with od := u.od, fabric := u.fabric }) ∧
  (∀ (s : State) (link : Link) (b : List Byte), controlWellFormed 3 b = true → link.val < 4 → (s.link link.val).st = 2 →
    s.native link.val = true → (controlOf b).crcOk = true → s.obj Row.routingMode = 2 → s.fabric.split = false → rising s.od = true →
    Completes (.splitNotice link b) s fun u =>
      u.fabric.split = s.bankLoaded ∧ (s.bankLoaded = false → u.fabric.broken = true) ∧
      u.objField Row.noticeCount 0 4 = (s.objField Row.noticeCount 0 4 + 1) % 2 ^ 32 ∧
      (s.bankLoaded = true → ∀ p, s.otherPorts link.val = [p] → ∃ l g, Output.frame p (controlBytes 3 l g 0 0 0) ∈ u.out) ∧
      u = { s with od := u.od, fabric := u.fabric, out := u.out }) ∧
  (∀ (s : State) (link : Link) (w : List Byte) (f : ControlFrame) (j a b : Nat), controlWellFormed 4 w = true → controlOf w = f →
    link.val < 4 → (s.link link.val).st = 2 → s.native link.val = true → f.crcOk = true → s.pairOf f.pairAddr = some (j, a, b) →
    (∀ i m, s.pairPlace = some (i, m) → i ≠ j) → s.fabric.pairDead.Pairwise (· < ·) → rising s.od = true →
    Completes (.pairNotice link w) s fun u =>
      u.liveBit j 0 = f.liveA ∧ u.liveBit j 1 = f.liveB ∧
      (∀ i m, m < 2 → i ≠ j → u.liveBit i m = s.liveBit i m) ∧
      (if s.liveBit j 0 = f.liveA ∧ s.liveBit j 1 = f.liveB then u = { s with fabric := u.fabric }
        else u.objField Row.noticeCount 4 4 = (s.objField Row.noticeCount 4 4 + 1) % 2 ^ 32) ∧
      u = { s with od := u.od, fabric := u.fabric, out := u.out })

/-! ## Module memory -/

/-- Module memory (R245, R248, R251, R254-R260, R262). -/
def Obligations.MemoryEvents : Prop :=
  (∀ s : State, s.mem.initActive = true → rising s.od = true →
    Completes .initDone s fun u =>
      u.mem = { s.mem with initLeft := 0, initActive := false, initTotal := 0, initMap := 0 } ∧ u.objBit Row.memStatus 0 = false ∧
      (∀ b, b ≠ 0 → u.objBit Row.memStatus b = s.objBit Row.memStatus b) ∧
      (∀ e, s.firmwareRuns = true → s.holding = false → tget s.eqs 0 = some e → e.full = false → e.lost = 0 → e.arm = false →
        Output.posted e.path (e.base.toNat + e.tail.toNat % 2 ^ e.log2 * 32)
          ((leBytes 32 (eventNat 0x0904 0 s.mem.initTotal 0 s.timer)).take 4) ∈ u.out) ∧
      ({ s with mem := u.mem }).onlyReported u) ∧
  (∀ s : State, s.mem.initActive = false → Completes .initDone s fun u => u = s) ∧
  (∀ (s : State) (a : Nat) (c : UeConsumer), s.firmwareRuns = true → s.mem.dir.length = 4 → rising s.od = true →
    Completes (.memUe a c) s fun u =>
      let ch := a / 256 % 96
      u.obj Row.ueTotal = (s.obj Row.ueTotal + 1) % 2 ^ 32 ∧
      u.obj Row.chUe ch = (s.obj Row.chUe ch + 1) % 2 ^ 32 ∧ u.obj Row.pkgUe (ch / 4) = (s.obj Row.pkgUe (ch / 4) + 1) % 2 ^ 32 ∧
      u.objBit Row.memStatus 5 = true ∧
      u.obj Row.ueLog = s.obj Row.ueLog / 2 ^ 128 +
        (a % 2 ^ 64 + s.mem.layout.partition a * 2 ^ 64 + s.timer % 2 ^ 32 * 2 ^ 96) * 2 ^ 8064 ∧
      (∀ n r, c = .region n → tget s.wq.regions n = some r → tget u.wq.regions n = some { r with poisoned := r.valid }) ∧
      (∀ q psn x, c = .atomicCache q psn → s.qp q = some x →
        (u.qp q).map (fun y => y.resp.cache) = some (x.resp.cache.filter fun e => e.1 != psn)) ∧
      (∀ q x, c = .qpContext q → s.qp q = some x → (u.qp q).map Qp.lost = some true) ∧
      (∀ r, c = .castCopy → s.mem.cast = some r → r.op = 1 → r.phase = .copying →
        u.mem.cast = none ∧ u.obj Row.castResult = 1 * 2 ^ 24 + 6 * 2 ^ 16 + r.slot * 2 ^ 8) ∧
      (∀ k r, c = .castRestoreOrMirror k → s.mem.cast = some r → r.slot = k.val → (r.op = 2 ∧ r.phase = .copying) ∨ r.phase = .mirroring →
        u.mem.cast = none ∧ (u.entry k.val).slotState = 4) ∧
      (c = .castDirectory true → u.mem.dir = List.replicate 4 CastEntry.empty) ∧
      ((∀ n k, c ≠ .collective n k) → (∀ k, c ≠ .castRestoreOrMirror k) → ∀ b, u.mem.byte b = s.mem.byte b) ∧
      u.mode = s.mode ∧ u.timer = s.timer) ∧
  (∀ (s : State) (a : Nat) (c : UeConsumer), s.firmwareRuns = false → Completes (.memUe a c) s fun u => u = s) ∧
  (∀ (s : State) (ch : Fin 96) (r : ScrubResult), s.firmwareRuns = true → s.mem.initActive = false →
    s.onBeat (32 + ch.val) 1380000 = true → s.mem.queues = [] → s.castWaits = false → rising s.od = true →
    Completes (.scrubRead ch r) s fun u =>
      let o := s.obj Row.chScrubOffset ch.val
      let a := (o * 96 + ch.val) * 256
      let v := u.serveChannels
      u.timer % 1380000 = 0 ∧ s.timer ≤ u.timer ∧ u.mem.queues = [(ch.val, [⟨6, a, .scrub r⟩])] ∧
      u = { s with timer := u.timer, ticks := u.ticks, od := u.od, mem := u.mem } ∧
      v.obj Row.chScrubOffset ch.val = (if o + 1 < 62500000 then o + 1 else 0) ∧ v.mem.queues = [] ∧
      (∀ pin, r = .corrected pin → v.obj Row.ceTotal = (s.obj Row.ceTotal + 1) % 2 ^ 64 ∧
        v.obj Row.chCe ch.val = (s.obj Row.chCe ch.val + 1) % 2 ^ 64 ∧
        v.objField Row.chDqCe (4 * pin.val) 4 ch.val = (s.objField Row.chDqCe (4 * pin.val) 4 ch.val + 1) % 2 ^ 32) ∧
      (r = .uncorrectable → v.obj Row.ueTotal = (s.obj Row.ueTotal + 1) % 2 ^ 32 ∧
        v.obj Row.chUe ch.val = (s.obj Row.chUe ch.val + 1) % 2 ^ 32 ∧
        v.obj Row.ueLog = s.obj Row.ueLog / 2 ^ 128 +
          (a % 2 ^ 64 + s.mem.layout.partition a * 2 ^ 64 + u.timer % 2 ^ 32 * 2 ^ 96) * 2 ^ 8064) ∧
      (∀ b, v.mem.byte b = s.mem.byte b) ∧ v.wq = s.wq ∧ v.mode = s.mode) ∧
  (∀ (s : State) (ch : Fin 96), s.mode = .hold → rising s.od = true →
    Completes (.channelIdle ch) s fun u =>
      ch.val ∈ u.mem.asleep ∧ u.objBit Row.memStatus 6 = true ∧ (∀ c, c ≠ ch.val → (c ∈ u.mem.asleep ↔ c ∈ s.mem.asleep)) ∧
      u = { s with mem := { s.mem with asleep := u.mem.asleep }, od := u.od }) ∧
  (∀ (s : State) (ch : Fin 96), s.mode ≠ .hold → Completes (.channelIdle ch) s fun u => u = s) ∧
  (∀ (s : State) (r : CastRun), s.mem.cast = some r → r.phase = .waiting → s.applyRunning = false →
    Completes .castCopyStart s fun u => u = { s with mem := { s.mem with cast := some { r with phase := .copying } } }) ∧
  (∀ (s : State) (r : CastRun) (crc : BitVec 32), s.mem.cast = some r → r.phase = .copying → r.op = 1 → r.slot < 4 →
    s.mem.dir.length = 4 → s.mem.wf = true → s.shares = 1 → rising s.od = true →
    Completes (.castCopyDone crc) s fun u =>
      let dst := s.slotAddr r.slot
      u.entry r.slot = { s.entry r.slot with slotState := 2, crc := crc.toNat, time := s.timer } ∧
      (∀ k, k ≠ r.slot → u.entry k = s.entry k) ∧
      (∀ i, i < r.extent * gib → u.mem.byte (dst + i) = s.mem.byte (s.mem.layout.base 2 * gib + i)) ∧
      (∀ b, b < dst ∨ dst + r.extent * gib ≤ b → u.mem.byte b = s.mem.byte b) ∧
      (if s.pairSt = 3 then u.mem.cast = some { r with phase := .mirroring }
        else u.mem.cast = none ∧ u.obj Row.castResult = 1 * 2 ^ 24 + r.slot * 2 ^ 8 ∧ u.objBit Row.memStatus 3 = false) ∧
      u.wq = s.wq ∧ u.mode = s.mode) ∧
  (∀ (s : State) (r : CastRun) (crc : BitVec 32), s.mem.cast = some r → r.phase = .copying → r.op = 2 → r.slot < 4 →
    s.mem.wf = true → s.shares = 1 → rising s.od = true →
    Completes (.restoreCopyDone crc) s fun u =>
      let dst := (s.mem.layout.base 2 + r.dest) * gib
      let ok := crc.toNat = (s.entry r.slot).crc
      u.mem.cast = none ∧ u.mem.dir = s.mem.dir ∧ u.objBit Row.memStatus 3 = false ∧
      (ok → u.objBit Row.memStatus 2 = false ∧ u.obj Row.castResult = 2 * 2 ^ 24 + r.slot * 2 ^ 8 ∧
        ∀ i, i < r.extent * gib → u.mem.byte (dst + i) = s.mem.byte (s.slotAddr r.slot + i)) ∧
      (¬ ok → u.obj Row.castResult = 2 * 2 ^ 24 + 7 * 2 ^ 16 + r.slot * 2 ^ 8 ∧
        ∀ i, i < r.extent * gib → u.mem.byte (dst + i) = Config.outsideByte s.freeCount i) ∧
      (∀ b, b < dst ∨ dst + r.extent * gib ≤ b → u.mem.byte b = s.mem.byte b) ∧ u.wq = s.wq ∧ u.mode = s.mode) ∧
  (∀ (s : State) (r : CastRun), s.mem.cast = some r → r.phase = .mirroring → r.slot < 4 → s.mem.dir.length = 4 → rising s.od = true →
    Completes .castMirrorDone s fun u =>
      u.entry r.slot = { s.entry r.slot with slotState := 3 } ∧ u.mem.cast = none ∧
      u.obj Row.castResult = 1 * 2 ^ 24 + r.slot * 2 ^ 8 ∧ u.objBit Row.memStatus 3 = false ∧
      (∀ b, u.mem.byte b = s.mem.byte b) ∧ u.wq = s.wq ∧ u.mode = s.mode)

/-! ## Collectives -/

/-- Packets of collectives (R275, R278, R281-R285, R289, R339). -/
def Obligations.CollectivePackets : Prop :=
  (∀ (s : State) (a : Arrival) (q c : Nat) (x : Qp) (m : Comm), s.carries a 0x11 q x = true →
    x.awaitsColl (arriveAs a 0x11).pkt = true → x.comm = some c → s.comm c = some m → s.pairSt ≠ 3 →
    (preParse a.pkt.payload).type ≤ 1 → m.seqSt (preParse a.pkt.payload).seq = .future → rising s.od = true →
    Completes (.pktCollPreamble a) s fun u =>
      let r := s.rankOf q m
      let full := 2 ≤ (m.early.filter fun n => n.rank == r && match m.seqSt n.seq with
        | .live y => y.st == .queued || y.st == .counts
        | _ => true).length
      (¬ full → u.comm c = some { m with early := m.early ++ [{ preParse a.pkt.payload with rank := r }] } ∧
        (u.qp q).map (fun y => y.resp.e) = some (x.resp.e + 1)) ∧
      (full → u.comm c = some m ∧ (u.qp q).map (fun y => y.resp.e) = some x.resp.e ∧
        u.obj Row.parkFullSent = (s.obj Row.parkFullSent + 1) % 2 ^ 64) ∧
      (∀ d, d ≠ c → u.comm d = s.comm d) ∧ u.mem = s.mem ∧ u.out = s.out) ∧
  (∀ (s : State) (a : Arrival) (q c : Nat) (x : Qp) (m : Comm) (y : Coll), s.carries a 0x11 q x = true →
    x.awaitsColl (arriveAs a 0x11).pkt = true → x.comm = some c → s.comm c = some m → s.pairSt ≠ 3 →
    (preParse a.pkt.payload).type = 1 → m.seqSt (preParse a.pkt.payload).seq = .live y → m.coll y.k = some y →
    m.submit ≠ some q → (∀ r, r < m.n → Comm.connQp s m r = q → r = s.rankOf q m) →
    Completes (.pktCollPreamble a) s fun u =>
      u.coll c y.k = none ∧ (∀ k, k ≠ y.k → u.coll c k = s.coll c k) ∧ (∀ d, d ≠ c → u.comm d = s.comm d) ∧
      u.colls.chunks = s.colls.chunks + y.chunks ∧ (u.qp q).map (fun z => z.resp.e) = some (x.resp.e + 1)) ∧
  (∀ (s : State) (a : Arrival) (q c : Nat) (x : Qp) (m : Comm) (rau : Option RauFault), s.carries a 0x10 q x = true →
    x.awaitsColl (arriveAs a 0x10).pkt = true → x.comm = some c → s.comm c = some m → s.pairSt ≠ 3 →
    a.pkt.key.toNat = m.epoch → a.pkt.aux.toNat % 16 ≤ 1 → m.seqSt (a.pkt.aux.toNat / 65536) = .future →
    (slice a.pkt.payload 0 a.pkt.payloadLen.toNat).length ≤ m.ovfFree → rising s.od = true →
    Completes (.pktCollData a rau) s fun u =>
      let b := slice a.pkt.payload 0 a.pkt.payloadLen.toNat
      let t := if a.pkt.aux.toNat % 16 = 1 then 4096 else a.pkt.aux.toNat / 16 % 4096
      u.comm c = some { m with
        ahead := m.ahead ++ [(a.pkt.aux.toNat / 65536, ⟨s.rankOf q m, t, a.pkt.remoteAddr.toNat, b, true⟩)]
        ovfUsed := m.ovfUsed + b.length } ∧
      u.obj Row.overflowBytes = (s.obj Row.overflowBytes + b.length) % 2 ^ 64 ∧
      (u.qp q).map (fun y => y.resp.e) = some (x.resp.e + 1) ∧ (∀ d, d ≠ c → u.comm d = s.comm d) ∧
      (∀ b, u.mem.byte b = s.mem.byte b) ∧ u.out = s.out) ∧
  (∀ (s : State) (a : Arrival) (q c : Nat) (x : Qp) (m : Comm) (rau : Option RauFault), s.carries a 0x10 q x = true →
    x.awaitsColl (arriveAs a 0x10).pkt = true → x.comm = some c → s.comm c = some m → s.pairSt ≠ 3 → rising s.od = true →
    a.pkt.key.toNat ≠ m.epoch ∨ (a.pkt.aux.toNat % 16 ≤ 1 ∧ m.seqSt (a.pkt.aux.toNat / 65536) = .ended) →
    Completes (.pktCollData a rau) s fun u =>
      (a.pkt.key.toNat ≠ m.epoch → u.obj Row.staleEpochDrop = (s.obj Row.staleEpochDrop + 1) % 2 ^ 64 ∧
        (u.qp q).map (fun y => y.resp.e) = some x.resp.e) ∧
      (a.pkt.key.toNat = m.epoch → u.obj Row.collLateDrop = (s.obj Row.collLateDrop + 1) % 2 ^ 64 ∧
        (u.qp q).map (fun y => y.resp.e) = some (x.resp.e + 1)) ∧
      u.colls = s.colls ∧ u.mem = s.mem ∧ u.out = s.out) ∧
  (∀ (s : State) (a : Arrival) (q c lo : Nat) (x : Qp) (m : Comm) (y : Coll) (t : CStep) (bs : List Byte) (rau : Option RauFault),
    s.carries a 0x10 q x = true → x.awaitsColl (arriveAs a 0x10).pkt = true → x.comm = some c → s.comm c = some m → s.pairSt ≠ 3 →
    a.pkt.key.toNat = m.epoch → a.pkt.aux.toNat % 16 = 0 → m.seqSt (a.pkt.aux.toNat / 65536) = .live y → m.coll y.k = some y →
    y.st = .data → y.begun = true → (s.collPlan m y).1[y.pos]? = some t →
    t.src = some (s.rankOf q m) → t.num % 4096 = a.pkt.aux.toNat / 16 % 4096 →
    bs = slice a.pkt.payload 0 a.pkt.payloadLen.toNat → a.pkt.remoteAddr.toNat % recBytes y.fmt = 0 →
    bs.length % recBytes y.fmt = 0 → a.pkt.remoteAddr.toNat + bs.length ≤ rangesLen y.fmt (y.recvRanges m.n t) →
    placeIn y.fmt (y.recvRanges m.n t) a.pkt.remoteAddr.toNat bs = [(lo, bs)] →
    y.got + bs.length < rangesLen y.fmt (y.recvRanges m.n t) → (y.early.all fun w => !w.for_ t) = true →
    (y.atApply (s.collPlan m y).2) = false → (y.kind = 9 → y.fmt = s.qFmt m.func y.sqe) →
    s.collPathsUp y = true → s.collKeysOk m.func m.n m.rank y = true →
    Completes (.pktCollData a rau) s fun u =>
      let w : Waiting := ⟨s.rankOf q m, a.pkt.aux.toNat / 16 % 4096, a.pkt.remoteAddr.toNat, bs, false⟩
      let elems := min (bs.length / recBytes y.fmt * recElems y.fmt) (y.count - lo)
      let us := draws (drawKey (s.bindRec m.func y.sqe.schedId.toNat) m.rank t.level 0 t.k) lo elems
      let sums := List.zipWith (redop y.redop) (readElems y.fmt y.data lo (lo + elems)) ((decodeVec y.fmt bs).take elems)
      (u.coll c y.k).map (fun z => (z.pos, z.st, z.fmt)) = some (y.pos, .data, y.fmt) ∧
      (t.combine = false ∨ rau = none → (u.coll c y.k).map (fun z => (z.got, z.disputed)) = some (y.got + bs.length, y.disputed)) ∧
      (t.combine = true → rau = none → (u.coll c y.k).map Coll.data =
        some (putRecords y.fmt y.data lo (encodeVec y.fmt (m.level t.level).round us sums).1)) ∧
      (t.combine = false → (u.coll c y.k).map Coll.data =
        some (if y.kind = 6 ∨ y.kind = 7 then y.data else putRecords y.fmt y.data lo bs)) ∧
      (∀ f, rau = some f → t.combine = true →
        (u.coll c y.k).map (fun z => (z.got, z.data, z.disputed)) = some (y.got, y.data, y.disputed ++ [(w, f.unit.val)])) ∧
      (u.qp q).map (fun z => z.resp.e) = some (x.resp.e + 1) ∧ (∀ d, d ≠ c → u.comm d = s.comm d) ∧
      ∀ b, u.mem.byte b = s.mem.byte b)

/-- The life of a collective (R274, R287, R324-R326). -/
def Obligations.CollectiveTimers : Prop :=
  (∀ (s : State) (c k : Nat) (inputs : List (List Byte)) (m : Comm) (y : Coll), s.comm c = some m → m.coll k = some y →
    y.st = .queued → s.bindBusy m y = false → s.shardBusy m y = false → s.chunkTurn m y = true → (y.kind ≠ 7 ∨ m.n = 1) →
    s.schedOk m y = true → y.vecOk m.n = true → s.bindingOk m y = true → s.applyOk m y = true →
    s.collKeysOk m.func m.n m.rank y = true →
    Completes (.collLeaveQueued c k inputs) s fun u =>
      ∃ t : State, u = t.runRound c k ∧ t.colls.chunks = s.colls.chunks - s.chunkNeed m y ∧
        t.coll c k = some { y with
          chunks := s.chunkNeed m y, staged := s.stages m y, lastMove := s.timer
          inputs := inputs.map (toRecords y.dtype (y.inElems m.n m.rank)), st := .preamble } ∧
        (∀ d, d ≠ c → t.comm d = s.comm d) ∧ (∀ a, t.mem.byte a = s.mem.byte a) ∧
        t = { s with colls := t.colls, mem := t.mem, od := t.od }) ∧
  (∀ (s : State) (c k : Nat) (inputs : List (List Byte)) (m : Comm) (y : Coll), s.comm c = some m → m.coll k = some y →
    (y.st ≠ .queued ∨ s.bindBusy m y = true ∨ s.shardBusy m y = true ∨ s.chunkTurn m y = false) →
    Completes (.collLeaveQueued c k inputs) s fun u => u = s) ∧
  (∀ (s : State) (c k : Nat) (m : Comm) (y : Coll), s.comm c = some m → m.coll k = some y →
    Completes (.collSlow c k) s fun u =>
      if y.st = .queued then u = s
      else
        u.timer = max s.timer (roundUp (y.lastMove + (y.slow + 1) * s.obj Row.progressTimer * 1000000) 1000000) ∧
        u.coll c k = some { y with slow := y.slow + 1 } ∧
        (∀ e, s.firmwareRuns = true → s.holding = false → tget s.eqs m.func = some e → e.full = false → e.lost = 0 → e.arm = false →
          Output.posted e.path (e.base.toNat + e.tail.toNat % 2 ^ e.log2 * 32)
            ((leBytes 32 (eventNat 0x0701 m.number (y.seq + s.stepNumber m y % 65536 * 65536) (s.awaited m y) u.timer)).take 4) ∈ u.out) ∧
        ({ s with timer := u.timer, colls := u.colls }).onlyReported u) ∧
  (∀ (s : State) (c k : Nat) (m : Comm) (y : Coll), s.comm c = some m → m.coll k = some y → rising s.od = true →
    Completes (.collTimeout c k) s fun u =>
      u.timer = max s.timer (roundUp (y.since + s.obj Row.collTimeout * 1000000) 1000000) ∧
      u.coll c k = none ∧ (∀ j, j ≠ k → u.coll c j = s.coll c j) ∧ (∀ d, d ≠ c → u.comm d = s.comm d) ∧
      u.colls.chunks = s.colls.chunks + y.chunks ∧
      u.objField Row.collEnded 20 4 = (s.objField Row.collEnded 20 4 + 1) % 2 ^ 32 ∧ u.mem = s.mem ∧ u.mode = s.mode) ∧
  (∀ (s : State) (c k : Nat) (m : Comm) (y : Coll) (kn : Kernel) (h : Shard), s.comm c = some m → m.coll k = some y →
    s.kernel m.func (kernelId y.sqe) = some kn → s.shard m.func (shardId y.sqe) = some h → s.mem.wf = true →
    Completes (.applyBegin c k) s fun u =>
      if s.applyReady m y = true ∧ s.applyHeld = false then
        let t := leField (s.stateRead m.func h.record 64) 24 8
        s.wroteMem u (s.stateAddr m.func h.record) (h.recBytes t 1) ∧
        u.coll c k = some { y with
          st := .apply, committed := true, lastMove := s.timer
          apply := some ⟨startScalars kn y.scalars (t + 1), t + 1, h.groupOrder y.finals, [], blankVec h.qFmt h.length⟩ } ∧
        (∀ d, d ≠ c → u.comm d = s.comm d) ∧ u = { s with mem := u.mem, colls := u.colls, od := u.od }
      else u = s) ∧
  (∀ (s : State) (c k group : Nat) (m : Comm) (y : Coll) (kn : Kernel) (h : Shard) (a : ApplyRun), s.comm c = some m →
    m.coll k = some y → s.kernel m.func (kernelId y.sqe) = some kn → s.shard m.func (shardId y.sqe) = some h →
    y.apply = some a → s.groupDue c k group = true → s.collKeysOk m.func m.n m.rank y = true → y.kind = 9 →
    s.mem.wf = true → rising s.od = true →
    Completes (.applyGroup c k group none) s fun u =>
      let lo := group * 32
      let n := min 32 (h.length - lo)
      let g := (readElems y.fmt y.data (h.first + lo) (h.first + lo + n)).map rnd32
      let outs := (List.range n).map fun i => applyElement kn a.scalars (g.getD i 0) ((s.streamValues m.func h 1 lo n).getD i 0)
        ((s.streamValues m.func h 2 lo n).getD i 0) ((s.streamValues m.func h 3 lo n).getD i 0)
      (u.coll c k).bind Coll.apply = some { a with
        done := a.done ++ [group], q := putRecords h.qFmt a.q lo (encodeVec h.qFmt kn.round [] (storedTo outs 4)).1 } ∧
      u.obj Row.applyGroups = (s.obj Row.applyGroups + 1) % 2 ^ 64 ∧
      ((∀ k, 1 ≤ k → k ≤ 3 → kn.writes.testBit k = false ∨ h.fmt k = 0) → ∀ b, u.mem.byte b = s.mem.byte b) ∧
      (kn.writes.testBit 1 = true → kn.writes.testBit 2 = false → kn.writes.testBit 3 = false → h.pFmt ≠ 0 →
        s.wroteMem u (s.stateAddr m.func (h.stream 1 + lo * streamElem h.pFmt)) (encodeVec h.pFmt kn.round [] (storedTo outs 1)).1) ∧
      (∀ d, d ≠ c → u.comm d = s.comm d) ∧ u.mode = s.mode ∧ u.timer = s.timer) ∧
  (∀ (s : State) (c k group : Nat) (f : RauFault), s.groupDue c k group = true →
    Completes (.applyGroup c k group (some f)) s fun u =>
      (u.coll c k).map Coll.disputed =
        (s.coll c k).map (fun y => y.disputed ++ [(⟨0xFFFFFFFF, group, 0, [], false⟩, f.unit.val)]) ∧
      (u.coll c k).bind Coll.apply = (s.coll c k).bind Coll.apply ∧ u = { s with colls := u.colls }) ∧
  (∀ (s : State) (c k group : Nat) (rau : Option RauFault), s.groupDue c k group = false →
    Completes (.applyGroup c k group rau) s fun u => u = s) ∧
  (∀ (s : State) (c k : Nat) (m : Comm) (y : Coll) (h : Shard) (a : ApplyRun), s.comm c = some m → m.coll k = some y →
    s.shard m.func (shardId y.sqe) = some h → y.apply = some a → y.st = .apply → s.mem.wf = true → rising s.od = true →
    Completes (.applyPhaseEnd c k) s fun u =>
      if a.done.length < h.groups then u = s
      else ∃ t : State, u = t.runColl c k ∧ s.wroteMem t (s.stateAddr m.func h.record) (h.recBytes a.t 0) ∧
        t.obj Row.applyPhases = (s.obj Row.applyPhases + 1) % 2 ^ 64 ∧
        t.coll c k = some { y with
          st := .data, fmt := h.qFmt, lastMove := s.timer, slow := 0, apply := none
          data := putRecords h.qFmt (blankVec h.qFmt y.count) h.first a.q } ∧
        t = { s with mem := t.mem, od := t.od, colls := t.colls })

/-! ## Arithmetic integrity -/

/-- Verdicts, patina records, rotation (R339-R352). -/
def Obligations.ArithmeticIntegrity : Prop :=
  (∀ (s : State) (u : Fin 68) (r : Nat) (ls : List ArbLane) (i : IssueInfo), s.reliab.arbs = [⟨u.val, some r, none⟩] →
    s.disputesOf u.val = [] → worstVerdict i.format.toNat ls = 0 → s.obj Row.rauSuspect u.val + 1 < min 256 (s.obj Row.suspectLimit) →
    rising s.od = true →
    Completes (.arbitrationVerdict u ls true i) s fun t =>
      t.objField Row.verdicts 0 4 = (s.objField Row.verdicts 0 4 + 1) % 2 ^ 32 ∧
      t.obj Row.rauSuspect u.val = s.obj Row.rauSuspect u.val + 1 ∧ (∀ w, w < 68 → t.role w = s.role w) ∧ t.reliab.arbs = [] ∧
      t.reliab.jobs.map RecordJob.cause = s.reliab.jobs.map RecordJob.cause ++ [2] ∧ t.colls = s.colls ∧ t.mem = s.mem) ∧
  (∀ (s : State) (u : Fin 68) (r : Nat) (ls : List ArbLane) (i : IssueInfo), s.reliab.arbs = [⟨u.val, some r, none⟩] →
    s.disputesOf u.val = [] → worstVerdict i.format.toNat ls = 1 → r < 68 → r ≠ u.val → rising s.od = true →
    Completes (.arbitrationVerdict u ls true i) s fun t =>
      t.objField Row.verdicts 4 4 = (s.objField Row.verdicts 4 4 + 1) % 2 ^ 32 ∧
      t.role u.val = 2 ∧ t.obj Row.rauLogical u.val = 0xFF ∧ t.reliab.arbs = [] ∧
      (s.role r = 1 → s.obj Row.rauLogical u.val ≠ 0xFF → t.role r = 0 ∧ t.obj Row.rauLogical r = s.obj Row.rauLogical u.val) ∧
      t.reliab.jobs.map RecordJob.cause = s.reliab.jobs.map RecordJob.cause ++ [1] ∧ t.colls = s.colls ∧ t.mem = s.mem) ∧
  (∀ (s : State) (u : Fin 68) (r : Nat) (ls : List ArbLane) (i : IssueInfo), s.reliab.arbs = [⟨u.val, some r, none⟩] →
    s.disputesOf u.val = [] → 2 ≤ worstVerdict i.format.toNat ls → r < 68 → r ≠ u.val → s.role r ≤ 1 → rising s.od = true →
    Completes (.arbitrationVerdict u ls true i) s fun t =>
      t.objField Row.verdicts 8 4 = (s.objField Row.verdicts 8 4 + 1) % 2 ^ 32 ∧
      t.role u.val = 2 ∧ t.obj Row.rauLogical u.val = 0xFF ∧ t.role r = 3 ∧ t.reliab.arbs = [] ∧
      t.reliab.waiting = s.reliab.waiting ++ [r] ∧
      (s.firmwareServes = true → t.alert = true ∧ (s.latched = false → t.obj Row.reason = 0x08050001)) ∧
      t.reliab.jobs.map RecordJob.cause = s.reliab.jobs.map RecordJob.cause ++ [3] ∧ t.colls = s.colls ∧ t.mem = s.mem) ∧
  (∀ (s : State) (u : Fin 68) (r v : Nat) (ls : List ArbLane) (i : IssueInfo), s.reliab.arbs = [⟨u.val, some r, none⟩] →
    ((List.range 68).find? fun w => s.role w == 1 && !s.underScan w && w != r && w != u.val) = some v → r ≠ u.val →
    rising s.od = true →
    Completes (.arbitrationVerdict u ls false i) s fun t =>
      t.reliab.arbs = [⟨u.val, some v, some r⟩, ⟨r, some v, none⟩] ∧
      t.obj Row.residueMismatch = (s.obj Row.residueMismatch + ls.length) % 2 ^ 64 ∧
      t.obj Row.rauMismatch r = (s.obj Row.rauMismatch r + 1) % 2 ^ 32 ∧
      t = { s with od := t.od, reliab := { s.reliab with arbs := t.reliab.arbs } }) ∧
  (∀ (s : State) (u : Fin 68) (ls : List ArbLane) (ok : Bool) (i : IssueInfo),
    (s.reliab.arbs.any fun a => a.unit == u.val && a.replay.isSome) = false →
    Completes (.arbitrationVerdict u ls ok i) s fun t => t = s) ∧
  (∀ (s : State) (j : RecordJob) (js : List RecordJob), s.reliab.jobs = j :: js → rising s.flash.records = true → rising s.od = true →
    Completes .patinaWritten s fun u =>
      let id := s.flash.nextRecord
      u.reliab.jobs = js ∧ u.flash.nextRecord = (id + 1) % 2 ^ 32 ∧
      (∃ b k, tget u.flash.records id = some b ∧ b = stampRecord j.body id k ∧ (j.pattern = none → k = none)) ∧
      (s.flash.records.length < 4096 → ∀ n, n ≠ id → tget u.flash.records n = tget s.flash.records n) ∧
      (s.flash.records.length = 4096 → s.recordOldest ≠ id → tget u.flash.records s.recordOldest = none) ∧
      (s.flash.records.length = 4096 → s.obj Row.recordExported < s.recordOldest →
        u.obj Row.recordLost = (s.obj Row.recordLost + 1) % 2 ^ 32) ∧
      (∀ p, j.pattern = some p → s.flash.patterns.length < 4096 →
        u.flash.patterns = if s.flash.patterns.any p.same then s.flash.patterns
          else s.flash.patterns ++ [{ p with sourceRecord := id, sourceSerial := Config.serial.take 12 }]) ∧
      (j.pattern = none → u.flash.patterns = s.flash.patterns) ∧ u.mem = s.mem ∧ u.timer = s.timer) ∧
  (∀ s : State, s.reliab.jobs = [] → Completes .patinaWritten s fun u => u = s) ∧
  (∀ (s : State) (w : Nat), s.obj Row.rotateInterval ≠ 0 → s.onBeat 10 (s.obj Row.rotateInterval * 1000000000) = true →
    s.reliab.scan = none → s.firmwareRuns = true → s.nextTurn = some w → rising s.od = true →
    Completes .rotateTurn s fun u =>
      u.timer % (s.obj Row.rotateInterval * 1000000000) = 0 ∧
      (s.role w = 1 → u.role w = 1 ∧ u.reliab.scan = some (w, true)) ∧
      (∀ v v' l, s.role w = 0 → s.freeSpares = v :: v' :: l →
        u.role w = 3 ∧ u.obj Row.rauLogical w = 0xFF ∧ u.role v = 0 ∧ u.obj Row.rauLogical v = s.obj Row.rauLogical w ∧
        u.reliab.scan = some (w, true) ∧ u.reliab.nextUnit = (w + 1) % 68) ∧
      (s.role w = 0 → s.freeSpares.length < 2 → u.obj Row.rotationSkipped = (s.obj Row.rotationSkipped + 1) % 2 ^ 32 ∧
        u.reliab = s.reliab ∧ u.role w = 0) ∧
      u = { s with timer := u.timer, ticks := u.ticks, od := u.od, reliab := u.reliab }) ∧
  (∀ s : State, s.obj Row.rotateInterval = 0 → Completes .rotateTurn s fun u => u = s) ∧
  (∀ (s : State) (n : Fin 68), s.underScan n.val = true → rising s.od = true →
    Completes (.rotationScanDone n true none) s fun u =>
      u.reliab.scan = none ∧ u.obj Row.rotations = (s.obj Row.rotations + 1) % 2 ^ 32 ∧
      u.obj Row.rauLastScan n.val = s.timer ∧ u.role n.val = (if s.role n.val = 3 then 1 else s.role n.val) ∧
      u.obj Row.patternRuns = (s.obj Row.patternRuns + s.flash.patterns.length) % 2 ^ 64 ∧
      (∀ w, w < 68 → w ≠ n.val → u.role w = s.role w) ∧ u.reliab.jobs = s.reliab.jobs ∧ u.mem = s.mem ∧ u.timer = s.timer) ∧
  (∀ (s : State) (n : Fin 68) (ok : Bool) (failed : Option Nat), s.underScan n.val = true → (ok = false ∨ failed ≠ none) →
    rising s.od = true →
    Completes (.rotationScanDone n ok failed) s fun u =>
      u.reliab.scan = none ∧ u.obj Row.scanFailCount = (s.obj Row.scanFailCount + 1) % 2 ^ 32 ∧ u.role n.val = 2 ∧
      u.obj Row.rauLogical n.val = 0xFF ∧
      u.reliab.jobs.map RecordJob.cause = s.reliab.jobs.map RecordJob.cause ++ [if ok then 6 else 5] ∧ u.mem = s.mem) ∧
  (∀ (s : State) (n : Fin 68), s.underScan n.val = false → s.reliab.waiting.contains n.val = true → rising s.od = true →
    Completes (.rotationScanDone n true none) s fun u =>
      u.reliab.waiting = s.reliab.waiting.erase n.val ∧ u.reliab.scan = s.reliab.scan ∧
      u.role n.val = (if s.role n.val = 3 then 1 else s.role n.val) ∧ u.mem = s.mem) ∧
  (∀ (s : State) (n : Fin 68) (ok : Bool) (failed : Option Nat), s.underScan n.val = false →
    s.reliab.waiting.contains n.val = false → Completes (.rotationScanDone n ok failed) s fun u => u = s)

/-! ## Twins -/

/-- Twins (R258, R357-R378). -/
def Obligations.Twins : Prop :=
  (∀ s : State, s.enabled 11 = true → s.twin.stopped = false → s.obj Row.heartbeatInterval ≠ 0 →
    s.onBeat 9 (s.obj Row.heartbeatInterval) = true →
    Completes .heartbeatTimer s fun u =>
      u.timer % s.obj Row.heartbeatInterval = 0 ∧
      u.twin.queue = s.twin.queue ++ (([4, 5] : List Nat).filter s.portUp).map (fun l =>
        (⟨1, 7, some l, s.graftPacket 0x40 (heartbeatBytes s.heartbeatNow)⟩ : GraftFrame)) ∧
      u = { s with timer := u.timer, ticks := u.ticks, twin := { s.twin with queue := u.twin.queue, ackDue := 0 } }) ∧
  (∀ s : State, s.enabled 11 = false ∨ s.twin.stopped = true →
    Completes .heartbeatTimer s fun u => u = { s with timer := u.timer, ticks := u.ticks }) ∧
  (∀ (s : State) (k : Fin 2) (h : Heartbeat), s.enabled 11 = true → (s.twin.unacked.any fun r => r.rseq == h.rseqAck) = false →
    s.mode = .operational → s.pairSt = 3 → h.moduleState = 4 → h.pairState ≠ 5 →
    Completes (.heartbeat k h) s fun u => u = { s with twin := { s.twin with partner := some h, heardAt := s.timer } }) ∧
  (∀ (s : State) (k : Fin 2) (h : Heartbeat), s.enabled 11 = true → s.twin.unacked = [] → s.mode = .operational → s.pairSt = 1 →
    h.hello = true → s.helloFault h = 0 → s.holdsObjects = false → h.holdsObjects = false → h.pairState ≠ 4 →
    rising s.od = true → rising s.blobs = true →
    Completes (.heartbeat k h) s fun u =>
      u.pairSt = 3 ∧ u.blob Row.partnerSerial = h.serial ∧ u.twin.hello = some h ∧ u.twin.partner = some h ∧
      u.twin.heardAt = s.timer ∧ u.twin.unacked = [] ∧ u.twin.held = [] ∧ u.wq = s.wq ∧ u.mem = s.mem ∧ u.timer = s.timer) ∧
  (∀ (s : State) (k : Fin 2) (h : Heartbeat), s.enabled 11 = true → s.twin.unacked = [] → s.mode = .operational →
    (s.pairSt = 1 ∨ s.pairSt = 4) → h.hello = true → s.helloFault h ≠ 0 → rising s.od = true →
    Completes (.heartbeat k h) s fun u =>
      u.obj Row.pairFault = s.helloFault h ∧ u.pairSt = s.pairSt ∧ s.helloFault h ∈ u.twin.refused ∧ u.twin.hello = s.twin.hello ∧
      u.twin.failures = s.twin.failures + 1 ∧ u.wq = s.wq ∧ u.mem = s.mem) ∧
  (∀ (s : State) (k : Fin 2) (h : Heartbeat), s.enabled 11 = true → s.twin.unacked = [] → s.mode = .operational → s.pairSt = 3 →
    (h.moduleState = 5 ∨ h.moduleState = 6) → rising s.od = true →
    Completes (.heartbeat k h) s fun u =>
      u.pairSt = 4 ∧ u.obj Row.takeovers = (s.obj Row.takeovers + 1) % 2 ^ 32 ∧ u.twin.held = [] ∧ u.twin.partner = some h ∧
      u.mode = s.mode ∧ u.timer = s.timer) ∧
  (∀ (s : State) (k : Fin 2) (h : Heartbeat), s.enabled 11 = false → Completes (.heartbeat k h) s fun u => u = s) ∧
  (∀ (s : State) (h : Heartbeat), s.twin.partner = some h → s.enabled 11 = true → s.mode = .operational → rising s.od = true →
    Completes .partnerLossTimeout s fun u =>
      u.timer = max s.timer (s.twin.heardAt + s.obj Row.lossMisses * s.obj Row.heartbeatInterval) ∧
      (s.pairSt = 3 → u.pairSt = 4 ∧ u.obj Row.takeovers = (s.obj Row.takeovers + 1) % 2 ^ 32 ∧ u.twin.unacked = [] ∧
        u.twin.toSend = [] ∧ u.twin.held = []) ∧
      (s.pairSt = 2 → u.pairSt = (if s.twin.source then 4 else 1) ∧ u.twin.held = []) ∧
      (s.pairSt ≠ 2 → s.pairSt ≠ 3 → u = { s with timer := u.timer })) ∧
  (∀ s : State, s.twin.partner = none ∨ s.enabled 11 = false → Completes .partnerLossTimeout s fun u => u = s) ∧
  (∀ (s : State) (k : Fin 2) (r : MirrorRecord), s.takesRecords = true → s.twin.beyond = [] → s.twin.ackDue < 15 →
    Completes (.records k [r]) s fun u =>
      let next := (s.twin.rseqIn + 1) % 2 ^ 32
      (r.rseq.toNat = next → u.twin.rseqIn = next ∧ u.twin.ackDue = s.twin.ackDue + 1 ∧ u.twin.beyond = [] ∧
        tget u.twin.shadows r.qpn.toNat = some ((s.shadowOf r.qpn.toNat).apply r) ∧
        (∀ q, q ≠ r.qpn.toNat → tget u.twin.shadows q = tget s.twin.shadows q)) ∧
      (rseqLe r.rseq.toNat s.twin.rseqIn = true → u = s) ∧
      (r.rseq.toNat ≠ next → rseqLe r.rseq.toNat s.twin.rseqIn = false →
        u = { s with twin := { s.twin with beyond := [r] } }) ∧ u.mem = s.mem ∧ u.out = s.out) ∧
  (∀ (s : State) (k : Fin 2) (rs : List MirrorRecord), s.takesRecords = false → Completes (.records k rs) s fun u => u = s) ∧
  (∀ (s : State) (r : MirrorRecord) (p : QPkt) (x : Qp), s.twin.unacked = [r] → s.twin.held = [(r.rseq.toNat, .post p)] →
    s.wq.cqWait = [] → rising s.wq.qps = true → s.qp r.qpn.toNat = some x →
    ahead x.sq.own r.sqRetire ≤ ahead x.sq.own x.sq.h →
    Completes (.recordAck r.rseq) s fun u =>
      u.twin = { s.twin with unacked := [], held := [] } ∧ u.wq.outbox = s.wq.outbox ++ [p] ∧
      ((u.qp r.qpn.toNat).map fun y => y.sq.own) = some r.sqRetire ∧ u.mem = s.mem ∧ u.od = s.od ∧ u.timer = s.timer) ∧
  (∀ (s : State) (n : BitVec 32), (s.twin.unacked.any fun r => r.rseq == n) = false → Completes (.recordAck n) s fun u => u = s) ∧
  (∀ (s : State) (number func : Nat) (c : SyncQp), s.pairSt = 2 → s.twin.source = false → rising s.od = true →
    Completes (.bulk (.sync 1 number func true (some c))) s fun u =>
      u.twin.mismatch = false ∧ tget u.twin.shadows (s.global totalQps func number) = some (shadowOfCopy c) ∧
      (∀ x, s.qp (s.global totalQps func number) = some x → x.tokens = true → rising s.wq.qps = true →
        ((u.qp (s.global totalQps func number)).map Qp.history) = some c.tokens) ∧
      u.obj Row.syncProgress = (s.obj Row.syncProgress + 1) % 2 ^ 32 ∧ u.mem = s.mem ∧ u.out = s.out) ∧
  (∀ (s : State) (kind : Byte) (number func : Nat) (c : Option SyncQp), s.pairSt = 2 → s.twin.source = false →
    Completes (.bulk (.sync kind number func false c)) s fun u =>
      u.twin = { s.twin with mismatch := true } ∧ u.wq = s.wq ∧ u.mem = s.mem) ∧
  (∀ (s : State) (off : Nat) (bytes : List Byte) (last : Option CastTail), s.mem.paired = true → s.enabled 11 = true →
    s.mem.dir.length = 4 → s.mem.wf = true → s.receivingSlot < 4 → 2 ≤ s.receivingSlot →
    off + bytes.length ≤ s.slotQuarters * gib / 4 →
    Completes (.bulk (.cast off bytes last)) s fun u =>
      let k := s.receivingSlot
      s.wroteMem u (s.slotAddr k + off) bytes ∧
      (last = none → u.twin.receiving = some k ∧ (s.twin.receiving = none → (u.entry k).slotState = 1)) ∧
      (∀ t, last = some t → u.twin.receiving = none ∧ (u.entry k).slotState = (if t.crcOk then 5 else 4) ∧
        (t.crcOk = true → u.entry k = ⟨5, true, t.gen.toNat, t.step.toNat, t.extent.toNat, t.crc.toNat, t.time.toNat⟩ ∧
          (u.entry (5 - k)).latest = false)) ∧
      u.entry 0 = s.entry 0 ∧ u.entry 1 = s.entry 1 ∧ u.wq = s.wq ∧ u.od = s.od) ∧
  (∀ (s : State) (a : Arrival), s.forwardTarget a.pkt = none → s.toForwardHome a.pkt = false →
    Completes (.graftForwardRx a) s fun u => u = s.receive a none) ∧
  (∀ (s : State) (a : Arrival), s.holding = true → rising s.od = true →
    Completes (.graftForwardRx a) s fun u =>
      u.obj Row.holdDrop = (s.obj Row.holdDrop + 1) % 2 ^ 64 ∧ u = { s with od := u.od }) ∧
  (∀ s : State, Completes .yieldWriteDiscard s fun u =>
    (s.twin.stopped = false → u = s) ∧
    (s.twin.stopped = true → u = { s with wq := { s.wq with cqWait := s.wq.cqWait.filter fun w => !((s.qp w.qpn).any Qp.mirrorable) } })) ∧
  (∀ (s : State) (h : Heartbeat), s.twin.hello = some h → s.pairSt = 2 → s.twin.mismatch = false → s.twin.source = true →
    rising s.od = true → rising s.blobs = true →
    Completes .pairSyncDone s fun u =>
      u.pairSt = 3 ∧ u.blob Row.partnerSerial = h.serial ∧ u.twin.source = false ∧ u.wq = s.wq ∧ u.mem = s.mem ∧ u.timer = s.timer) ∧
  (∀ (s : State) (h : Heartbeat), s.twin.hello = some h → s.pairSt = 2 → s.twin.mismatch = false → s.twin.source = false →
    rising s.od = true →
    Completes .pairSyncDone s fun u =>
      u.pairSt = 3 ∧ (∀ j m, s.pairPlace = some (j, m) → s.twin.position - 1 = 0 ∨ s.twin.position - 1 = 1 →
        s.fabric.pairDead.Pairwise (· < ·) → u.liveBit j (s.twin.position - 1) = true) ∧ u.mem = s.mem ∧ u.timer = s.timer) ∧
  (∀ s : State, s.twin.hello = none ∨ s.pairSt ≠ 2 ∨ s.twin.mismatch = true → Completes .pairSyncDone s fun u => u = s)

/-! ## Security -/

/-- SPDM, IDE and key rollover (R401-R406, R418, R420). -/
def Obligations.SecurityCommands : Prop :=
  (∀ (s : State) (v : Via) (n : BitVec 256) (i : Byte) (c : Instr) (r : SpdmResp), 1 ≤ i.toNat → i.toNat ≤ 5 →
    (c, r) ∈ [(Instr.getVersion v, SpdmResp.version), (.getCapabilities v, .capabilities),
      (.negotiateAlgorithms v true, .algorithms), (.negotiateAlgorithms v false, .error), (.getDigests v, .digests 1),
      (.challenge v n, .challengeAuth n), (.getMeasurements v 0, .measurements 5 []),
      (.getMeasurements v 0xFF, .measurements 5 (([1, 2, 3, 4, 5] : List Nat).map fun k => (k, s.digest k))),
      (.getMeasurements v i, .measurements 5 [(i.toNat, s.digest i.toNat)])] →
    Completes c s fun u => u = if s.spdmServed v then s.emit (.spdm v r) else s) ∧
  (∀ (s : State) (v : Via) (slot : Byte) (off len : BitVec 16), s.spdmServed v = true →
    Completes (.getCertificate v slot off len) s fun u =>
      u = s.emit (.spdm v (if slot = 0 ∧ off.toNat ≤ Config.certChain.length
        then .certificate ((Config.certChain.drop off.toNat).take len.toNat)
          (Config.certChain.length - off.toNat - ((Config.certChain.drop off.toNat).take len.toNat).length)
        else .error))) ∧
  (∀ (s : State) (v : Via), s.spdmServed v = true →
    Completes (.keyExchange v) s fun u =>
      let id := s.security.nextSession
      (s.security.sessions.length < 4 → u.session id = some ⟨v, false, none, s.timer, 0⟩ ∧ u.security.nextSession = id + 1 ∧
        (∀ n, n ≠ id → u.session n = s.session n) ∧ u.out = s.out ++ [.spdm v (.keyExchange id)]) ∧
      (4 ≤ s.security.sessions.length → u = s.emit (.spdm v .error)) ∧
      u = { s with out := u.out, security := u.security } ∧ u.security.slots = s.security.slots) ∧
  (∀ (s : State) (n : Nat) (root : Option (List Byte)) (kek : Option (BitVec 256)) (x : Session), s.session n = some x →
    s.spdmServed x.via = true → rising s.security.sessions = true →
    Completes (.finish n root kek) s fun u =>
      (∀ k, x.open_ = false → kek = some k →
        u.session n = some { x with open_ := true, root := root, last := s.timer, kek := k } ∧ u.out = s.out ++ [.spdm x.via (.finish n)]) ∧
      (x.open_ = true ∨ kek = none → u.session n = none ∧ u.out = s.out ++ [.spdm x.via .error]) ∧
      (∀ m, m ≠ n → u.session m = s.session m) ∧
      u = { s with out := u.out, security := { s.security with sessions := u.security.sessions } }) ∧
  (∀ (s : State) (n : Nat) (c : Instr) (r : SpdmResp) (x : Session),
    (c, r) ∈ [(Instr.spdmHeartbeat n, SpdmResp.heartbeatAck), (.keyUpdate n, .keyUpdateAck)] →
    s.session n = some x → x.open_ = true → s.spdmServed x.via = true →
    Completes c s fun u =>
      u.session n = some { x with last := s.timer } ∧ (∀ m, m ≠ n → u.session m = s.session m) ∧
      u.out = s.out ++ [.spdm x.via r] ∧ u = { s with out := u.out, security := { s.security with sessions := u.security.sessions } }) ∧
  (∀ (s : State) (n : Nat) (x : Session), s.session n = some x → x.open_ = true → s.spdmServed x.via = true →
    rising s.security.sessions = true →
    Completes (.endSession n) s fun u =>
      u.session n = none ∧ (∀ m, m ≠ n → u.session m = s.session m) ∧ u.out = s.out ++ [.spdm x.via .endSessionAck] ∧
      u = { s with out := u.out, security := { s.security with sessions := u.security.sessions } }) ∧
  (∀ (s : State) (n : Nat), rising s.security.sessions = true →
    Completes (.sessionHeartbeatExpiry n) s fun u =>
      u.session n = none ∧ (∀ m, m ≠ n → u.session m = s.session m) ∧
      u = { s with security := { s.security with sessions := u.security.sessions } }) ∧
  (∀ (s : State) (n : Nat) (c : Instr) (m : IdeKm),
    c ∈ [Instr.spdmHeartbeat n, .keyUpdate n, .endSession n, .vendorDefinedRequest n m] →
    (∀ x, s.session n = some x → x.open_ = false ∨ s.spdmServed x.via = false) → Completes c s fun u => u = s) ∧
  (∀ (s : State) (n : Nat) (x : Session) (m : IdeKm), s.session n = some x → x.open_ = true → s.spdmServed x.via = true →
    rising s.od = true →
    Completes (.vendorDefinedRequest n m) s fun u =>
      (x.via ≠ .pfMailbox → u.out = s.out ++ [.spdm x.via .error] ∧ u.security.linkSlots = s.security.linkSlots ∧
        u.security.linkPending = s.security.linkPending ∧ u.security.linkActive = s.security.linkActive) ∧
      (x.via = .pfMailbox → m = .query →
        u.out = s.out ++ [.spdm x.via (.ideQuery (tkeys s.security.linkSlots))] ∧ u.security.linkSlots = s.security.linkSlots) ∧
      (∀ k w, x.via = .pfMailbox → m = .keyProg k w → tget u.security.linkSlots k.val = some w ∧
        (∀ j, j ≠ k.val → tget u.security.linkSlots j = tget s.security.linkSlots j) ∧
        u.out = s.out ++ [.spdm x.via (.ideAck k.val)]) ∧
      (∀ k, x.via = .pfMailbox → m = .kSetGo k → (tget s.security.linkSlots k.val).isSome = true →
        k.val ∈ u.security.linkPending ∧ u.security.linkActive = s.security.linkActive ∧
        u.out = s.out ++ [.spdm x.via (.ideAck k.val)]) ∧
      (∀ k, x.via = .pfMailbox → m = .getKey k ∨ (m = .kSetGo k ∧ tget s.security.linkSlots k.val = none) →
        u.out = s.out ++ [.spdm x.via .error] ∧ u.security.linkSlots = s.security.linkSlots ∧
        u.security.linkPending = s.security.linkPending ∧ u.security.linkActive = s.security.linkActive) ∧
      (∀ k, x.via = .pfMailbox → m = .kSetStop k → s.security.linkPending.Pairwise (· < ·) →
        s.security.linkActive.Pairwise (· < ·) →
        k.val ∉ u.security.linkPending ∧ k.val ∉ u.security.linkActive ∧
        u.objBit Row.hostProtocol 3 = (!u.security.linkActive.isEmpty && s.objBit Row.hostProtocol 0)) ∧
      u.session n = some { x with last := s.timer } ∧ u.security.slots = s.security.slots ∧ u.wq = s.wq ∧ u.mem = s.mem) ∧
  (∀ s : State, s.hostUp = true → s.ideEnabled = true → s.security.linkPending ≠ [] → rising s.od = true →
    Completes .ideStart s fun u =>
      (∀ k, k ∈ s.security.linkPending → k ∈ u.security.linkActive) ∧ u.security.linkPending = [] ∧
      (∀ k, k ∈ s.security.linkActive → (∀ g, g ∈ s.security.linkPending → g / 2 ≠ k / 2) → k ∈ u.security.linkActive) ∧
      u.objBit Row.hostProtocol 3 = s.objBit Row.hostProtocol 0 ∧
      u = { s with
        od := u.od, security := { s.security with linkPending := [], linkActive := u.security.linkActive } }) ∧
  (∀ s : State, s.hostUp = false ∨ s.ideEnabled = false ∨ s.security.linkPending = [] → Completes .ideStart s fun u => u = s) ∧
  (∀ (s : State) (q t : Nat) (x : Qp), s.qp q = some x → x.cipher.leadAt = some t →
    Completes (.rollLeadExpiry q) s fun u =>
      u.timer = max s.timer t ∧ u.qp q = some { x with cipher := { x.cipher with useNew := true, leadAt := none } } ∧
      (∀ p, p ≠ q → u.qp p = s.qp p) ∧ u = { s with timer := u.timer, wq := { s.wq with qps := u.wq.qps } }) ∧
  (∀ (s : State) (q t : Nat) (x : Qp), s.qp q = some x → x.cipher.graceAt = some t →
    Completes (.rollGraceExpiry q) s fun u =>
      u.timer = max s.timer t ∧ u.qp q = some { x with cipher := { x.cipher with prev := none, graceAt := none } } ∧
      (∀ p, p ≠ q → u.qp p = s.qp p) ∧ u = { s with timer := u.timer, wq := { s.wq with qps := u.wq.qps } }) ∧
  (∀ (s : State) (q : Nat), (∀ x, s.qp q = some x → x.cipher.leadAt = none) →
    Completes (.rollLeadExpiry q) s fun u => u = s) ∧
  (∀ (s : State) (q : Nat), (∀ x, s.qp q = some x → x.cipher.graceAt = none) →
    Completes (.rollGraceExpiry q) s fun u => u = s)
end

