-- ==== Sys2Proof/Laws/State.lean ====
section
/-! SUPPORT. One lemma per field of the state per primitive update, true by computation, and the named updates of objects as
updates of one object. -/

namespace Sys2Proof.Machine

/-! ## emit -/

@[simp] theorem State.emit_pending (s : State) (o : Output) : (s.emit o).pending = s.pending := rfl
@[simp] theorem State.emit_out (s : State) (o : Output) : (s.emit o).out = s.out ++ [o] := rfl
@[simp] theorem State.emit_timer (s : State) (o : Output) : (s.emit o).timer = s.timer := rfl
@[simp] theorem State.emit_ticks (s : State) (o : Output) : (s.emit o).ticks = s.ticks := rfl
@[simp] theorem State.emit_freeCount (s : State) (o : Output) : (s.emit o).freeCount = s.freeCount := rfl
@[simp] theorem State.emit_mode (s : State) (o : Output) : (s.emit o).mode = s.mode := rfl
@[simp] theorem State.emit_od (s : State) (o : Output) : (s.emit o).od = s.od := rfl
@[simp] theorem State.emit_blobs (s : State) (o : Output) : (s.emit o).blobs = s.blobs := rfl
@[simp] theorem State.emit_mgmt (s : State) (o : Output) : (s.emit o).mgmt = s.mgmt := rfl
@[simp] theorem State.emit_alert (s : State) (o : Output) : (s.emit o).alert = s.alert := rfl
@[simp] theorem State.emit_eqs (s : State) (o : Output) : (s.emit o).eqs = s.eqs := rfl
@[simp] theorem State.emit_halfPorts (s : State) (o : Output) : (s.emit o).halfPorts = s.halfPorts := rfl
@[simp] theorem State.emit_cache (s : State) (o : Output) : (s.emit o).cache = s.cache := rfl
@[simp] theorem State.emit_wq (s : State) (o : Output) : (s.emit o).wq = s.wq := rfl
@[simp] theorem State.emit_traffic (s : State) (o : Output) : (s.emit o).traffic = s.traffic := rfl
@[simp] theorem State.emit_fabric (s : State) (o : Output) : (s.emit o).fabric = s.fabric := rfl
@[simp] theorem State.emit_ctx (s : State) (o : Output) : (s.emit o).ctx = s.ctx := rfl
@[simp] theorem State.emit_mem (s : State) (o : Output) : (s.emit o).mem = s.mem := rfl
@[simp] theorem State.emit_colls (s : State) (o : Output) : (s.emit o).colls = s.colls := rfl
@[simp] theorem State.emit_twin (s : State) (o : Output) : (s.emit o).twin = s.twin := rfl
@[simp] theorem State.emit_pace (s : State) (o : Output) : (s.emit o).pace = s.pace := rfl
@[simp] theorem State.emit_reliab (s : State) (o : Output) : (s.emit o).reliab = s.reliab := rfl
@[simp] theorem State.emit_flash (s : State) (o : Output) : (s.emit o).flash = s.flash := rfl
@[simp] theorem State.emit_tenant (s : State) (o : Output) : (s.emit o).tenant = s.tenant := rfl
@[simp] theorem State.emit_security (s : State) (o : Output) : (s.emit o).security = s.security := rfl
@[simp] theorem State.emit_boot (s : State) (o : Output) : (s.emit o).boot = s.boot := rfl
@[simp] theorem State.emit_host (s : State) (o : Output) : (s.emit o).host = s.host := rfl
@[simp] theorem State.emit_power (s : State) (o : Output) : (s.emit o).power = s.power := rfl

/-! ## useFree -/

@[simp] theorem State.useFree_pending (s : State) : (s.useFree).pending = s.pending := rfl
@[simp] theorem State.useFree_out (s : State) : (s.useFree).out = s.out := rfl
@[simp] theorem State.useFree_timer (s : State) : (s.useFree).timer = s.timer := rfl
@[simp] theorem State.useFree_ticks (s : State) : (s.useFree).ticks = s.ticks := rfl
@[simp] theorem State.useFree_freeCount (s : State) : (s.useFree).freeCount = s.freeCount + 1 := rfl
@[simp] theorem State.useFree_mode (s : State) : (s.useFree).mode = s.mode := rfl
@[simp] theorem State.useFree_od (s : State) : (s.useFree).od = s.od := rfl
@[simp] theorem State.useFree_blobs (s : State) : (s.useFree).blobs = s.blobs := rfl
@[simp] theorem State.useFree_mgmt (s : State) : (s.useFree).mgmt = s.mgmt := rfl
@[simp] theorem State.useFree_alert (s : State) : (s.useFree).alert = s.alert := rfl
@[simp] theorem State.useFree_eqs (s : State) : (s.useFree).eqs = s.eqs := rfl
@[simp] theorem State.useFree_halfPorts (s : State) : (s.useFree).halfPorts = s.halfPorts := rfl
@[simp] theorem State.useFree_cache (s : State) : (s.useFree).cache = s.cache := rfl
@[simp] theorem State.useFree_wq (s : State) : (s.useFree).wq = s.wq := rfl
@[simp] theorem State.useFree_traffic (s : State) : (s.useFree).traffic = s.traffic := rfl
@[simp] theorem State.useFree_fabric (s : State) : (s.useFree).fabric = s.fabric := rfl
@[simp] theorem State.useFree_ctx (s : State) : (s.useFree).ctx = s.ctx := rfl
@[simp] theorem State.useFree_mem (s : State) : (s.useFree).mem = s.mem := rfl
@[simp] theorem State.useFree_colls (s : State) : (s.useFree).colls = s.colls := rfl
@[simp] theorem State.useFree_twin (s : State) : (s.useFree).twin = s.twin := rfl
@[simp] theorem State.useFree_pace (s : State) : (s.useFree).pace = s.pace := rfl
@[simp] theorem State.useFree_reliab (s : State) : (s.useFree).reliab = s.reliab := rfl
@[simp] theorem State.useFree_flash (s : State) : (s.useFree).flash = s.flash := rfl
@[simp] theorem State.useFree_tenant (s : State) : (s.useFree).tenant = s.tenant := rfl
@[simp] theorem State.useFree_security (s : State) : (s.useFree).security = s.security := rfl
@[simp] theorem State.useFree_boot (s : State) : (s.useFree).boot = s.boot := rfl
@[simp] theorem State.useFree_host (s : State) : (s.useFree).host = s.host := rfl
@[simp] theorem State.useFree_power (s : State) : (s.useFree).power = s.power := rfl

/-! ## advanceTo -/

@[simp] theorem State.advanceTo_pending (s : State) (t : Nat) : (s.advanceTo t).pending = s.pending := rfl
@[simp] theorem State.advanceTo_out (s : State) (t : Nat) : (s.advanceTo t).out = s.out := rfl
@[simp] theorem State.advanceTo_timer (s : State) (t : Nat) : (s.advanceTo t).timer = max s.timer t := rfl
@[simp] theorem State.advanceTo_ticks (s : State) (t : Nat) : (s.advanceTo t).ticks = s.ticks := rfl
@[simp] theorem State.advanceTo_freeCount (s : State) (t : Nat) : (s.advanceTo t).freeCount = s.freeCount := rfl
@[simp] theorem State.advanceTo_mode (s : State) (t : Nat) : (s.advanceTo t).mode = s.mode := rfl
@[simp] theorem State.advanceTo_od (s : State) (t : Nat) : (s.advanceTo t).od = s.od := rfl
@[simp] theorem State.advanceTo_blobs (s : State) (t : Nat) : (s.advanceTo t).blobs = s.blobs := rfl
@[simp] theorem State.advanceTo_mgmt (s : State) (t : Nat) : (s.advanceTo t).mgmt = s.mgmt := rfl
@[simp] theorem State.advanceTo_alert (s : State) (t : Nat) : (s.advanceTo t).alert = s.alert := rfl
@[simp] theorem State.advanceTo_eqs (s : State) (t : Nat) : (s.advanceTo t).eqs = s.eqs := rfl
@[simp] theorem State.advanceTo_halfPorts (s : State) (t : Nat) : (s.advanceTo t).halfPorts = s.halfPorts := rfl
@[simp] theorem State.advanceTo_cache (s : State) (t : Nat) : (s.advanceTo t).cache = s.cache := rfl
@[simp] theorem State.advanceTo_wq (s : State) (t : Nat) : (s.advanceTo t).wq = s.wq := rfl
@[simp] theorem State.advanceTo_traffic (s : State) (t : Nat) : (s.advanceTo t).traffic = s.traffic := rfl
@[simp] theorem State.advanceTo_fabric (s : State) (t : Nat) : (s.advanceTo t).fabric = s.fabric := rfl
@[simp] theorem State.advanceTo_ctx (s : State) (t : Nat) : (s.advanceTo t).ctx = s.ctx := rfl
@[simp] theorem State.advanceTo_mem (s : State) (t : Nat) : (s.advanceTo t).mem = s.mem := rfl
@[simp] theorem State.advanceTo_colls (s : State) (t : Nat) : (s.advanceTo t).colls = s.colls := rfl
@[simp] theorem State.advanceTo_twin (s : State) (t : Nat) : (s.advanceTo t).twin = s.twin := rfl
@[simp] theorem State.advanceTo_pace (s : State) (t : Nat) : (s.advanceTo t).pace = s.pace := rfl
@[simp] theorem State.advanceTo_reliab (s : State) (t : Nat) : (s.advanceTo t).reliab = s.reliab := rfl
@[simp] theorem State.advanceTo_flash (s : State) (t : Nat) : (s.advanceTo t).flash = s.flash := rfl
@[simp] theorem State.advanceTo_tenant (s : State) (t : Nat) : (s.advanceTo t).tenant = s.tenant := rfl
@[simp] theorem State.advanceTo_security (s : State) (t : Nat) : (s.advanceTo t).security = s.security := rfl
@[simp] theorem State.advanceTo_boot (s : State) (t : Nat) : (s.advanceTo t).boot = s.boot := rfl
@[simp] theorem State.advanceTo_host (s : State) (t : Nat) : (s.advanceTo t).host = s.host := rfl
@[simp] theorem State.advanceTo_power (s : State) (t : Nat) : (s.advanceTo t).power = s.power := rfl

/-! ## tickOf -/

@[simp] theorem State.tickOf_pending (s : State) (id T : Nat) : (s.tickOf id T).pending = s.pending := rfl
@[simp] theorem State.tickOf_out (s : State) (id T : Nat) : (s.tickOf id T).out = s.out := rfl
@[simp] theorem State.tickOf_timer (s : State) (id T : Nat) : (s.tickOf id T).timer = max s.timer (s.nextTick id T) := rfl
@[simp] theorem State.tickOf_ticks (s : State) (id T : Nat) : (s.tickOf id T).ticks = tput s.ticks id (s.nextTick id T) := rfl
@[simp] theorem State.tickOf_freeCount (s : State) (id T : Nat) : (s.tickOf id T).freeCount = s.freeCount := rfl
@[simp] theorem State.tickOf_mode (s : State) (id T : Nat) : (s.tickOf id T).mode = s.mode := rfl
@[simp] theorem State.tickOf_od (s : State) (id T : Nat) : (s.tickOf id T).od = s.od := rfl
@[simp] theorem State.tickOf_blobs (s : State) (id T : Nat) : (s.tickOf id T).blobs = s.blobs := rfl
@[simp] theorem State.tickOf_mgmt (s : State) (id T : Nat) : (s.tickOf id T).mgmt = s.mgmt := rfl
@[simp] theorem State.tickOf_alert (s : State) (id T : Nat) : (s.tickOf id T).alert = s.alert := rfl
@[simp] theorem State.tickOf_eqs (s : State) (id T : Nat) : (s.tickOf id T).eqs = s.eqs := rfl
@[simp] theorem State.tickOf_halfPorts (s : State) (id T : Nat) : (s.tickOf id T).halfPorts = s.halfPorts := rfl
@[simp] theorem State.tickOf_cache (s : State) (id T : Nat) : (s.tickOf id T).cache = s.cache := rfl
@[simp] theorem State.tickOf_wq (s : State) (id T : Nat) : (s.tickOf id T).wq = s.wq := rfl
@[simp] theorem State.tickOf_traffic (s : State) (id T : Nat) : (s.tickOf id T).traffic = s.traffic := rfl
@[simp] theorem State.tickOf_fabric (s : State) (id T : Nat) : (s.tickOf id T).fabric = s.fabric := rfl
@[simp] theorem State.tickOf_ctx (s : State) (id T : Nat) : (s.tickOf id T).ctx = s.ctx := rfl
@[simp] theorem State.tickOf_mem (s : State) (id T : Nat) : (s.tickOf id T).mem = s.mem := rfl
@[simp] theorem State.tickOf_colls (s : State) (id T : Nat) : (s.tickOf id T).colls = s.colls := rfl
@[simp] theorem State.tickOf_twin (s : State) (id T : Nat) : (s.tickOf id T).twin = s.twin := rfl
@[simp] theorem State.tickOf_pace (s : State) (id T : Nat) : (s.tickOf id T).pace = s.pace := rfl
@[simp] theorem State.tickOf_reliab (s : State) (id T : Nat) : (s.tickOf id T).reliab = s.reliab := rfl
@[simp] theorem State.tickOf_flash (s : State) (id T : Nat) : (s.tickOf id T).flash = s.flash := rfl
@[simp] theorem State.tickOf_tenant (s : State) (id T : Nat) : (s.tickOf id T).tenant = s.tenant := rfl
@[simp] theorem State.tickOf_security (s : State) (id T : Nat) : (s.tickOf id T).security = s.security := rfl
@[simp] theorem State.tickOf_boot (s : State) (id T : Nat) : (s.tickOf id T).boot = s.boot := rfl
@[simp] theorem State.tickOf_host (s : State) (id T : Nat) : (s.tickOf id T).host = s.host := rfl
@[simp] theorem State.tickOf_power (s : State) (id T : Nat) : (s.tickOf id T).power = s.power := rfl

/-! ## setObj -/

@[simp] theorem State.setObj_pending (s : State) (r : ObjRow) (v i k : Nat) : (s.setObj r v i k).pending = s.pending := rfl
@[simp] theorem State.setObj_out (s : State) (r : ObjRow) (v i k : Nat) : (s.setObj r v i k).out = s.out := rfl
@[simp] theorem State.setObj_timer (s : State) (r : ObjRow) (v i k : Nat) : (s.setObj r v i k).timer = s.timer := rfl
@[simp] theorem State.setObj_ticks (s : State) (r : ObjRow) (v i k : Nat) : (s.setObj r v i k).ticks = s.ticks := rfl
@[simp] theorem State.setObj_freeCount (s : State) (r : ObjRow) (v i k : Nat) : (s.setObj r v i k).freeCount = s.freeCount := rfl
@[simp] theorem State.setObj_mode (s : State) (r : ObjRow) (v i k : Nat) : (s.setObj r v i k).mode = s.mode := rfl
@[simp] theorem State.setObj_od (s : State) (r : ObjRow) (v i k : Nat) : (s.setObj r v i k).od = if v = r.dflt i k then tdel s.od (r.key i k) else tput s.od (r.key i k) v := rfl
@[simp] theorem State.setObj_blobs (s : State) (r : ObjRow) (v i k : Nat) : (s.setObj r v i k).blobs = s.blobs := rfl
@[simp] theorem State.setObj_mgmt (s : State) (r : ObjRow) (v i k : Nat) : (s.setObj r v i k).mgmt = s.mgmt := rfl
@[simp] theorem State.setObj_alert (s : State) (r : ObjRow) (v i k : Nat) : (s.setObj r v i k).alert = s.alert := rfl
@[simp] theorem State.setObj_eqs (s : State) (r : ObjRow) (v i k : Nat) : (s.setObj r v i k).eqs = s.eqs := rfl
@[simp] theorem State.setObj_halfPorts (s : State) (r : ObjRow) (v i k : Nat) : (s.setObj r v i k).halfPorts = s.halfPorts := rfl
@[simp] theorem State.setObj_cache (s : State) (r : ObjRow) (v i k : Nat) : (s.setObj r v i k).cache = s.cache := rfl
@[simp] theorem State.setObj_wq (s : State) (r : ObjRow) (v i k : Nat) : (s.setObj r v i k).wq = s.wq := rfl
@[simp] theorem State.setObj_traffic (s : State) (r : ObjRow) (v i k : Nat) : (s.setObj r v i k).traffic = s.traffic := rfl
@[simp] theorem State.setObj_fabric (s : State) (r : ObjRow) (v i k : Nat) : (s.setObj r v i k).fabric = s.fabric := rfl
@[simp] theorem State.setObj_ctx (s : State) (r : ObjRow) (v i k : Nat) : (s.setObj r v i k).ctx = s.ctx := rfl
@[simp] theorem State.setObj_mem (s : State) (r : ObjRow) (v i k : Nat) : (s.setObj r v i k).mem = s.mem := rfl
@[simp] theorem State.setObj_colls (s : State) (r : ObjRow) (v i k : Nat) : (s.setObj r v i k).colls = s.colls := rfl
@[simp] theorem State.setObj_twin (s : State) (r : ObjRow) (v i k : Nat) : (s.setObj r v i k).twin = s.twin := rfl
@[simp] theorem State.setObj_pace (s : State) (r : ObjRow) (v i k : Nat) : (s.setObj r v i k).pace = s.pace := rfl
@[simp] theorem State.setObj_reliab (s : State) (r : ObjRow) (v i k : Nat) : (s.setObj r v i k).reliab = s.reliab := rfl
@[simp] theorem State.setObj_flash (s : State) (r : ObjRow) (v i k : Nat) : (s.setObj r v i k).flash = s.flash := rfl
@[simp] theorem State.setObj_tenant (s : State) (r : ObjRow) (v i k : Nat) : (s.setObj r v i k).tenant = s.tenant := rfl
@[simp] theorem State.setObj_security (s : State) (r : ObjRow) (v i k : Nat) : (s.setObj r v i k).security = s.security := rfl
@[simp] theorem State.setObj_boot (s : State) (r : ObjRow) (v i k : Nat) : (s.setObj r v i k).boot = s.boot := rfl
@[simp] theorem State.setObj_host (s : State) (r : ObjRow) (v i k : Nat) : (s.setObj r v i k).host = s.host := rfl
@[simp] theorem State.setObj_power (s : State) (r : ObjRow) (v i k : Nat) : (s.setObj r v i k).power = s.power := rfl

/-! ## setBlob -/

@[simp] theorem State.setBlob_pending (s : State) (r : ObjRow) (b : List Byte) : (s.setBlob r b).pending = s.pending := rfl
@[simp] theorem State.setBlob_out (s : State) (r : ObjRow) (b : List Byte) : (s.setBlob r b).out = s.out := rfl
@[simp] theorem State.setBlob_timer (s : State) (r : ObjRow) (b : List Byte) : (s.setBlob r b).timer = s.timer := rfl
@[simp] theorem State.setBlob_ticks (s : State) (r : ObjRow) (b : List Byte) : (s.setBlob r b).ticks = s.ticks := rfl
@[simp] theorem State.setBlob_freeCount (s : State) (r : ObjRow) (b : List Byte) : (s.setBlob r b).freeCount = s.freeCount := rfl
@[simp] theorem State.setBlob_mode (s : State) (r : ObjRow) (b : List Byte) : (s.setBlob r b).mode = s.mode := rfl
@[simp] theorem State.setBlob_od (s : State) (r : ObjRow) (b : List Byte) : (s.setBlob r b).od = s.od := rfl
@[simp] theorem State.setBlob_blobs (s : State) (r : ObjRow) (b : List Byte) : (s.setBlob r b).blobs = if b = [] then tdel s.blobs (r.key 0 0) else tput s.blobs (r.key 0 0) b := rfl
@[simp] theorem State.setBlob_mgmt (s : State) (r : ObjRow) (b : List Byte) : (s.setBlob r b).mgmt = s.mgmt := rfl
@[simp] theorem State.setBlob_alert (s : State) (r : ObjRow) (b : List Byte) : (s.setBlob r b).alert = s.alert := rfl
@[simp] theorem State.setBlob_eqs (s : State) (r : ObjRow) (b : List Byte) : (s.setBlob r b).eqs = s.eqs := rfl
@[simp] theorem State.setBlob_halfPorts (s : State) (r : ObjRow) (b : List Byte) : (s.setBlob r b).halfPorts = s.halfPorts := rfl
@[simp] theorem State.setBlob_cache (s : State) (r : ObjRow) (b : List Byte) : (s.setBlob r b).cache = s.cache := rfl
@[simp] theorem State.setBlob_wq (s : State) (r : ObjRow) (b : List Byte) : (s.setBlob r b).wq = s.wq := rfl
@[simp] theorem State.setBlob_traffic (s : State) (r : ObjRow) (b : List Byte) : (s.setBlob r b).traffic = s.traffic := rfl
@[simp] theorem State.setBlob_fabric (s : State) (r : ObjRow) (b : List Byte) : (s.setBlob r b).fabric = s.fabric := rfl
@[simp] theorem State.setBlob_ctx (s : State) (r : ObjRow) (b : List Byte) : (s.setBlob r b).ctx = s.ctx := rfl
@[simp] theorem State.setBlob_mem (s : State) (r : ObjRow) (b : List Byte) : (s.setBlob r b).mem = s.mem := rfl
@[simp] theorem State.setBlob_colls (s : State) (r : ObjRow) (b : List Byte) : (s.setBlob r b).colls = s.colls := rfl
@[simp] theorem State.setBlob_twin (s : State) (r : ObjRow) (b : List Byte) : (s.setBlob r b).twin = s.twin := rfl
@[simp] theorem State.setBlob_pace (s : State) (r : ObjRow) (b : List Byte) : (s.setBlob r b).pace = s.pace := rfl
@[simp] theorem State.setBlob_reliab (s : State) (r : ObjRow) (b : List Byte) : (s.setBlob r b).reliab = s.reliab := rfl
@[simp] theorem State.setBlob_flash (s : State) (r : ObjRow) (b : List Byte) : (s.setBlob r b).flash = s.flash := rfl
@[simp] theorem State.setBlob_tenant (s : State) (r : ObjRow) (b : List Byte) : (s.setBlob r b).tenant = s.tenant := rfl
@[simp] theorem State.setBlob_security (s : State) (r : ObjRow) (b : List Byte) : (s.setBlob r b).security = s.security := rfl
@[simp] theorem State.setBlob_boot (s : State) (r : ObjRow) (b : List Byte) : (s.setBlob r b).boot = s.boot := rfl
@[simp] theorem State.setBlob_host (s : State) (r : ObjRow) (b : List Byte) : (s.setBlob r b).host = s.host := rfl
@[simp] theorem State.setBlob_power (s : State) (r : ObjRow) (b : List Byte) : (s.setBlob r b).power = s.power := rfl

/-! ## setCells -/

@[simp] theorem State.setCells_pending (s : State) (cs : List Host.Cell) (us : List Undef) : (s.setCells cs us).pending = s.pending := rfl
@[simp] theorem State.setCells_out (s : State) (cs : List Host.Cell) (us : List Undef) : (s.setCells cs us).out = s.out := rfl
@[simp] theorem State.setCells_timer (s : State) (cs : List Host.Cell) (us : List Undef) : (s.setCells cs us).timer = s.timer := rfl
@[simp] theorem State.setCells_ticks (s : State) (cs : List Host.Cell) (us : List Undef) : (s.setCells cs us).ticks = s.ticks := rfl
@[simp] theorem State.setCells_freeCount (s : State) (cs : List Host.Cell) (us : List Undef) : (s.setCells cs us).freeCount = s.freeCount := rfl
@[simp] theorem State.setCells_mode (s : State) (cs : List Host.Cell) (us : List Undef) : (s.setCells cs us).mode = s.mode := rfl
@[simp] theorem State.setCells_od (s : State) (cs : List Host.Cell) (us : List Undef) : (s.setCells cs us).od = s.od := rfl
@[simp] theorem State.setCells_blobs (s : State) (cs : List Host.Cell) (us : List Undef) : (s.setCells cs us).blobs = s.blobs := rfl
@[simp] theorem State.setCells_mgmt (s : State) (cs : List Host.Cell) (us : List Undef) : (s.setCells cs us).mgmt = s.mgmt := rfl
@[simp] theorem State.setCells_alert (s : State) (cs : List Host.Cell) (us : List Undef) : (s.setCells cs us).alert = s.alert := rfl
@[simp] theorem State.setCells_eqs (s : State) (cs : List Host.Cell) (us : List Undef) : (s.setCells cs us).eqs = s.eqs := rfl
@[simp] theorem State.setCells_halfPorts (s : State) (cs : List Host.Cell) (us : List Undef) : (s.setCells cs us).halfPorts = s.halfPorts := rfl
@[simp] theorem State.setCells_cache (s : State) (cs : List Host.Cell) (us : List Undef) : (s.setCells cs us).cache = s.cache := rfl
@[simp] theorem State.setCells_wq (s : State) (cs : List Host.Cell) (us : List Undef) : (s.setCells cs us).wq = s.wq := rfl
@[simp] theorem State.setCells_traffic (s : State) (cs : List Host.Cell) (us : List Undef) : (s.setCells cs us).traffic = s.traffic := rfl
@[simp] theorem State.setCells_fabric (s : State) (cs : List Host.Cell) (us : List Undef) : (s.setCells cs us).fabric = s.fabric := rfl
@[simp] theorem State.setCells_ctx (s : State) (cs : List Host.Cell) (us : List Undef) : (s.setCells cs us).ctx = s.ctx := rfl
@[simp] theorem State.setCells_mem (s : State) (cs : List Host.Cell) (us : List Undef) : (s.setCells cs us).mem = { s.mem with cells := cs, loose := us } := rfl
@[simp] theorem State.setCells_colls (s : State) (cs : List Host.Cell) (us : List Undef) : (s.setCells cs us).colls = s.colls := rfl
@[simp] theorem State.setCells_twin (s : State) (cs : List Host.Cell) (us : List Undef) : (s.setCells cs us).twin = s.twin := rfl
@[simp] theorem State.setCells_pace (s : State) (cs : List Host.Cell) (us : List Undef) : (s.setCells cs us).pace = s.pace := rfl
@[simp] theorem State.setCells_reliab (s : State) (cs : List Host.Cell) (us : List Undef) : (s.setCells cs us).reliab = s.reliab := rfl
@[simp] theorem State.setCells_flash (s : State) (cs : List Host.Cell) (us : List Undef) : (s.setCells cs us).flash = s.flash := rfl
@[simp] theorem State.setCells_tenant (s : State) (cs : List Host.Cell) (us : List Undef) : (s.setCells cs us).tenant = s.tenant := rfl
@[simp] theorem State.setCells_security (s : State) (cs : List Host.Cell) (us : List Undef) : (s.setCells cs us).security = s.security := rfl
@[simp] theorem State.setCells_boot (s : State) (cs : List Host.Cell) (us : List Undef) : (s.setCells cs us).boot = s.boot := rfl
@[simp] theorem State.setCells_host (s : State) (cs : List Host.Cell) (us : List Undef) : (s.setCells cs us).host = s.host := rfl
@[simp] theorem State.setCells_power (s : State) (cs : List Host.Cell) (us : List Undef) : (s.setCells cs us).power = s.power := rfl

/-! ## withPending -/

@[simp] theorem State.withPending_pending (s : State) (p : List Instr) : (s.withPending p).pending = p := rfl
@[simp] theorem State.withPending_out (s : State) (p : List Instr) : (s.withPending p).out = s.out := rfl
@[simp] theorem State.withPending_timer (s : State) (p : List Instr) : (s.withPending p).timer = s.timer := rfl
@[simp] theorem State.withPending_ticks (s : State) (p : List Instr) : (s.withPending p).ticks = s.ticks := rfl
@[simp] theorem State.withPending_freeCount (s : State) (p : List Instr) : (s.withPending p).freeCount = s.freeCount := rfl
@[simp] theorem State.withPending_mode (s : State) (p : List Instr) : (s.withPending p).mode = s.mode := rfl
@[simp] theorem State.withPending_od (s : State) (p : List Instr) : (s.withPending p).od = s.od := rfl
@[simp] theorem State.withPending_blobs (s : State) (p : List Instr) : (s.withPending p).blobs = s.blobs := rfl
@[simp] theorem State.withPending_mgmt (s : State) (p : List Instr) : (s.withPending p).mgmt = s.mgmt := rfl
@[simp] theorem State.withPending_alert (s : State) (p : List Instr) : (s.withPending p).alert = s.alert := rfl
@[simp] theorem State.withPending_eqs (s : State) (p : List Instr) : (s.withPending p).eqs = s.eqs := rfl
@[simp] theorem State.withPending_halfPorts (s : State) (p : List Instr) : (s.withPending p).halfPorts = s.halfPorts := rfl
@[simp] theorem State.withPending_cache (s : State) (p : List Instr) : (s.withPending p).cache = s.cache := rfl
@[simp] theorem State.withPending_wq (s : State) (p : List Instr) : (s.withPending p).wq = s.wq := rfl
@[simp] theorem State.withPending_traffic (s : State) (p : List Instr) : (s.withPending p).traffic = s.traffic := rfl
@[simp] theorem State.withPending_fabric (s : State) (p : List Instr) : (s.withPending p).fabric = s.fabric := rfl
@[simp] theorem State.withPending_ctx (s : State) (p : List Instr) : (s.withPending p).ctx = s.ctx := rfl
@[simp] theorem State.withPending_mem (s : State) (p : List Instr) : (s.withPending p).mem = s.mem := rfl
@[simp] theorem State.withPending_colls (s : State) (p : List Instr) : (s.withPending p).colls = s.colls := rfl
@[simp] theorem State.withPending_twin (s : State) (p : List Instr) : (s.withPending p).twin = s.twin := rfl
@[simp] theorem State.withPending_pace (s : State) (p : List Instr) : (s.withPending p).pace = s.pace := rfl
@[simp] theorem State.withPending_reliab (s : State) (p : List Instr) : (s.withPending p).reliab = s.reliab := rfl
@[simp] theorem State.withPending_flash (s : State) (p : List Instr) : (s.withPending p).flash = s.flash := rfl
@[simp] theorem State.withPending_tenant (s : State) (p : List Instr) : (s.withPending p).tenant = s.tenant := rfl
@[simp] theorem State.withPending_security (s : State) (p : List Instr) : (s.withPending p).security = s.security := rfl
@[simp] theorem State.withPending_boot (s : State) (p : List Instr) : (s.withPending p).boot = s.boot := rfl
@[simp] theorem State.withPending_host (s : State) (p : List Instr) : (s.withPending p).host = s.host := rfl
@[simp] theorem State.withPending_power (s : State) (p : List Instr) : (s.withPending p).power = s.power := rfl

/-! ## tick -/

@[simp] theorem State.tick_pending (s : State) : (s.tick).pending = s.pending := rfl
@[simp] theorem State.tick_out (s : State) : (s.tick).out = s.out := rfl
@[simp] theorem State.tick_timer (s : State) : (s.tick).timer = s.timer + 1 := rfl
@[simp] theorem State.tick_ticks (s : State) : (s.tick).ticks = s.ticks := rfl
@[simp] theorem State.tick_freeCount (s : State) : (s.tick).freeCount = s.freeCount := rfl
@[simp] theorem State.tick_mode (s : State) : (s.tick).mode = s.mode := rfl
@[simp] theorem State.tick_od (s : State) : (s.tick).od = s.od := rfl
@[simp] theorem State.tick_blobs (s : State) : (s.tick).blobs = s.blobs := rfl
@[simp] theorem State.tick_mgmt (s : State) : (s.tick).mgmt = s.mgmt := rfl
@[simp] theorem State.tick_alert (s : State) : (s.tick).alert = s.alert := rfl
@[simp] theorem State.tick_eqs (s : State) : (s.tick).eqs = s.eqs := rfl
@[simp] theorem State.tick_halfPorts (s : State) : (s.tick).halfPorts = s.halfPorts := rfl
@[simp] theorem State.tick_cache (s : State) : (s.tick).cache = s.cache := rfl
@[simp] theorem State.tick_wq (s : State) : (s.tick).wq = s.wq := rfl
@[simp] theorem State.tick_traffic (s : State) : (s.tick).traffic = s.traffic := rfl
@[simp] theorem State.tick_fabric (s : State) : (s.tick).fabric = s.fabric := rfl
@[simp] theorem State.tick_ctx (s : State) : (s.tick).ctx = s.ctx := rfl
@[simp] theorem State.tick_mem (s : State) : (s.tick).mem = s.mem := rfl
@[simp] theorem State.tick_colls (s : State) : (s.tick).colls = s.colls := rfl
@[simp] theorem State.tick_twin (s : State) : (s.tick).twin = s.twin := rfl
@[simp] theorem State.tick_pace (s : State) : (s.tick).pace = s.pace := rfl
@[simp] theorem State.tick_reliab (s : State) : (s.tick).reliab = s.reliab := rfl
@[simp] theorem State.tick_flash (s : State) : (s.tick).flash = s.flash := rfl
@[simp] theorem State.tick_tenant (s : State) : (s.tick).tenant = s.tenant := rfl
@[simp] theorem State.tick_security (s : State) : (s.tick).security = s.security := rfl
@[simp] theorem State.tick_boot (s : State) : (s.tick).boot = s.boot := rfl
@[simp] theorem State.tick_host (s : State) : (s.tick).host = s.host := rfl
@[simp] theorem State.tick_power (s : State) : (s.tick).power = s.power := rfl

/-! ## Updates that are one `setObj` -/

theorem State.bump_eq (s : State) (r : ObjRow) (n i k : Nat) :
    s.bump r n i k = s.setObj r ((s.obj r i k + n) % 2 ^ (8 * r.ty.size)) i k := rfl

theorem State.setObjField_eq (s : State) (r : ObjRow) (off n v i k : Nat) :
    s.setObjField r off n v i k =
      s.setObj r (s.obj r i k - s.obj r i k / 256 ^ off % 256 ^ n * 256 ^ off + v % 256 ^ n * 256 ^ off) i k := rfl

theorem State.bumpField_eq (s : State) (r : ObjRow) (off n add i k : Nat) :
    s.bumpField r off n add i k = s.setObjField r off n (s.objField r off n i k + add) i k := rfl

theorem State.setObjBit_eq (s : State) (r : ObjRow) (b : Nat) (v : Bool) (i k : Nat) :
    s.setObjBit r b v i k = s.setObj r (setBit (s.obj r i k) b v) i k := rfl

end Sys2Proof.Machine
end

