-- ==== Sys2Proof/Laws/Memory.lean ====
section
/-! SUPPORT. Module memory keeps its canonical form under every operation; a read after a write gives the bytes written, and
every other byte is as before. -/

namespace Sys2Proof.Machine

theorem reset_memory_wf : State.reset.mem.wf = true := rfl

/-! ## Listed bytes -/

theorem cellsWf_iff (lo : Nat) (cs : List Host.Cell) : cellsWfFrom lo cs = true ↔
    (∀ c ∈ cs, lo ≤ c.1 ∧ c.2 ≠ 0) ∧ cs.Pairwise (fun c d => c.1 < d.1) := by
  induction cs generalizing lo with
  | nil => simp [cellsWfFrom]
  | cons c cs ih =>
    obtain ⟨a, b⟩ := c
    simp only [cellsWfFrom, Bool.and_eq_true, decide_eq_true_eq, bne_iff_ne, ne_eq, ih, List.mem_cons, forall_eq_or_imp,
      List.pairwise_cons]
    constructor
    · rintro ⟨⟨h1, h2⟩, h3, h4⟩
      exact ⟨⟨⟨h1, h2⟩, fun c hc => ⟨by have := (h3 c hc).1; omega, (h3 c hc).2⟩⟩, fun c hc => by have := (h3 c hc).1; omega, h4⟩
    · rintro ⟨⟨⟨h1, h2⟩, h3⟩, h4, h5⟩
      exact ⟨⟨h1, h2⟩, fun c hc => ⟨by have := h4 c hc; omega, (h3 c hc).2⟩, h5⟩

theorem mem_cellWrite {cs : List Host.Cell} {a : Nat} {b : Byte} {c : Host.Cell} (h : c ∈ cellWrite cs a b) :
    c = (a, b) ∨ c ∈ cs := by
  induction cs with
  | nil =>
    simp only [cellWrite] at h
    split at h
    · simp at h
    · exact .inl (by simpa using h)
  | cons p cs ih =>
    obtain ⟨k, v⟩ := p
    simp only [cellWrite] at h
    split at h
    · split at h
      · exact .inr h
      · simpa using h
    · split at h
      · split at h
        · exact .inr (by simp [h])
        · simp at h
          rcases h with h | h
          · exact .inl h
          · exact .inr (by simp [h])
      · simp at h
        rcases h with h | h
        · exact .inr (by simp [h])
        · rcases ih h with h | h
          · exact .inl h
          · exact .inr (by simp [h])

theorem cellWrite_wf (lo : Nat) (cs : List Host.Cell) (a : Nat) (b : Byte) (h : cellsWfFrom lo cs = true) (hl : lo ≤ a) :
    cellsWfFrom lo (cellWrite cs a b) = true := by
  induction cs generalizing lo with
  | nil =>
    simp only [cellWrite]
    split
    · rfl
    · rename_i hb
      have hb' : b ≠ 0#8 := hb
      simp [cellsWfFrom, hl, hb']
  | cons p cs ih =>
    obtain ⟨k, v⟩ := p
    simp only [cellsWfFrom, Bool.and_eq_true, decide_eq_true_eq, bne_iff_ne, ne_eq] at h
    obtain ⟨⟨h1, h2⟩, h3⟩ := h
    have h2' : v ≠ 0#8 := h2
    have weak : ∀ {x y : Nat}, x ≤ y → cellsWfFrom y cs = true → cellsWfFrom x cs = true := by
      intro x y hxy hy
      rw [cellsWf_iff] at hy ⊢
      exact ⟨fun c hc => ⟨by have := (hy.1 c hc).1; omega, (hy.1 c hc).2⟩, hy.2⟩
    simp only [cellWrite]
    split
    · split
      · simp [cellsWfFrom, h1, h2', h3]
      · rename_i hak hb
        have : a + 1 ≤ k := hak
        have hb' : b ≠ 0#8 := hb
        simp [cellsWfFrom, hl, hb', this, h2', h3]
    · split
      · split
        · exact weak (by omega) h3
        · rename_i hak hb
          subst hak
          have hb' : b ≠ 0#8 := hb
          simp [cellsWfFrom, hl, hb', h3]
      · simp [cellsWfFrom, h1, h2', ih (k + 1) h3 (by omega)]

theorem cellRead_eq_zero (lo : Nat) (cs : List Host.Cell) (a : Nat) (h : cellsWfFrom lo cs = true) (hl : a < lo) :
    cellRead cs a = 0 := by
  induction cs generalizing lo with
  | nil => rfl
  | cons p cs ih =>
    obtain ⟨k, v⟩ := p
    simp only [cellsWfFrom, Bool.and_eq_true, decide_eq_true_eq, bne_iff_ne, ne_eq] at h
    have : k ≠ a := by omega
    simp [cellRead, this, ih (k + 1) h.2 (by omega)]

theorem cellRead_cellWrite (lo : Nat) (cs : List Host.Cell) (a x : Nat) (b : Byte) (h : cellsWfFrom lo cs = true) :
    cellRead (cellWrite cs a b) x = if x = a then b else cellRead cs x := by
  induction cs generalizing lo with
  | nil =>
    simp only [cellWrite]
    by_cases e : x = a
    · subst e
      split <;> simp [cellRead, *]
    · split <;> simp [cellRead, Ne.symm e]
  | cons p cs ih =>
    obtain ⟨k, v⟩ := p
    simp only [cellsWfFrom, Bool.and_eq_true, decide_eq_true_eq, bne_iff_ne, ne_eq] at h
    obtain ⟨⟨h1, h2⟩, h3⟩ := h
    have zero : ∀ y, y < k + 1 → cellRead cs y = 0 := fun y hy => cellRead_eq_zero (k + 1) cs y h3 hy
    simp only [cellWrite]
    split
    · rename_i hak
      by_cases e : x = a
      · subst e
        have hk : k ≠ x := by omega
        split <;> simp [cellRead, *]
        exact zero x (by omega)
      · split <;> simp [cellRead, Ne.symm e]
    · split
      · rename_i hak
        subst hak
        by_cases e : x = a
        · subst e
          split
          · rename_i hb
            simp [hb, zero x (by omega)]
          · simp [cellRead]
        · split <;> simp [cellRead, Ne.symm e]
      · rename_i hak hne
        simp only [cellRead, ih (k + 1) h3]
        by_cases e : k = x
        · subst e
          simp [Ne.symm hne]
        · simp [e]

theorem cellsWrite_wf (cs : List Host.Cell) (a : Nat) (bs : List Byte) (h : cellsWfFrom 0 cs = true) :
    cellsWfFrom 0 (cellsWrite cs a bs) = true := by
  induction bs generalizing cs a with
  | nil => exact h
  | cons b bs ih => exact ih _ _ (cellWrite_wf 0 cs a b h (by omega))

theorem mem_cellsWrite {cs : List Host.Cell} {a : Nat} {bs : List Byte} {c : Host.Cell} (h : c ∈ cellsWrite cs a bs) :
    c ∈ cs ∨ (a ≤ c.1 ∧ c.1 < a + bs.length) := by
  induction bs generalizing cs a with
  | nil => exact .inl h
  | cons b bs ih =>
    rcases ih h with h | h
    · rcases mem_cellWrite h with rfl | h
      · exact .inr (by simp)
      · exact .inl h
    · exact .inr (by simp; omega)

theorem cellRead_cellsWrite (cs : List Host.Cell) (a : Nat) (bs : List Byte) (x : Nat) (h : cellsWfFrom 0 cs = true) :
    cellRead (cellsWrite cs a bs) x = if a ≤ x ∧ x < a + bs.length then bs.getD (x - a) 0 else cellRead cs x := by
  induction bs generalizing cs a with
  | nil =>
    have : ¬ (a ≤ x ∧ x < a + ([] : List Byte).length) := by simp
    rw [if_neg this]
    rfl
  | cons b bs ih =>
    simp only [cellsWrite]
    rw [ih _ _ (cellWrite_wf 0 cs a b h (by omega)), cellRead_cellWrite 0 cs a x b h]
    by_cases e : x = a
    · subst e
      have : ¬ (x + 1 ≤ x ∧ x < x + 1 + bs.length) := by omega
      simp [this]
    · by_cases g : a + 1 ≤ x ∧ x < a + 1 + bs.length
      · have g' : a ≤ x ∧ x < a + (b :: bs).length := by simp; omega
        have : x - a = (x - (a + 1)) + 1 := by omega
        rw [if_pos g, if_pos g', this, List.getD_cons_succ]
      · have g' : ¬ (a ≤ x ∧ x < a + (b :: bs).length) := by simp; omega
        rw [if_neg g, if_neg g', if_neg e]

theorem cellsClear_wf (lo hi : Nat) (cs : List Host.Cell) (h : cellsWfFrom 0 cs = true) :
    cellsWfFrom 0 (cellsClear cs lo hi) = true := by
  rw [cellsWf_iff] at h ⊢
  exact ⟨fun c hc => h.1 c ((List.mem_filter.mp hc).1), h.2.sublist List.filter_sublist⟩

theorem cellRead_cellsClear (lo hi : Nat) (cs : List Host.Cell) (x : Nat) :
    cellRead (cellsClear cs lo hi) x = if lo ≤ x ∧ x < hi then 0 else cellRead cs x := by
  induction cs with
  | nil => simp [cellsClear, cellRead]
  | cons p cs ih =>
    obtain ⟨k, v⟩ := p
    unfold cellsClear at ih ⊢
    by_cases hk : k < lo ∨ hi ≤ k
    · rw [List.filter_cons_of_pos (by simpa using hk)]
      simp only [cellRead, ih]
      by_cases e : k = x
      · subst e
        have : ¬ (lo ≤ k ∧ k < hi) := by omega
        simp [this]
      · simp [e]
    · rw [List.filter_cons_of_neg (by simpa using hk), ih]
      by_cases e : k = x
      · subst e
        have : lo ≤ k ∧ k < hi := by omega
        simp [this]
      · simp [cellRead, e]

theorem mem_copyFold {l acc : List Host.Cell} {src dst : Nat} {c : Host.Cell}
    (h : c ∈ l.foldl (fun acc c => cellWrite acc (c.1 - src + dst) c.2) acc) :
    c ∈ acc ∨ ∃ d ∈ l, c.1 = d.1 - src + dst := by
  induction l generalizing acc with
  | nil => exact .inl h
  | cons d l ih =>
    rcases ih h with h | ⟨e, he, h⟩
    · rcases mem_cellWrite h with rfl | h
      · exact .inr ⟨d, by simp, rfl⟩
      · exact .inl h
    · exact .inr ⟨e, by simp [he], h⟩

theorem copyFold_wf (l acc : List Host.Cell) (src dst : Nat) (h : cellsWfFrom 0 acc = true) :
    cellsWfFrom 0 (l.foldl (fun acc c => cellWrite acc (c.1 - src + dst) c.2) acc) = true := by
  induction l generalizing acc with
  | nil => exact h
  | cons d l ih => exact ih _ (cellWrite_wf 0 acc _ _ h (by omega))

theorem cellsCopy_wf (cs : List Host.Cell) (src dst len : Nat) (h : cellsWfFrom 0 cs = true) :
    cellsWfFrom 0 (cellsCopy cs src dst len) = true :=
  copyFold_wf _ _ _ _ (cellsClear_wf _ _ _ h)

/-- A copied memory lists a byte of the target only where the source listed one. -/
theorem mem_cellsCopy {cs : List Host.Cell} {src dst len : Nat} {c : Host.Cell} (h : c ∈ cellsCopy cs src dst len) :
    (c ∈ cs ∧ (c.1 < dst ∨ dst + len ≤ c.1)) ∨
    ∃ d ∈ cs, src ≤ d.1 ∧ d.1 < src + len ∧ c.1 = d.1 - src + dst := by
  rcases mem_copyFold h with h | ⟨d, hd, h⟩
  · have := List.mem_filter.mp h
    exact .inl ⟨this.1, by simpa using this.2⟩
  · have := List.mem_filter.mp hd
    have r := this.2
    simp only [Bool.and_eq_true, decide_eq_true_eq] at r
    exact .inr ⟨d, this.1, r.1, r.2, h⟩

theorem cellRead_copyFold (l acc : List Host.Cell) (src dst x : Nat) (hacc : cellsWfFrom 0 acc = true)
    (hl : l.Pairwise fun c d => c.1 < d.1) (hs : ∀ c ∈ l, src ≤ c.1) :
    cellRead (l.foldl (fun acc c => cellWrite acc (c.1 - src + dst) c.2) acc) x =
      if dst ≤ x ∧ l.any (fun c => decide (c.1 = x - dst + src)) then cellRead l (x - dst + src) else cellRead acc x := by
  induction l generalizing acc with
  | nil => simp
  | cons c l ih =>
    rw [List.pairwise_cons] at hl
    rw [List.foldl_cons, ih _ (cellWrite_wf 0 acc _ _ hacc (by omega)) hl.2 fun d hd => hs d (by simp [hd]),
      cellRead_cellWrite 0 _ _ _ _ hacc]
    have hc : src ≤ c.1 := hs c (by simp)
    by_cases e : x = c.1 - src + dst
    · have hx : x - dst + src = c.1 := by omega
      have hd : dst ≤ x := by omega
      have none_ : ¬ (l.any fun d => decide (d.1 = c.1)) := by
        simp only [List.any_eq_true, decide_eq_true_eq, not_exists, not_and]
        intro d hd
        have := hl.1 d hd
        omega
      rw [if_neg (by rw [hx]; exact fun h => none_ h.2), if_pos e, if_pos ⟨hd, by simp [hx]⟩, hx]
      simp [cellRead]
    · by_cases hd : dst ≤ x
      · have hne : c.1 ≠ x - dst + src := by omega
        simp [hd, hne, e, cellRead]
      · simp [hd, e]

theorem cellRead_filter (cs : List Host.Cell) (p : Nat → Bool) (x : Nat) (hp : p x = true) :
    cellRead (cs.filter fun c => p c.1) x = cellRead cs x := by
  induction cs with
  | nil => rfl
  | cons c cs ih =>
    obtain ⟨k, v⟩ := c
    by_cases hk : p k
    · rw [List.filter_cons_of_pos (by simpa using hk)]
      simp [cellRead, ih]
    · rw [List.filter_cons_of_neg (by simpa using hk), ih]
      have : k ≠ x := fun e => hk (e ▸ hp)
      simp [cellRead, this]

theorem cellRead_of_not_any (cs : List Host.Cell) (x : Nat) (h : cs.any (fun c => decide (c.1 = x)) = false) : cellRead cs x = 0 := by
  induction cs with
  | nil => rfl
  | cons c cs ih =>
    obtain ⟨k, v⟩ := c
    simp only [List.any_cons, Bool.or_eq_false_iff, decide_eq_false_iff_not] at h
    simp [cellRead, h.1, ih h.2]

/-- A copy reads, in the target, as the source did before. -/
theorem cellRead_cellsCopy (cs : List Host.Cell) (src dst len x : Nat) (h : cellsWfFrom 0 cs = true) :
    cellRead (cellsCopy cs src dst len) x =
      if dst ≤ x ∧ x < dst + len then cellRead cs (x - dst + src) else cellRead cs x := by
  have hw := (cellsWf_iff 0 cs).mp h
  unfold cellsCopy
  rw [cellRead_copyFold _ _ _ _ _ (cellsClear_wf _ _ _ h) (hw.2.sublist List.filter_sublist)
    (fun c hc => by have := (List.mem_filter.mp hc).2; simp at this; exact this.1), cellRead_cellsClear]
  by_cases g : dst ≤ x ∧ x < dst + len
  · rw [if_pos g]
    have hf := cellRead_filter cs (fun a => decide (src ≤ a) && decide (a < src + len)) (x - dst + src)
      (by simp; omega)
    by_cases ha : (cs.filter fun c => decide (src ≤ c.1) && decide (c.1 < src + len)).any fun c => decide (c.1 = x - dst + src)
    · rw [if_pos ⟨g.1, ha⟩, hf, if_pos g]
    · rw [if_neg (by simp only [not_and]; exact fun _ => ha), if_pos g, ← hf,
        cellRead_of_not_any _ _ (by simpa only [Bool.not_eq_true] using ha)]
  · rw [if_neg g]
    have : ¬ (dst ≤ x ∧ ((cs.filter fun c => decide (src ≤ c.1) && decide (c.1 < src + len)).any
        fun c => decide (c.1 = x - dst + src)) = true) := by
      rintro ⟨h1, h2⟩
      obtain ⟨c, hc, e⟩ := List.any_eq_true.mp h2
      have r := (List.mem_filter.mp hc).2
      simp only [Bool.and_eq_true, decide_eq_true_eq] at r e
      omega
    rw [if_neg this, if_neg g]

/-! ## Undefined ranges -/

/-- Two ranges share no address. -/
def Undef.apart (u v : Undef) : Prop := v.hi ≤ u.lo ∨ u.hi ≤ v.lo

theorem looseWf_iff (cs : List Host.Cell) (us : List Undef) : looseWf cs us = true ↔
    (∀ u ∈ us, u.lo < u.hi ∧ ∀ c ∈ cs, ¬ (u.lo ≤ c.1 ∧ c.1 < u.hi)) ∧ us.Pairwise Undef.apart := by
  induction us with
  | nil => simp [looseWf]
  | cons u us ih =>
    simp only [looseWf, Bool.and_eq_true, decide_eq_true_eq, ih, List.all_eq_true, List.mem_cons, forall_eq_or_imp,
      List.pairwise_cons, Undef.has, Undef.apart, Bool.or_eq_true, Bool.not_eq_true', Bool.and_eq_false_iff,
      decide_eq_false_iff_not]
    constructor
    · rintro ⟨⟨⟨h1, h2⟩, h3⟩, h4, h5⟩
      exact ⟨⟨⟨h1, fun c hc => by have := h3 c hc; omega⟩, h4⟩, h2, h5⟩
    · rintro ⟨⟨⟨h1, h3⟩, h4⟩, h2, h5⟩
      exact ⟨⟨⟨h1, h2⟩, fun c hc => by have := h3 c hc; omega⟩, h4, h5⟩

theorem mem_part {u v : Undef} {lo hi : Nat} (h : v ∈ u.part lo hi) :
    v.lo = max u.lo lo ∧ v.hi = min u.hi hi ∧ v.lo < v.hi := by
  unfold Undef.part at h
  split at h
  · rename_i hl
    simp at h
    subst h
    exact ⟨rfl, rfl, hl⟩
  · simp at h

theorem mem_looseCut {us : List Undef} {lo hi : Nat} {v : Undef} (hu : ∀ u ∈ us, u.lo < u.hi) (h : v ∈ looseCut us lo hi) :
    v.lo < v.hi ∧ (hi ≤ lo ∨ v.hi ≤ lo ∨ hi ≤ v.lo) ∧ ∃ u ∈ us, u.lo ≤ v.lo ∧ v.hi ≤ u.hi := by
  unfold looseCut at h
  split at h
  · rename_i hh
    exact ⟨hu v h, .inl hh, v, h, by omega, by omega⟩
  · obtain ⟨u, hu', hv⟩ := List.mem_flatMap.mp h
    rcases List.mem_append.mp hv with hv | hv
    · have := mem_part hv
      exact ⟨by omega, .inr (.inl (by omega)), u, hu', by omega, by omega⟩
    · have := mem_part hv
      exact ⟨by omega, .inr (.inr (by omega)), u, hu', by omega, by omega⟩

theorem part_pairwise (u : Undef) (lo hi : Nat) : (u.part lo hi).Pairwise Undef.apart := by
  unfold Undef.part
  split <;> simp

theorem looseCut_apart (us : List Undef) (lo hi : Nat) (h : us.Pairwise Undef.apart) : (looseCut us lo hi).Pairwise Undef.apart := by
  unfold looseCut
  split
  · exact h
  · rename_i hlt
    rw [List.pairwise_flatMap]
    refine ⟨fun u _ => ?_, h.imp fun {u v} huv x hx y hy => ?_⟩
    · rw [List.pairwise_append]
      refine ⟨part_pairwise _ _ _, part_pairwise _ _ _, fun x hx y hy => ?_⟩
      have hx := mem_part hx
      have hy := mem_part hy
      unfold Undef.apart
      omega
    · unfold Undef.apart at huv ⊢
      have hx : u.lo ≤ x.lo ∧ x.hi ≤ u.hi := by
        rcases List.mem_append.mp hx with hx | hx <;> have := mem_part hx <;> omega
      have hy : v.lo ≤ y.lo ∧ y.hi ≤ v.hi := by
        rcases List.mem_append.mp hy with hy | hy <;> have := mem_part hy <;> omega
      omega

theorem mem_looseMove {us : List Undef} {src dst len : Nat} {w : Undef} (h : w ∈ looseMove us src dst len) :
    ∃ u ∈ us, w.lo = max u.lo src - src + dst ∧ w.hi = min u.hi (src + len) - src + dst ∧
      max u.lo src < min u.hi (src + len) := by
  obtain ⟨u, hu, hv⟩ := List.mem_flatMap.mp h
  obtain ⟨v, hp, rfl⟩ := List.mem_map.mp hv
  have := mem_part hp
  refine ⟨u, hu, ?_, ?_, by omega⟩
  · simp only [this.1]
  · simp only [this.2.1]

theorem looseMove_apart (us : List Undef) (src dst len : Nat) (h : us.Pairwise Undef.apart) :
    (looseMove us src dst len).Pairwise Undef.apart := by
  unfold looseMove
  rw [List.pairwise_flatMap]
  refine ⟨fun u _ => ?_, h.imp fun {u v} huv x hx y hy => ?_⟩
  · unfold Undef.part
    split <;> simp
  · obtain ⟨x', hx', rfl⟩ := List.mem_map.mp hx
    obtain ⟨y', hy', rfl⟩ := List.mem_map.mp hy
    have hx' := mem_part hx'
    have hy' := mem_part hy'
    unfold Undef.apart at huv ⊢
    simp only
    omega

/-! ## Every operation keeps the canonical form -/

theorem memWrite_wf (s : State) (a : Nat) (bs : List Byte) (h : s.mem.wf = true) : (s.memWrite a bs).mem.wf = true := by
  simp only [Mem.wf, Bool.and_eq_true, looseWf_iff] at h ⊢
  obtain ⟨h1, h2, h3⟩ := h
  refine ⟨cellsWrite_wf _ _ _ h1, fun u hu => ?_, looseCut_apart _ _ _ h3⟩
  have hu := mem_looseCut (fun u hu => (h2 u hu).1) hu
  refine ⟨hu.1, fun c hc => ?_⟩
  obtain ⟨_, hr, v, hv, hlo, hhi⟩ := hu
  rcases mem_cellsWrite hc with hc | hc
  · have := (h2 v hv).2 c hc
    omega
  · omega

theorem memClear_wf (s : State) (lo hi : Nat) (h : s.mem.wf = true) : (s.memClear lo hi).mem.wf = true := by
  simp only [Mem.wf, Bool.and_eq_true, looseWf_iff] at h ⊢
  obtain ⟨h1, h2, h3⟩ := h
  refine ⟨cellsClear_wf _ _ _ h1, fun u hu => ?_, looseCut_apart _ _ _ h3⟩
  have hu := mem_looseCut (fun u hu => (h2 u hu).1) hu
  refine ⟨hu.1, fun c hc => ?_⟩
  obtain ⟨_, _, v, hv, hlo, hhi⟩ := hu
  have := (h2 v hv).2 c ((List.mem_filter.mp hc).1)
  omega

theorem memCopy_wf (s : State) (src dst len : Nat) (h : s.mem.wf = true) : (s.memCopy src dst len).mem.wf = true := by
  simp only [Mem.wf, Bool.and_eq_true, looseWf_iff] at h ⊢
  obtain ⟨h1, h2, h3⟩ := h
  refine ⟨cellsCopy_wf _ _ _ _ h1, fun u hu => ?_, ?_⟩
  · rcases List.mem_append.mp hu with hu | hu
    · obtain ⟨v, hv, e1, e2, e3⟩ := mem_looseMove hu
      refine ⟨by omega, fun c hc => ?_⟩
      rcases mem_cellsCopy hc with ⟨hc, hr⟩ | ⟨d, hd, r1, r2, r3⟩
      · omega
      · have := (h2 v hv).2 d hd
        omega
    · have hu := mem_looseCut (fun u hu => (h2 u hu).1) hu
      refine ⟨hu.1, fun c hc => ?_⟩
      obtain ⟨_, hr, v, hv, hlo, hhi⟩ := hu
      rcases mem_cellsCopy hc with ⟨hc, _⟩ | ⟨d, hd, r1, r2, r3⟩
      · have := (h2 v hv).2 c hc
        omega
      · omega
  · change (looseMove s.mem.loose src dst len ++ looseCut s.mem.loose dst (dst + len)).Pairwise Undef.apart
    rw [List.pairwise_append]
    refine ⟨looseMove_apart _ _ _ _ h3, looseCut_apart _ _ _ h3, fun x hx y hy => ?_⟩
    obtain ⟨v, hv, e1, e2, e3⟩ := mem_looseMove hx
    have hy := mem_looseCut (fun u hu => (h2 u hu).1) hy
    unfold Undef.apart
    omega

theorem memFree_wf (s : State) (lo len : Nat) (h : s.mem.wf = true) : (s.memFree lo len).mem.wf = true := by
  unfold State.memFree
  split
  · exact h
  · rename_i hl
    simp only [Mem.wf, Bool.and_eq_true, looseWf_iff] at h ⊢
    obtain ⟨h1, h2, h3⟩ := h
    refine ⟨cellsClear_wf _ _ _ h1, fun u hu => ?_, ?_⟩
    · rcases List.mem_cons.mp hu with rfl | hu
      · refine ⟨by simp; omega, fun c hc => ?_⟩
        have := (List.mem_filter.mp hc).2
        simp at this ⊢
        omega
      · have hu := mem_looseCut (fun u hu => (h2 u hu).1) hu
        refine ⟨hu.1, fun c hc => ?_⟩
        obtain ⟨_, _, v, hv, hlo, hhi⟩ := hu
        have := (h2 v hv).2 c ((List.mem_filter.mp hc).1)
        omega
    · change (_ :: looseCut s.mem.loose lo (lo + len)).Pairwise Undef.apart
      rw [List.pairwise_cons]
      refine ⟨fun v hv => ?_, looseCut_apart _ _ _ h3⟩
      have hv := mem_looseCut (fun u hu => (h2 u hu).1) hv
      unfold Undef.apart
      simp only
      omega

/-! ## Reads -/

/-- With no undefined range, a byte is what is listed. -/
theorem byte_of_loose_nil (m : Mem) (a : Nat) (h : m.loose = []) : m.byte a = cellRead m.cells a := by
  simp [Mem.byte, h]

/-- What a write of bytes leaves at every address, where no undefined range stands. -/
theorem byte_memWrite (s : State) (a : Nat) (bs : List Byte) (x : Nat) (h : s.mem.wf = true) (hl : s.mem.loose = []) :
    (s.memWrite a bs).mem.byte x =
      if a ≤ x ∧ x < a + bs.length then bs.getD (x - a) 0 else s.mem.byte x := by
  have hc : cellsWfFrom 0 s.mem.cells = true := by
    simp only [Mem.wf, Bool.and_eq_true] at h
    exact h.1
  rw [byte_of_loose_nil _ _ (by simp [State.memWrite, hl, looseCut]), byte_of_loose_nil _ _ hl]
  exact cellRead_cellsWrite _ _ _ _ hc

/-- What zeroing leaves at every address, where no undefined range stands. -/
theorem byte_memClear (s : State) (lo hi x : Nat) (hl : s.mem.loose = []) :
    (s.memClear lo hi).mem.byte x = if lo ≤ x ∧ x < hi then 0 else s.mem.byte x := by
  rw [byte_of_loose_nil _ _ (by simp [State.memClear, hl, looseCut]), byte_of_loose_nil _ _ hl]
  exact cellRead_cellsClear _ _ _ _

/-- What a copy leaves at every address, where no undefined range stands. -/
theorem byte_memCopy (s : State) (src dst len x : Nat) (h : s.mem.wf = true) (hl : s.mem.loose = []) :
    (s.memCopy src dst len).mem.byte x =
      if dst ≤ x ∧ x < dst + len then s.mem.byte (x - dst + src) else s.mem.byte x := by
  have hc : cellsWfFrom 0 s.mem.cells = true := by
    simp only [Mem.wf, Bool.and_eq_true] at h
    exact h.1
  rw [byte_of_loose_nil _ _ (by simp [State.memCopy, hl, looseCut, looseMove]), byte_of_loose_nil _ _ hl,
    byte_of_loose_nil _ _ hl]
  exact cellRead_cellsCopy _ _ _ _ _ hc

end Sys2Proof.Machine
end

