-- ==== Sys2Proof/Laws/PerInstr.lean ====
section
/-! SUPPORT. The family `Fits`, per command: whether the command can reach the module is decided by its operand lists and
subindex alone, and by nothing for a command without such an operand. -/

namespace Sys2Proof.Laws.Fits

/-- The commands with an operand list of fixed length, a control frame or a subindex of fixed range, by their checks; the others
always fit. -/
def Statement (i : Instr) : Prop :=
  i.wellFormed = match i with
    | .referencesPhaseDone m f t => referencesWellFormed m f t
    | .mbistDone r _ => repairsWellFormed r
    | .paceWindow l => lapsWellFormed l
    | .watchdogSample l => samplesWellFormed l
    | .hdmWrite _ b => hdmWellFormed b
    | .contextFetchDone _ i => contextWellFormed i
    | .credit _ b => controlWellFormed 0 b
    | .replayReq _ b => controlWellFormed 1 b
    | .retrain _ b _ => controlWellFormed 2 b
    | .splitNotice _ b => controlWellFormed 3 b
    | .pairNotice _ b => controlWellFormed 4 b
    | .partitionWrite _ sub v => partitionWellFormed sub v
    | .thermalSample t => tempsWellFormed t
    | _ => true

theorem powerGood (mrstHigh : Bool) (pairId : BitVec 2) : Statement (.powerGood mrstHigh pairId) := rfl
theorem powerGoodFall (cause : PowerFallCause) : Statement (.powerGoodFall cause) := rfl
theorem thermalTrip (sensor : Fin 20) (reading : Int) : Statement (.thermalTrip sensor reading) := rfl
theorem mrstNAssert (ns : Nat) : Statement (.mrstNAssert ns) := rfl
theorem mrstNDeassert : Statement .mrstNDeassert := rfl
theorem moduleReset (h : ReqHdr) (value : Byte) : Statement (.moduleReset h value) := rfl
theorem resetRelease (pairId : BitVec 2) : Statement (.resetRelease pairId) := rfl
theorem flashDirectoryRead (readable : Bool) : Statement (.flashDirectoryRead readable) := rfl
theorem bootTimeLimit : Statement .bootTimeLimit := rfl
theorem referencesPhaseDone (monitors : List (List Nat)) (fused : List Nat) (temps : List Int) : Statement (.referencesPhaseDone monitors fused temps) := rfl
theorem analogueCheckDone (check : AnalogueCheck) (passed : Bool) : Statement (.analogueCheckDone check passed) := rfl
theorem mbistDone (repairs : List Nat) (bufferOk : Bool) : Statement (.mbistDone repairs bufferOk) := rfl
theorem sliceStart (slice : Fin 1024) (hdr : SliceHdr) : Statement (.sliceStart slice hdr) := rfl
theorem sliceDone (slice : Fin 1024) (response : BitVec 128) (patternsOk : Bool) : Statement (.sliceDone slice response patternsOk) := rfl
theorem sliceTimeout (slice : Fin 1024) : Statement (.sliceTimeout slice) := rfl
theorem fwLoadDone (v : ImageVerdict) : Statement (.fwLoadDone v) := rfl
theorem paceWindow (laps : List Nat) : Statement (.paceWindow laps) := rfl
theorem controlStep : Statement .controlStep := rfl
theorem watchdogSample (samples : List (Bool × Nat)) : Statement (.watchdogSample samples) := rfl
theorem stallDetected (region : Fin 118) : Statement (.stallDetected region) := rfl
theorem reasonRead (h : ReqHdr) : Statement (.reasonRead h) := rfl
theorem mcWatchdogExpiry (digestOk : Bool) : Statement (.mcWatchdogExpiry digestOk) := rfl
theorem mcRestartDone : Statement .mcRestartDone := rfl
theorem read (h : ReqHdr) (index : BitVec 16) (sub : Byte) (offset : BitVec 32) (length : BitVec 16) : Statement (.read h index sub offset length) := rfl
theorem write (h : ReqHdr) (index : BitVec 16) (sub : Byte) (offset : BitVec 32) (data : List Byte) : Statement (.write h index sub offset data) := rfl
theorem describe (h : ReqHdr) (index : BitVec 16) (name : NameTail) : Statement (.describe h index name) := rfl
theorem next (h : ReqHdr) (index : BitVec 16) (name : NameTail) : Statement (.next h index name) := rfl
theorem store (h : ReqHdr) (index : BitVec 16) (sub : Byte) (offset : BitVec 32) (length : BitVec 16) : Statement (.store h index sub offset length) := rfl
theorem storeDone (ok : Bool) : Statement (.storeDone ok) := rfl
theorem defaults (h : ReqHdr) (index : BitVec 16) (sub : Byte) (offset : BitVec 32) (length : BitVec 16) : Statement (.defaults h index sub offset length) := rfl
theorem operateWrite1 (h : ReqHdr) : Statement (.operateWrite1 h) := rfl
theorem operateWrite0 (h : ReqHdr) : Statement (.operateWrite0 h) := rfl
theorem drainEnd : Statement .drainEnd := rfl
theorem drainTimeout : Statement .drainTimeout := rfl
theorem holdToConfig (h : ReqHdr) : Statement (.holdToConfig h) := rfl
theorem operateWriteSafe (h : ReqHdr) (value : Byte) : Statement (.operateWriteSafe h value) := rfl
theorem enableWrite1 (h : ReqHdr) (subsystem : Fin 14) : Statement (.enableWrite1 h subsystem) := rfl
theorem enableWrite0 (h : ReqHdr) (subsystem : Fin 14) : Statement (.enableWrite0 h subsystem) := rfl
theorem softReset (h : ReqHdr) (subsystem : Fin 14) : Statement (.softReset h subsystem) := rfl
theorem linkUp (hp : HalfPort) (gts : Nat) (width : Nat) (proto : LinkProto) (protocols : BitVec 4) : Statement (.linkUp hp gts width proto protocols) := rfl
theorem linkRetry (hp : HalfPort) : Statement (.linkRetry hp) := rfl
theorem accEnumStart (hp : HalfPort) (found : EnumResult) : Statement (.accEnumStart hp found) := rfl
theorem enumRetryTimeout (hp : HalfPort) : Statement (.enumRetryTimeout hp) := rfl
theorem accLinkDown (hp : HalfPort) : Statement (.accLinkDown hp) := rfl
theorem payloadReadFail (ring : RingId) (kind : ReadKind) : Statement (.payloadReadFail ring kind) := rfl
theorem accPerstPulseEnd : Statement .accPerstPulseEnd := rfl
theorem hostLoss (cause : HostLossCause) : Statement (.hostLoss cause) := rfl
theorem holdEntryDone : Statement .holdEntryDone := rfl
theorem hostPerstDeassert : Statement .hostPerstDeassert := rfl
theorem hostConfigRequest (access : HostAccess) (offset : BitVec 20) (data : BitVec 32) : Statement (.hostConfigRequest access offset data) := rfl
theorem vfEnable (enable : Bool) (numVfs : Nat) : Statement (.vfEnable enable numVfs) := rfl
theorem hdmDecoderCommit (base : BitVec 64) : Statement (.hdmDecoderCommit base) := rfl
theorem hdmRead (addr : BitVec 64) (uncorrectable : Bool) : Statement (.hdmRead addr uncorrectable) := rfl
theorem hdmWrite (addr : BitVec 64) (bytes : List (Option Byte)) : Statement (.hdmWrite addr bytes) := rfl
theorem hostSnoop (line : BitVec 64) : Statement (.hostSnoop line) := rfl
theorem accUpstreamRequest (hp : HalfPort) (isWrite : Bool) (addr : BitVec 64) (bytes : List Byte) (enables : Bool) : Statement (.accUpstreamRequest hp isWrite addr bytes enables) := rfl
theorem ideFail : Statement .ideFail := rfl
theorem flushReadDone (hp : HalfPort) : Statement (.flushReadDone hp) := rfl
theorem flushReadFail (hp : HalfPort) (cause : FlushFailCause) : Statement (.flushReadFail hp cause) := rfl
theorem doorbell (w : ApertureWrite) : Statement (.doorbell w) := rfl
theorem cqDoorbell (w : ApertureWrite) : Statement (.cqDoorbell w) := rfl
theorem pollRead (ring : RingId) (own : Bool) : Statement (.pollRead ring own) := rfl
theorem ringEntryEmpty (ring : RingId) : Statement (.ringEntryEmpty ring) := rfl
theorem rereadIssue (ring : RingId) (j : Nat) : Statement (.rereadIssue ring j) := rfl
theorem rereadReturn (ring : RingId) (j : Nat) (own : Bool) : Statement (.rereadReturn ring j own) := rfl
theorem nop (qpn : Nat) (e : SqeBits) : Statement (.nop qpn e) := rfl
theorem send (qpn : Nat) (e : SqeBits) : Statement (.send qpn e) := rfl
theorem recv (ring : RingId) (e : SqeBits) : Statement (.recv ring e) := rfl
theorem writeOperation (qpn : Nat) (e : SqeBits) : Statement (.writeOperation qpn e) := rfl
theorem writeImm (qpn : Nat) (e : SqeBits) : Statement (.writeImm qpn e) := rfl
theorem readOperation (qpn : Nat) (e : SqeBits) : Statement (.readOperation qpn e) := rfl
theorem fetchAdd64 (qpn : Nat) (e : SqeBits) : Statement (.fetchAdd64 qpn e) := rfl
theorem cmpSwap64 (qpn : Nat) (e : SqeBits) : Statement (.cmpSwap64 qpn e) := rfl
theorem collective (qpn : Nat) (e : SqeBits) (reads : CollReads) : Statement (.collective qpn e reads) := rfl
theorem abort (qpn : Nat) (e : SqeBits) : Statement (.abort qpn e) := rfl
theorem fragmentReadDone (ring : RingId) (index : RingIndex) (frags : List FragBits) : Statement (.fragmentReadDone ring index frags) := rfl
theorem egressSchedule (port : NetPort) (payload : List Byte) : Statement (.egressSchedule port payload) := rfl
theorem demandReportTimer (qpn : Nat) : Statement (.demandReportTimer qpn) := rfl
theorem eqHeadWrite (func : Nat) (head : RingIndex) (arm : Bool) : Statement (.eqHeadWrite func head arm) := rfl
theorem createEq (c : CtrlHdr) (f : EqFields) : Statement (.createEq c f) := rfl
theorem createCq (c : CtrlHdr) (f : CqFields) : Statement (.createCq c f) := rfl
theorem createSrq (c : CtrlHdr) (f : SrqFields) : Statement (.createSrq c f) := rfl
theorem createQp (c : CtrlHdr) (f : QpFields) : Statement (.createQp c f) := rfl
theorem modifyQp (c : CtrlHdr) (f : ModifyFields) : Statement (.modifyQp c f) := rfl
theorem regRegion (c : CtrlHdr) (f : RegionFields) : Statement (.regRegion c f) := rfl
theorem createComm (c : CtrlHdr) (f : CommFields) : Statement (.createComm c f) := rfl
theorem queryQp (c : CtrlHdr) : Statement (.queryQp c) := rfl
theorem loadSchedule (c : CtrlHdr) (f : ImageFields) : Statement (.loadSchedule c f) := rfl
theorem arithBind (c : CtrlHdr) (f : BindFields) : Statement (.arithBind c f) := rfl
theorem loadKernel (c : CtrlHdr) (f : ImageFields) : Statement (.loadKernel c f) := rfl
theorem defineShard (c : CtrlHdr) (f : ShardFields) : Statement (.defineShard c f) := rfl
theorem shardXfer (c : CtrlHdr) (f : XferFields) : Statement (.shardXfer c f) := rfl
theorem shardXferDone (func : Nat) (shard : Nat) (outcome : Fin 3) (moved : Nat) (bytes : List Byte) : Statement (.shardXferDone func shard outcome moved bytes) := rfl
theorem freezeFunc (c : CtrlHdr) : Statement (.freezeFunc c) := rfl
theorem funcFrozen (func : Nat) : Statement (.funcFrozen func) := rfl
theorem saveFunc (c : CtrlHdr) (f : ImageXfer) (imageLength : Nat) : Statement (.saveFunc c f imageLength) := rfl
theorem saveDone (func : Nat) (ok : Bool) : Statement (.saveDone func ok) := rfl
theorem restoreFunc (c : CtrlHdr) (f : ImageXfer) (alias_ : BitVec 32) (img : Option VfImage) : Statement (.restoreFunc c f alias_ img) := rfl
theorem restoreDone (func : Nat) : Statement (.restoreDone func) := rfl
theorem destroyEq (c : CtrlHdr) : Statement (.destroyEq c) := rfl
theorem destroyCq (c : CtrlHdr) : Statement (.destroyCq c) := rfl
theorem destroySrq (c : CtrlHdr) : Statement (.destroySrq c) := rfl
theorem destroyQp (c : CtrlHdr) : Statement (.destroyQp c) := rfl
theorem qpFree (qpn : Nat) : Statement (.qpFree qpn) := rfl
theorem resetCq (c : CtrlHdr) : Statement (.resetCq c) := rfl
theorem deregRegion (c : CtrlHdr) : Statement (.deregRegion c) := rfl
theorem destroyComm (c : CtrlHdr) : Statement (.destroyComm c) := rfl
theorem commFree (func : Nat) (comm : Nat) : Statement (.commFree func comm) := rfl
theorem unloadSchedule (c : CtrlHdr) : Statement (.unloadSchedule c) := rfl
theorem arithUnbind (c : CtrlHdr) : Statement (.arithUnbind c) := rfl
theorem unloadKernel (c : CtrlHdr) : Statement (.unloadKernel c) := rfl
theorem removeShard (c : CtrlHdr) : Statement (.removeShard c) := rfl
theorem forwardFunc (c : CtrlHdr) (target : BitVec 32) : Statement (.forwardFunc c target) := rfl
theorem thawFunc (c : CtrlHdr) : Statement (.thawFunc c) := rfl
theorem linkFrameRx (link : Link) (f : RxFrame) : Statement (.linkFrameRx link f) := rfl
theorem ethFrameRx (port : NetPort) (f : EthFrame) : Statement (.ethFrameRx port f) := rfl
theorem pktSend (a : Arrival) : Statement (.pktSend a) := rfl
theorem pktWrite (a : Arrival) : Statement (.pktWrite a) := rfl
theorem pktWriteImm (a : Arrival) : Statement (.pktWriteImm a) := rfl
theorem pktReadReq (a : Arrival) : Statement (.pktReadReq a) := rfl
theorem pktFetchAddReq (a : Arrival) : Statement (.pktFetchAddReq a) := rfl
theorem pktCmpSwapReq (a : Arrival) : Statement (.pktCmpSwapReq a) := rfl
theorem pktReadResp (a : Arrival) : Statement (.pktReadResp a) := rfl
theorem pktAtomicResp (a : Arrival) : Statement (.pktAtomicResp a) := rfl
theorem pktAck (a : Arrival) : Statement (.pktAck a) := rfl
theorem pktNak (a : Arrival) : Statement (.pktNak a) := rfl
theorem pktGrant (a : Arrival) : Statement (.pktGrant a) := rfl
theorem pktCollData (a : Arrival) (rau : Option RauFault) : Statement (.pktCollData a rau) := rfl
theorem pktCollPreamble (a : Arrival) : Statement (.pktCollPreamble a) := rfl
theorem atomicopDone (qpn : Nat) (psn : Psn) (original : Option (BitVec 64)) : Statement (.atomicopDone qpn psn original) := rfl
theorem cnpRx (qpn : Nat) : Statement (.cnpRx qpn) := rfl
theorem roceRateIncrease (qpn : Nat) : Statement (.roceRateIncrease qpn) := rfl
theorem ackDelayExpiry (qpn : Nat) : Statement (.ackDelayExpiry qpn) := rfl
theorem retransmitTimeout (qpn : Nat) : Statement (.retransmitTimeout qpn) := rfl
theorem sackLoss (qpn : Nat) (psn : Psn) : Statement (.sackLoss qpn psn) := rfl
theorem rnrDelayExpiry (qpn : Nat) : Statement (.rnrDelayExpiry qpn) := rfl
theorem parkPauseExpiry (qpn : Nat) : Statement (.parkPauseExpiry qpn) := rfl
theorem contextFetchDone (qpn : Nat) (image : List Byte) : Statement (.contextFetchDone qpn image) := rfl
theorem contextFetchFail (qpn : Nat) : Statement (.contextFetchFail qpn) := rfl
theorem fetchEntryFree (port : NetPort) : Statement (.fetchEntryFree port) := rfl
theorem hotSlotAvailable : Statement .hotSlotAvailable := rfl
theorem evictionSweep : Statement .evictionSweep := rfl
theorem suppressionLapse (port : NetPort) (srcModule : ModAddr) (qpn : Qpn) : Statement (.suppressionLapse port srcModule qpn) := rfl
theorem bucketRefill : Statement .bucketRefill := rfl
theorem grantTick : Statement .grantTick := rfl
theorem creditExpiry (qpn : Nat) : Statement (.creditExpiry qpn) := rfl
theorem tmSample : Statement .tmSample := rfl
theorem histClear (h : ReqHdr) (value : Byte) : Statement (.histClear h value) := rfl
theorem pfcFrameRx (port : NetPort) (priority : Vc) (quanta : Nat) : Statement (.pfcFrameRx port priority quanta) := rfl
theorem pfcPauseExpiry (port : NetPort) (vc : Vc) : Statement (.pfcPauseExpiry port vc) := rfl
theorem pauseFrameRx (port : NetPort) : Statement (.pauseFrameRx port) := rfl
theorem controlFrameTimer (link : Link) : Statement (.controlFrameTimer link) := rfl
theorem credit (link : Link) (frame : List Byte) : Statement (.credit link frame) := rfl
theorem replayReq (link : Link) (frame : List Byte) : Statement (.replayReq link frame) := rfl
theorem retrain (link : Link) (frame : List Byte) (lanes : BitVec 4) : Statement (.retrain link frame lanes) := rfl
theorem splitNotice (link : Link) (frame : List Byte) : Statement (.splitNotice link frame) := rfl
theorem pairNotice (link : Link) (frame : List Byte) : Statement (.pairNotice link frame) := rfl
theorem replayTimer (link : Link) : Statement (.replayTimer link) := rfl
theorem laneFault (lane : Fin 24) (lanes : BitVec 4) : Statement (.laneFault lane lanes) := rfl
theorem laneSerWindow (lane : Fin 24) (errors : Nat) (lanes : BitVec 4) : Statement (.laneSerWindow lane errors lanes) := rfl
theorem laneRetryTimer (link : Link) (lanes : BitVec 4) : Statement (.laneRetryTimer link lanes) := rfl
theorem portDown (link : Link) (cause : PortDownCause) : Statement (.portDown link cause) := rfl
theorem portRetrainTimer (link : Link) : Statement (.portRetrainTimer link) := rfl
theorem portUp (link : Link) (lanes : BitVec 4) : Statement (.portUp link lanes) := rfl
theorem stuckTimeout (port : NetPort) (vc : Vc) : Statement (.stuckTimeout port vc) := rfl
theorem routingModeWrite (h : ReqHdr) (value : Byte) : Statement (.routingModeWrite h value) := rfl
theorem partitionWrite (h : ReqHdr) (sub : Byte) (value : BitVec 16) : Statement (.partitionWrite h sub value) := rfl
theorem initDone : Statement .initDone := rfl
theorem memUe (addr : Nat) (consumer : UeConsumer) : Statement (.memUe addr consumer) := rfl
theorem scrubRead (channel : Fin 96) (result : ScrubResult) : Statement (.scrubRead channel result) := rfl
theorem channelIdle (channel : Fin 96) : Statement (.channelIdle channel) := rfl
theorem memHot (package : Fin 24) (mr4 : Byte) (above85 : Bool) : Statement (.memHot package mr4 above85) := rfl
theorem take (h : ReqHdr) (f : CastFields) : Statement (.take h f) := rfl
theorem restore (h : ReqHdr) (f : CastFields) : Statement (.restore h f) := rfl
theorem discard (h : ReqHdr) (f : CastFields) : Statement (.discard h f) := rfl
theorem castCopyStart : Statement .castCopyStart := rfl
theorem castCopyDone (crc : BitVec 32) : Statement (.castCopyDone crc) := rfl
theorem restoreCopyDone (crc : BitVec 32) : Statement (.restoreCopyDone crc) := rfl
theorem castMirrorDone : Statement .castMirrorDone := rfl
theorem collLeaveQueued (comm : Nat) (k : Nat) (inputs : List (List Byte)) : Statement (.collLeaveQueued comm k inputs) := rfl
theorem collSlow (comm : Nat) (k : Nat) : Statement (.collSlow comm k) := rfl
theorem collTimeout (comm : Nat) (k : Nat) : Statement (.collTimeout comm k) := rfl
theorem applyBegin (comm : Nat) (k : Nat) : Statement (.applyBegin comm k) := rfl
theorem applyGroup (comm : Nat) (k : Nat) (group : Nat) (rau : Option RauFault) : Statement (.applyGroup comm k group rau) := rfl
theorem applyPhaseEnd (comm : Nat) (k : Nat) : Statement (.applyPhaseEnd comm k) := rfl
theorem arbitrationVerdict (unit : Fin 68) (lanes : List ArbLane) (replayPassed : Bool) (info : IssueInfo) : Statement (.arbitrationVerdict unit lanes replayPassed info) := rfl
theorem patinaWritten : Statement .patinaWritten := rfl
theorem rotateTurn : Statement .rotateTurn := rfl
theorem rotationScanDone (unit : Fin 68) (slicesOk : Bool) (failedPattern : Option Nat) : Statement (.rotationScanDone unit slicesOk failedPattern) := rfl
theorem patternImport (h : ReqHdr) (entries : List PatternIn) : Statement (.patternImport h entries) := rfl
theorem recordSelect (h : ReqHdr) (id : BitVec 32) : Statement (.recordSelect h id) := rfl
theorem heartbeatTimer : Statement .heartbeatTimer := rfl
theorem heartbeat (sublink : Fin 2) (hb : Heartbeat) : Statement (.heartbeat sublink hb) := rfl
theorem partnerLossTimeout : Statement .partnerLossTimeout := rfl
theorem records (sublink : Fin 2) (rs : List MirrorRecord) : Statement (.records sublink rs) := rfl
theorem recordAck (rseq : BitVec 32) : Statement (.recordAck rseq) := rfl
theorem bulk (b : BulkData) : Statement (.bulk b) := rfl
theorem graftForwardRx (a : Arrival) : Statement (.graftForwardRx a) := rfl
theorem yieldWriteDiscard : Statement .yieldWriteDiscard := rfl
theorem pairSyncDone : Statement .pairSyncDone := rfl
theorem msgToPfWrite (h : ReqHdr) (offset : BitVec 32) (data : List Byte) : Statement (.msgToPfWrite h offset data) := rfl
theorem msgToPfRead (h : ReqHdr) (offset : BitVec 32) (length : BitVec 16) : Statement (.msgToPfRead h offset length) := rfl
theorem msgFromPfWrite (h : ReqHdr) (offset : BitVec 32) (data : List Byte) : Statement (.msgFromPfWrite h offset data) := rfl
theorem functionLevelReset (func : Nat) : Statement (.functionLevelReset func) := rfl
theorem vfFlrDone (func : Nat) : Statement (.vfFlrDone func) := rfl
theorem keyLoad (h : ReqHdr) (f : KeyFields) : Statement (.keyLoad h f) := rfl
theorem keyClear (h : ReqHdr) (f : KeyFields) : Statement (.keyClear h f) := rfl
theorem svnCommit (h : ReqHdr) (value : Byte) : Statement (.svnCommit h value) := rfl
theorem ownerRootWrite (h : ReqHdr) (value : List Byte) (chainsToLyandez : Bool) (flashOk : Bool) : Statement (.ownerRootWrite h value chainsToLyandez flashOk) := rfl
theorem getVersion (via : Via) : Statement (.getVersion via) := rfl
theorem getCapabilities (via : Via) : Statement (.getCapabilities via) := rfl
theorem negotiateAlgorithms (via : Via) (offered : Bool) : Statement (.negotiateAlgorithms via offered) := rfl
theorem getDigests (via : Via) : Statement (.getDigests via) := rfl
theorem getCertificate (via : Via) (slot : Byte) (offset : BitVec 16) (length : BitVec 16) : Statement (.getCertificate via slot offset length) := rfl
theorem challenge (via : Via) (nonce : BitVec 256) : Statement (.challenge via nonce) := rfl
theorem getMeasurements (via : Via) (index : Byte) : Statement (.getMeasurements via index) := rfl
theorem keyExchange (via : Via) : Statement (.keyExchange via) := rfl
theorem finish (session : Nat) (rootDigest : Option (List Byte)) (kek : Option (BitVec 256)) : Statement (.finish session rootDigest kek) := rfl
theorem spdmHeartbeat (session : Nat) : Statement (.spdmHeartbeat session) := rfl
theorem keyUpdate (session : Nat) : Statement (.keyUpdate session) := rfl
theorem endSession (session : Nat) : Statement (.endSession session) := rfl
theorem vendorDefinedRequest (session : Nat) (m : IdeKm) : Statement (.vendorDefinedRequest session m) := rfl
theorem rollLeadExpiry (qpn : Nat) : Statement (.rollLeadExpiry qpn) := rfl
theorem rollGraceExpiry (qpn : Nat) : Statement (.rollGraceExpiry qpn) := rfl
theorem fwCommit (h : ReqHdr) (value : Byte) (v : ImageVerdict) : Statement (.fwCommit h value v) := rfl
theorem fwCommitDone (ok : Bool) : Statement (.fwCommitDone ok) := rfl
theorem thermalSample (temps : List Int) : Statement (.thermalSample temps) := rfl
theorem thermalCapRelease : Statement .thermalCapRelease := rfl
theorem vinSample (mv : Nat) (ma : Nat) (mw : Nat) : Statement (.vinSample mv ma mw) := rfl
theorem i3cEntdaa (addr : BitVec 7) : Statement (.i3cEntdaa addr) := rfl
theorem i3cSetdaa (addr : BitVec 7) : Statement (.i3cSetdaa addr) := rfl
theorem bypass : Statement .bypass := rfl
theorem idcode : Statement .idcode := rfl
theorem samplePreload (boundary : List Bool) : Statement (.samplePreload boundary) := rfl
theorem extest (boundary : List Bool) : Statement (.extest boundary) := rfl
theorem extestPulse (boundary : List Bool) : Statement (.extestPulse boundary) := rfl
theorem extestTrain (boundary : List Bool) : Statement (.extestTrain boundary) := rfl
theorem placementTlpAcknowledged (qpn : Nat) (psn : Psn) : Statement (.placementTlpAcknowledged qpn psn) := rfl
theorem cxlMemCmp (hp : HalfPort) : Statement (.cxlMemCmp hp) := rfl
theorem ideStart : Statement .ideStart := rfl
theorem sessionHeartbeatExpiry (session : Nat) : Statement (.sessionHeartbeatExpiry session) := rfl

end Sys2Proof.Laws.Fits
end

