-- ==== Sys2Proof/Laws/Tables.lean ====
section
/-! SUPPORT. What the operations on tables and on objects can do: a read after a write, and what a write leaves alone. -/

namespace Sys2Proof.Machine

/-- Keys strictly rising: the canonical form of a table. -/
def keysRise {α : Type} : Tab α → Prop
  | [] => True
  | (k, _) :: t => (∀ p ∈ t, k < p.1) ∧ keysRise t

@[simp] theorem tget_nil {α : Type} (n : Nat) : tget ([] : Tab α) n = none := rfl

@[simp] theorem tget_cons {α : Type} (k : Nat) (v : α) (t : Tab α) (n : Nat) :
    tget ((k, v) :: t) n = if k = n then some v else tget t n := rfl

@[simp] theorem tget_tput_self {α : Type} (t : Tab α) (n : Nat) (x : α) : tget (tput t n x) n = some x := by
  induction t with
  | nil => simp [tput]
  | cons p t ih =>
    obtain ⟨k, v⟩ := p
    simp only [tput]
    split
    · simp
    · split
      · simp
      · have : k ≠ n := by omega
        simp [this, ih]

theorem tget_tput_ne {α : Type} (t : Tab α) {n m : Nat} (x : α) (h : m ≠ n) : tget (tput t n x) m = tget t m := by
  induction t with
  | nil => simp [tput, h.symm]
  | cons p t ih =>
    obtain ⟨k, v⟩ := p
    simp only [tput]
    split
    · simp [h.symm]
    · split
      · rename_i e
        subst e
        simp [h.symm]
      · simp [ih]

theorem tget_tdel_ne {α : Type} (t : Tab α) {n m : Nat} (h : m ≠ n) : tget (tdel t n) m = tget t m := by
  induction t with
  | nil => rfl
  | cons p t ih =>
    obtain ⟨k, v⟩ := p
    simp only [tdel]
    split
    · rename_i e
      subst e
      simp [h.symm]
    · simp [ih]

theorem tget_eq_none_of_lt {α : Type} (t : Tab α) (n : Nat) (h : ∀ p ∈ t, n < p.1) : tget t n = none := by
  induction t with
  | nil => rfl
  | cons p t ih =>
    obtain ⟨k, v⟩ := p
    have h1 : n < k := h (k, v) (by simp)
    have h2 : k ≠ n := by omega
    simp [h2, ih fun q hq => h q (by simp [hq])]

theorem tget_tdel_self {α : Type} (t : Tab α) (n : Nat) (h : keysRise t) : tget (tdel t n) n = none := by
  induction t with
  | nil => rfl
  | cons p t ih =>
    obtain ⟨k, v⟩ := p
    simp only [tdel]
    split
    · rename_i e
      subst e
      exact tget_eq_none_of_lt t k h.1
    · rename_i e
      simp [e, ih h.2]

theorem mem_tput {α : Type} {t : Tab α} {n : Nat} {x : α} {p : Nat × α} (h : p ∈ tput t n x) : p = (n, x) ∨ p ∈ t := by
  induction t with
  | nil => simpa [tput] using h
  | cons q t ih =>
    obtain ⟨k, v⟩ := q
    simp only [tput] at h
    split at h
    · simpa using h
    · split at h
      · simp at h
        rcases h with h | h
        · exact .inl h
        · simp [h]
      · rw [List.mem_cons] at h
        rcases h with h | h
        · simp [h]
        · rcases ih h with h | h
          · exact .inl h
          · simp [h]

theorem mem_tdel {α : Type} {t : Tab α} {n : Nat} {p : Nat × α} (h : p ∈ tdel t n) : p ∈ t := by
  induction t with
  | nil => simp [tdel] at h
  | cons q t ih =>
    obtain ⟨k, v⟩ := q
    simp only [tdel] at h
    split at h
    · simp [h]
    · simp at h
      rcases h with h | h
      · simp [h]
      · simp [ih h]

/-- Every table operation keeps the canonical form. -/
theorem keysRise_tput {α : Type} (t : Tab α) (n : Nat) (x : α) (h : keysRise t) : keysRise (tput t n x) := by
  induction t with
  | nil => simp [tput, keysRise]
  | cons p t ih =>
    obtain ⟨k, v⟩ := p
    obtain ⟨h1, h2⟩ := h
    simp only [tput]
    split
    · rename_i hl
      refine ⟨fun q hq => ?_, h1, h2⟩
      simp at hq
      rcases hq with rfl | hq
      · exact hl
      · exact Nat.lt_trans hl (h1 q hq)
    · split
      · rename_i e
        subst e
        exact ⟨h1, h2⟩
      · refine ⟨fun q hq => ?_, ih h2⟩
        rcases mem_tput hq with rfl | hq
        · simp only
          omega
        · exact h1 q hq

theorem keysRise_tdel {α : Type} (t : Tab α) (n : Nat) (h : keysRise t) : keysRise (tdel t n) := by
  induction t with
  | nil => exact h
  | cons p t ih =>
    obtain ⟨k, v⟩ := p
    obtain ⟨h1, h2⟩ := h
    simp only [tdel]
    split
    · exact h2
    · exact ⟨fun q hq => h1 q (mem_tdel hq), ih h2⟩

/-! ## Objects -/

/-- A value just set is read back. -/
theorem State.obj_setObj (s : State) (r : ObjRow) (v i k : Nat) (h : keysRise s.od) : (s.setObj r v i k).obj r i k = v := by
  unfold State.obj
  rw [State.setObj_od]
  split
  · rename_i e
    rw [tget_tdel_self _ _ h]
    simp [e]
  · simp

/-- An object of another key is left alone. -/
theorem State.obj_setObj_ne (s : State) (r r' : ObjRow) (v i k i' k' : Nat) (h : r'.key i' k' ≠ r.key i k) :
    (s.setObj r v i k).obj r' i' k' = s.obj r' i' k' := by
  unfold State.obj
  rw [State.setObj_od]
  split
  · rw [tget_tdel_ne _ h]
  · rw [tget_tput_ne _ _ h]

theorem State.keysRise_setObj (s : State) (r : ObjRow) (v i k : Nat) (h : keysRise s.od) : keysRise (s.setObj r v i k).od := by
  rw [State.setObj_od]
  split
  · exact keysRise_tdel _ _ h
  · exact keysRise_tput _ _ _ h

/-- An object that no update of the table has touched reads the same. -/
theorem State.obj_of_od (s t : State) (r : ObjRow) (i k : Nat) (h : t.od = s.od) : t.obj r i k = s.obj r i k := by
  unfold State.obj
  rw [h]

end Sys2Proof.Machine
end

