-- ==== Sys2Proof/Tests/Slice0.lean ====
section
/-! SUPPORT. Tests: each check of WellFormed refuses an ill-formed term; values from the spec's worked examples; single
steps; and for each statement with hypotheses a witness, concrete states and operands that meet the hypotheses of each of its
clauses together. -/

section

set_option Elab.async false

namespace Sys2Proof.Tests

open Sys2Proof Sys2Proof.Machine

/-! ## WellFormed: an ill-formed term for each check -/

theorem test_laps_short_refused : Instr.wellFormed (.paceWindow []) = false := by decide
theorem test_samples_short_refused : Instr.wellFormed (.watchdogSample [(true, 0)]) = false := by decide
theorem test_temps_short_refused : Instr.wellFormed (.thermalSample [20]) = false := by decide
theorem test_references_short_refused : Instr.wellFormed (.referencesPhaseDone [] [] []) = false := by decide
theorem test_repairs_short_refused : Instr.wellFormed (.mbistDone [0, 0, 0] true) = false := by decide
theorem test_hdm_write_short_refused : Instr.wellFormed (.hdmWrite 0 [some 1]) = false := by decide
theorem test_context_short_refused : Instr.wellFormed (.contextFetchDone 4 []) = false := by decide
theorem test_control_short_refused : Instr.wellFormed (.credit 0 (List.replicate 39 0)) = false := by decide
theorem test_control_type_refused : Instr.wellFormed (.replayReq 0 (List.replicate 40 0)) = false := by decide
theorem test_control_type_taken : Instr.wellFormed (.credit 0 (List.replicate 40 0)) = true := by decide
theorem test_partition_sub_refused :
    Instr.wellFormed (.partitionWrite ⟨.pfMailbox, none, 0, 0, 0, 0, 0, 0, true, none⟩ 7 0) = false := by decide
theorem test_preserve_wide_refused :
    Instr.wellFormed (.partitionWrite ⟨.pfMailbox, none, 0, 0, 0, 0, 0, 0, true, none⟩ 6 256) = false := by decide
theorem test_ill_formed_stops : exec (.paceWindow []) State.reset = .fault .illFormed := by rfl

/-! ## Values -/

/-- The add of the worked example after Table 15-4: 1.5 plus 0.3125 and a little. -/
theorem test_fp32_add : (fp32.encode 1 0 ((fp32.decode 0x3FC00000).add (fp32.decode 0x3EA00001))).1 = 0x3FE80000 := by decide +kernel
/-- The residues of the right and the faulty sum there. -/
theorem test_residues : encResidue 1 0x3FE80000 = 30 ∧ encResidue 1 0x3FE80400 = 0 := by decide +kernel
/-- Its verdict, UNIT. -/
theorem test_verdict : laneVerdict 1 ⟨9, 0x3FE80400, 30, 0x3FE80000⟩ = 1 := by decide +kernel
/-- Table 13-11: one MXFP8 combine, 3 + 224 and -0.5 + 0.5. -/
theorem test_mxfp8_combine :
    (encodeVec 6 1 [] (List.zipWith (redop 0) (decodeVec 6 ([0x44, 0xB0] ++ List.replicate 30 0 ++ [0x7F]))
      (decodeVec 6 ([0x7E, 0x38] ++ List.replicate 30 0 ++ [0x7E])))).1 = [0x7E, 0] ++ List.replicate 30 0 ++ [0x7E] := by decide +kernel
/-- Table 13-8, GEN 5: the sum with the residual, what is sent, and what stays. -/
theorem test_error_feedback :
    let s := efSum (fp32.decode 0x3F806000) (fp32.decode 0x3B000000)
    s = fp32.decode 0x3F80A000 ∧ (bf16.encode 1 0 s).1 = 0x3F81 ∧ efLeft s (bf16.decode 0x3F81) = 0xBB400000 := by decide +kernel
/-- The Castagnoli check value, and the Philox-4x32-10 one for an all-zero counter and key. -/
theorem test_crc32c : crc32c [0x31, 0x32, 0x33, 0x34, 0x35, 0x36, 0x37, 0x38, 0x39] = 0xE3069283 := by decide +kernel
theorem test_philox : philoxN 10 (0, 0, 0, 0) 0 0 = (0x6627E8D5, 0xE169C58D, 0xBC57AC4C, 0x9B00DBD8) := by decide +kernel

/-! ## Single steps -/

/-- The state that a command answers with; the state itself where it does not go on. -/
def after (c : Instr) (s : State) : State := match exec c s with
  | .next t => t
  | _ => s

theorem test_idle_step : step State.reset = .next { State.reset with timer := 1 } := by rfl
theorem test_power_good : (after (.powerGood true 0) { State.reset with mode := .off, power := { State.reset.power with good := false } }).mode = .bootRom := by decide +kernel
theorem test_power_fall : (after (.powerGoodFall .undervoltage) State.reset).mode = .off := by decide +kernel
theorem test_mrst_short : (after (.mrstNAssert 999) State.reset).mode = .bootRom := by decide +kernel
theorem test_mrst_long : (after (.mrstNAssert 1000) State.reset).mode = .reset := by decide +kernel
/-- R48 before CONFIG the service ports answer; an object that is not there is ABSENT, status 1. -/
theorem test_absent_object :
    ((after (.read ⟨.i3c 9, none, 0x32E41, 1, 0, 7, 0, 0, true, none⟩ 0x2999 1 0 8)
      { State.reset with mode := .config }).out.map fun o => match o with
        | .response r => r.status
        | _ => 99) = [1] := by decide +kernel
end Sys2Proof.Tests

namespace Sys2Proof.Tests.Boot
open Sys2Proof Sys2Proof.Machine
def R := State.reset
def s1 : State := { R with timer := 77, out := [.hostData [] true], freeCount := 3, mode := .operational, od := [(5, 6)], pending := [.drainEnd] }
def off : State := { R with power := { R.power with good := false }, mode := .off }
def v1 := { off with od := [(3,3)]}
def cst : State := { s1 with mem := { s1.mem with cells := [(4, 5)], dir := [⟨2, true, 1, 1, 1, 1, 1⟩, ⟨0, false, 0, 0, 0, 0, 0⟩, ⟨0, false, 0, 0, 0, 0, 0⟩, ⟨0, false, 0, 0, 0, 0, 0⟩] } }
def rst : State := { cst with mode := .reset, boot := { cst.boot with mrst := true, nextCause := 3 } }
def v2 := { rst with boot := { rst.boot with mrst := false } }
def t0 : State := { R with mode := .selfTest }
def t1 : State := { t0 with boot := { t0.boot with phase := 1 } }
def t2 : State := { t0 with boot := { t0.boot with phase := 2 } }
def t3 : State := { t0 with boot := { t0.boot with phase := 3, nextSlice := 300, lastStart := some 5 } }
def hd : SliceHdr := ⟨0, 8, 7, 9, true⟩
def t4 : State := { t3 with boot := { t3.boot with nextSlice := 1024, running := [⟨300, hd⟩, ⟨301, hd⟩] } }
def t5 : State := { t3 with boot := { t3.boot with nextSlice := 1024, running := [⟨300, hd⟩] } }
def f0 : State := { R with mode := .fwLoad }
def v5 := { t3 with boot := { t3.boot with running := [⟨30, hd⟩] } }
theorem witness_PowerCycle :
    (s1.power.good = true) ∧
    (s1.power.good = true ∧ 880 ≤ 900) ∧
    (off.power.good = false) ∧
    (800 < 880) ∧
    (v1.power.good = false) := by and_intros <;> decide +kernel
theorem witness_ModuleResetByContact :
    (1000 ≤ 1000 ∧ cst.power.good = true) ∧
    (999 < 1000) ∧
    (rst.boot.mrst = true) ∧
    (v2.mode = MState.reset ∧ v2.boot.mrst = false ∧ rising v2.od = true) ∧
    (rst.mode = MState.reset ∧ rst.boot.mrst = true) := by and_intros <;> decide +kernel
theorem witness_BootSteps :
    (R.mode = MState.bootRom) ∧
    (R.mode = MState.bootRom ∧ rising R.od = true) ∧
    (R.bootLimit = some 1000000000 ∧ rising R.od = true) ∧
    (s1.bootLimit = none) ∧
    (f0.mode = MState.fwLoad ∧ f0.flash.image = true ∧
      { headerOk := true, signerOk := true, signatureOk := true, svn := 3, version := 4 : ImageVerdict }.headerOk = true ∧
      { headerOk := true, signerOk := true, signatureOk := true, svn := 3, version := 4 : ImageVerdict }.signerOk = true ∧
      { headerOk := true, signerOk := true, signatureOk := true, svn := 3, version := 4 : ImageVerdict }.signatureOk = true ∧
      { headerOk := true, signerOk := true, signatureOk := true, svn := 3, version := 4 : ImageVerdict }.svn ≤ 64 ∧
      f0.flash.svnMin ≤ { headerOk := true, signerOk := true, signatureOk := true, svn := 3, version := 4 : ImageVerdict }.svn ∧
      rising f0.od = true) ∧
    (f0.mode = MState.fwLoad ∧
      f0.verify { headerOk := true, signerOk := true, signatureOk := false, svn := 3, version := 4 : ImageVerdict } f0.flash.image = 3 ∧
      3 ≠ 0 ∧ rising f0.od = true) := by and_intros <;> decide +kernel
theorem witness_SelfTestPhases :
    (t0.mode = MState.selfTest ∧ t0.boot.phase = 0) ∧
    (t1.mode = MState.selfTest ∧ t1.boot.phase = 1 ∧ t1.boot.analogDone.contains (AnalogueCheck.lpddr 3) = false ∧
      t1.analogChecks.contains (AnalogueCheck.lpddr 3) = true) ∧
    (t1.mode = MState.selfTest ∧ t1.boot.phase = 1 ∧ t1.boot.analogDone.contains (AnalogueCheck.lpddr 3) = false ∧
      t1.analogChecks.contains (AnalogueCheck.lpddr 3) = true ∧ rising t1.od = true) ∧
    (t2.mode = MState.selfTest ∧ t2.boot.phase = 2 ∧ 0 ≤ 64 ∧ 0 ≤ 64 ∧ 0 ≤ 64 ∧ 0 ≤ 64 ∧ rising t2.od = true) ∧
    (t2.mode = MState.selfTest ∧ t2.boot.phase = 2 ∧ rising t2.od = true ∧
      (true = false ∨ 64 < 0 ∨ 64 < 65 ∨ 64 < 0 ∨ 64 < 0)) := by and_intros <;> decide +kernel
theorem witness_ScanSlices :
    (t3.mode = MState.selfTest ∧ t3.boot.phase = 3 ∧ 300 = t3.boot.nextSlice ∧ t3.boot.running.length < 16 ∧
      t3.testPower + BitVec.toNat hd.power ≤ 480) ∧
    ((301 ≠ t3.boot.nextSlice ∨ 16 ≤ t3.boot.running.length ∨ 480 < t3.testPower + BitVec.toNat hd.power)) ∧
    ((272 ≤ 300 ∨ t4.flash.patterns = []) ∧
      List.find? (fun y => y.slice == 300) t4.boot.running = some { slice := 300, hdr := hd : SliceRun } ∧
      { slice := 300, hdr := hd : SliceRun }.hdr.crcOk = true ∧ t4.mode = MState.selfTest) ∧
    (272 ≤ 300 ∧ List.find? (fun y => y.slice == 300) t5.boot.running = some { slice := 300, hdr := hd : SliceRun } ∧
      t5.mode = MState.selfTest ∧ rising t5.od = true ∧
      ({ slice := 300, hdr := hd : SliceRun }.hdr.crcOk = false ∨ 5 ≠ if t5.boot.quick = true then { slice := 300, hdr := hd : SliceRun }.hdr.quickSignature else { slice := 300, hdr := hd : SliceRun }.hdr.signature)) ∧
    (30 < 272 ∧ List.find? (fun y => y.slice == 30) v5.boot.running = some { slice := 30, hdr := hd : SliceRun } ∧
      v5.mode = MState.selfTest ∧ rising v5.od = true) := by and_intros <;> decide +kernel
end Sys2Proof.Tests.Boot

namespace Sys2Proof.Tests.Pace
open Sys2Proof Sys2Proof.Machine
def R := State.reset
def op : State := { R with timer := 77, mode := .operational, od := [(5, 6)] }
def hotS : State := { (op.setObj Row.thermalStatus 1) with power := { op.power with coolSince := some 50, capCounted := 9 } }
def smp : List (Bool × Nat) := List.replicate 60 (true, 4) ++ List.replicate 58 (false, 2)
def st : State := { R with pace := { R.pace with watchdogs := [(70, ⟨4, 8⟩)] }, timer := 9 }
def v4 := { op with boot := { op.boot with restartedAt := some 5 } }
def v5 := { op with mgmt := { op.mgmt with busy := some (.mcRestart, []) } }
def v7 := { op with mode := .safe }
def v8 := { op with mode := .off }
theorem witness_PaceControl :
    (op.alive = true ∧ 1 ≤ 390 ∧ 390 ≤ 16000 ∧ ceilDiv 10000000 (390 * 64) ≤ 65535 ∧ op.obj Row.paceMonExcluded = 0 ∧
      rising op.od = true ∧ op.pace.deviations = List.replicate 32 0 ∧ op.onBeat 1 10000 = true) ∧
    (op.firmwareRuns = true ∧ 16 ≤ op.validMonitors.length ∧ rising op.od = true ∧ op.onBeat 2 50000 = true) ∧
    (v7.alive = true ∧ v7.firmwareRuns = false ∧ rising v7.od = true) ∧
    (v8.alive = false) := by and_intros <;> decide +kernel
theorem witness_MonitorLoss :
    (((op.setObj Row.paceLive 500).setObj Row.paceMonExcluded 131071).firmwareRuns = true ∧
      ((op.setObj Row.paceLive 500).setObj Row.paceMonExcluded 131071).validMonitors.length < 16 ∧
      rising ((op.setObj Row.paceLive 500).setObj Row.paceMonExcluded 131071).od = true) ∧
    (op.firmwareRuns = true ∧ (List.replicate 32 390).length = 32 ∧ rising op.od = true) := by and_intros <;> decide +kernel
theorem witness_Sensors :
    (R.alive = true ∧ R.power.excluded = 0 ∧ rising R.od = true ∧ R.onBeat 3 10000 = true ∧ -2 ^ 31 ≤ -20 ∧ -20 < 2 ^ 31) ∧
    (hotS.thermalCap = true ∧ hotS.power.coolSince = some 50 ∧ rising hotS.od = true) ∧
    ((op.thermalCap = false ∨ op.power.coolSince = none)) ∧
    (op.firmwareRuns = true ∧ rising op.od = true) ∧
    (op.alive = true ∧ 41999 < 2 ^ 32 ∧ 3 < 2 ^ 32 ∧ 4 < 2 ^ 32 ∧ rising op.od = true ∧ op.eqs = [] ∧
      op.onBeat 8 1000000 = true) := by and_intros <;> decide +kernel
theorem witness_Watchdogs :
    (op.alive = true ∧ op.mode ≠ MState.selfTest ∧ smp.length = 118 ∧ op.onBeat 4 1000 = true ∧
      rising op.pace.watchdogs = true) ∧
    (st.alive = true ∧ 8 ≤ (st.watchdog 70).run ∧ rising st.od = true ∧ rising st.pace.watchdogs = true) ∧
    ((st.watchdog 71).run < 8) ∧
    (op.firmwareRuns = true ∧ op.repeatedExpiry = false) ∧
    (v4.firmwareRuns = true ∧ (v4.repeatedExpiry = true ∨ true = false) ∧ rising v4.od = true) ∧
    (R.firmwareServes = false) ∧
    (v5.mgmt.busy = some (Busy.mcRestart, [])) ∧
    (R.restarting = false) := by and_intros <;> decide +kernel
theorem witness_ServicePorts :
    (op.i3cOpen = true) ∧
    (op.i3cOpen = true ∧ 57 = if op.boot.pairId = 1 then 58 else if op.boot.pairId = 2 then 59 else 57) ∧
    ((R.mode = MState.off ∨ R.mode = MState.reset ∨ R.mode = MState.bootRom)) ∧
    (R.power.good = true) := by and_intros <;> decide +kernel
end Sys2Proof.Tests.Pace

namespace Sys2Proof.Tests.Dict
open Sys2Proof Sys2Proof.Machine
def R := State.reset
def cf : State := { R with timer := 77, mode := .config, od := [(5, 6)], boot := { R.boot with firmware := true }, host := { R.host with perst := false } }
def op : State := { cf with mode := .operational, freeCount := 4 }
def hM : ReqHdr := ⟨.i3c 9, none, 0x32E41, 1, 0, 7, 0, 0, true, none⟩
def rd (h : ReqHdr) (i : BitVec 16) (k : Byte) : Req := ⟨h, .read, i, k, 0, 4, []⟩
def rT : Req := {rd hM 0x2103 1 with length := 8}
def cT : Instr := .read hM 0x2103 1 0 8
def oT : ObjRow := match cf.check467 rT false with | .object o _ _ _ => o | _ => Row.reason
def rG : Req := { hdr := hM, cmd := .read, index := 0x32FF, sub := 1, offset := 0, length := 4, data := [] }
def oRole : ObjRow := Row.role
def cG : Instr := .read hM 0x32FF 1 0 4
def ans : State := match exec cT cf with | .next u => u | _ => cf
def rsp : Response := (ans.storedFor rT [cT]).getD ⟨.pfMailbox, 0,0,0,0,0,0,0,[]⟩
def rD : Req := ⟨hM, .describe, 0x2103, 1, 0, 0, []⟩
def rN : Req := ⟨hM, .next, 0x2103, 1, 0, 0, []⟩
def cBad : Instr := .read hM 0x2999 1 0 8
def rBad : Req := ⟨hM, .read, 0x2999, 1, 0, 8, []⟩
def wr (i : BitVec 16) (k : Byte) (d : List Byte) : Req := ⟨hM, .write, i, k, 0, BitVec.ofNat 16 d.length, d⟩
def oOf (s : State) (r : Req) : ObjRow := match s.check467 r false with | .object o _ _ _ => o | _ => Row.reason
def rW1 : Req := wr 0x2100 1 [2]
def rO1 : Req := wr 0x2000 1 [1]
def oO1 : ObjRow := oOf cf rO1
def good : State := (cf.setRole 0 1 32 false).setObj Row.enable 0 10
def bad : State := cf.setRole 0 1 32 false
def code : Nat := ((bad.checkOperate).getD (0,0)).1
def word : Nat := ((bad.checkOperate).getD (0,0)).2
def rO0 : Req := wr 0x2000 1 [0]
def dr : State := { op with mgmt := { op.mgmt with busy := some (.drainOperate, [.operateWrite0 hM]) } }
def hd : State := { op with mode := .hold }
def sf : State := { cf with mode := .safe }
def dr10 : State := { op with mgmt := { op.mgmt with busy := some (.drainEnable 10, [.enableWrite0 hM 9]) } }
def rE1 : Req := wr (0x2011 + 9) 1 [1]
def rE0 : Req := wr (0x2011 + 9) 1 [0]
def rE11 : Req := wr (0x2011 + 10) 1 [1]
def op11 : State := op.setObj Row.enable 0 10
def c11 : Nat := ((op11.checkEnable 11).getD (0,0)).1
def w11 : Nat := ((op11.checkEnable 11).getD (0,0)).2
def op10 : State := op.setObj Row.enable 1 9
def op9 : State := op.setObj Row.enable 0 9
def rE2 : Req := wr (0x2011 + 2) 1 [0]
def op3 : State := (op.setObj Row.enable 1 2).setObj Row.enable 1 1
def c3 : Nat := ((op3.checkDisable 3).getD (0,0)).1
def w3 : Nat := ((op3.checkDisable 3).getD (0,0)).2
def ctr : State := { op with od := [(0xA60001, 5), (0xAD0001, 7), (0xAD0100, 8)] }
def rS8 : Req := wr (0x2011 + 8) 3 [1]
def v3 := {ctr with mode := .config}
def rSt : Req := ⟨hM, .store, 0, 0, 0, 0, []⟩
def stb : State := { cf with mgmt := { cf.mgmt with busy := some (.store, [.store hM 0 0 0 0]) }, flash := { cf.flash with copies := [some ⟨4, [], []⟩, none] } }
def rDf : Req := ⟨hM, .defaults, 0, 0, 0, 0, []⟩
def al : State := { cf with alert := true }
def hP : ReqHdr := { hM with via := .pfMailbox, func := 1 }
def vf : State := { op with tenant := ⟨2, true, [(1, ⟨1, true, none, none, 0, 0⟩)], []⟩ }
def rMsg : Req := ⟨hP, .read, 0xC001, 1, 0, 64, []⟩
theorem witness_ReadsAnswer :
    ((reqOf cT = some rT ∧ cf.takes rT [cT] = true ∧
      cf.check467 rT (cf.envOf cT rT).lyandez = Admitted.object oT [0] 0 false) ∧ rT.cmd = DictCmd.read ∧
      (false = true → ∀ (j : Nat), j ∈ [] → cf.content oT j 0 = cf.content oT 0 0)) ∧
    ((reqOf cG = some rG ∧ cf.takes rG [cG] = true ∧
      cf.check467 rG (cf.envOf cG rG).lyandez = Admitted.object oRole [0, 1, 2, 3, 4, 5, 6, 7] 0 true) ∧
      rG.cmd = DictCmd.read ∧ (∃ j, j ∈ [1, 2, 3, 4, 5, 6, 7] ∧ cf.content oRole j 0 ≠ cf.content oRole 0 0)) ∧
    (reqOf cT = some rT ∧ ans.listens rT.hdr.via = true ∧ ans.mgmt.busy = none ∧ ans.mgmt.waiting = [] ∧
      ans.storedFor rT [cT] = some rsp) ∧
    ((reqOf (.reasonRead hM) = some (rd hM 0x2000 2) ∧ al.takes (rd hM 0x2000 2) [.reasonRead hM] = true ∧
      al.check467 (rd hM 0x2000 2) (al.envOf (.reasonRead hM) (rd hM 0x2000 2)).lyandez = Admitted.object Row.reason [0] 0 false) ∧
      viaBit hM.via = 1) ∧
    ((reqOf (.msgToPfRead hP 0 64) = some rMsg ∧ vf.takes rMsg [.msgToPfRead hP 0 64] = true ∧
      vf.check467 rMsg (vf.envOf (.msgToPfRead hP 0 64) rMsg).lyandez = Admitted.object Row.msgToPf [65536] 0 false) ∧
      viaBit hP.via = 2 ∧ vf.windowOf rMsg = some 1) := by and_intros <;> decide +kernel
theorem witness_DescribeNextRefused :
    ((reqOf (Instr.describe hM 8451 ⟨1, 0⟩) = some rD ∧ cf.takes rD [Instr.describe hM 8451 ⟨1, 0⟩] = true ∧
      cf.check467 rD (cf.envOf (Instr.describe hM 8451 ⟨1, 0⟩) rD).lyandez = Admitted.object oT [0] 0 false)) ∧
    (reqOf (Instr.next hM 8451 ⟨1, 0⟩) = some rN ∧ cf.takes rN [Instr.next hM 8451 ⟨1, 0⟩] = true ∧
      cf.check467 rN (cf.envOf (Instr.next hM 8451 ⟨1, 0⟩) rN).lyandez = Admitted.bare) ∧
    (reqOf cBad = some rBad ∧ cf.takes rBad [cBad] = true ∧ cf.check467 rBad (cf.envOf cBad rBad).lyandez = Admitted.no 1) := by
      and_intros <;> decide +kernel
theorem witness_WritesStore :
    ((reqOf (Instr.write hM 8448 1 0 [2]) = some rW1 ∧ cf.takes rW1 [Instr.write hM 8448 1 0 [2]] = true ∧
      cf.check467 rW1 (cf.envOf (Instr.write hM 8448 1 0 [2]) rW1).lyandez = Admitted.object Row.paceProfile [0] 0 false) ∧
      plainObject Row.paceProfile = true ∧ rising cf.od = true) := by and_intros <;> decide +kernel
theorem witness_OperateWrites :
    ((reqOf (Instr.operateWrite1 hM) = some rO1 ∧ good.takes rO1 [Instr.operateWrite1 hM] = true ∧
      good.check467 rO1 (good.envOf (Instr.operateWrite1 hM) rO1).lyandez = Admitted.object oO1 [0] 0 false) ∧
      good.mode = MState.config ∧ good.checkOperate = none) ∧
    ((reqOf (Instr.operateWrite1 hM) = some rO1 ∧ bad.takes rO1 [Instr.operateWrite1 hM] = true ∧
      bad.check467 rO1 (bad.envOf (Instr.operateWrite1 hM) rO1).lyandez = Admitted.object oO1 [0] 0 false) ∧
      bad.mode = MState.config ∧ bad.checkOperate = some (code, word) ∧ bad.latched = false ∧ rising bad.od = true) ∧
    ((reqOf (Instr.operateWrite0 hM) = some rO0 ∧ op.takes rO0 [Instr.operateWrite0 hM] = true ∧
      op.check467 rO0 (op.envOf (Instr.operateWrite0 hM) rO0).lyandez = Admitted.object oO1 [0] 0 false) ∧
      op.mode = MState.operational ∧ op.host.entering = none) ∧
    (dr.mgmt.busy = some (Busy.drainOperate, [Instr.operateWrite0 hM]) ∧ dr.mode = MState.operational ∧
      dr.host.entering = none ∧ dr.drained Busy.drainOperate = true) ∧
    ((reqOf (Instr.holdToConfig hM) = some rO0 ∧ hd.takes rO0 [Instr.holdToConfig hM] = true ∧
      hd.check467 rO0 (hd.envOf (Instr.holdToConfig hM) rO0).lyandez = Admitted.object oO1 [0] 0 false) ∧
      hd.mode = MState.hold ∧ hd.canonical = true) ∧
    ((reqOf (Instr.operateWriteSafe hM 1) = some rO1 ∧ sf.takes rO1 [Instr.operateWriteSafe hM 1] = true ∧
      sf.check467 rO1 (sf.envOf (Instr.operateWriteSafe hM 1) rO1).lyandez = Admitted.object oO1 [0] 0 false) ∧
      sf.mode = MState.safe ∧ rising sf.od = true) := by and_intros <;> decide +kernel
theorem witness_OperateWrites_1 : ∀ (b : Busy × List Instr), sf.mgmt.busy = some b → b.fst ≠ Busy.drainOperate ∧
      ∀ (n : Nat), b.fst ≠ Busy.drainEnable n := by
  intro b h
  have e : sf.mgmt.busy = none := by decide +kernel
  rw [e] at h; exact absurd h (by simp)
theorem witness_SubsystemEnables :
    ((reqOf (Instr.enableWrite1 hM 9) = some rE1 ∧ cf.takes rE1 [Instr.enableWrite1 hM 9] = true ∧
      cf.check467 rE1 (cf.envOf (Instr.enableWrite1 hM 9) rE1).lyandez = Admitted.object Row.enable [9] 0 false) ∧
      Row.enable.index * 256 + Row.enable.sub = 2101505 ∧ cf.mode = MState.config ∧ rising cf.od = true) ∧
    ((reqOf (Instr.enableWrite0 hM 9) = some rE0 ∧ cf.takes rE0 [Instr.enableWrite0 hM 9] = true ∧
      cf.check467 rE0 (cf.envOf (Instr.enableWrite0 hM 9) rE0).lyandez = Admitted.object Row.enable [9] 0 false) ∧
      Row.enable.index * 256 + Row.enable.sub = 2101505 ∧ cf.mode = MState.config ∧ rising cf.od = true) ∧
    ((reqOf (Instr.enableWrite1 hM 10) = some rE11 ∧ op11.takes rE11 [Instr.enableWrite1 hM 10] = true ∧
      op11.check467 rE11 (op11.envOf (Instr.enableWrite1 hM 10) rE11).lyandez = Admitted.object Row.enable [10] 0 false) ∧
      Row.enable.index * 256 + Row.enable.sub = 2101505 ∧ op11.mode = MState.operational ∧
      op11.enableObj (10 + 1) = false ∧ op11.checkEnable (10 + 1) = some (c11, w11) ∧ op11.latched = false ∧
      rising op11.od = true) ∧
    ((reqOf (Instr.enableWrite1 hM 9) = some rE1 ∧ op9.takes rE1 [Instr.enableWrite1 hM 9] = true ∧
      op9.check467 rE1 (op9.envOf (Instr.enableWrite1 hM 9) rE1).lyandez = Admitted.object Row.enable [9] 0 false) ∧
      Row.enable.index * 256 + Row.enable.sub = 2101505 ∧ op9.mode = MState.operational ∧ op9.enableObj (9 + 1) = false ∧
      op9.checkEnable (9 + 1) = none ∧ rising op9.od = true) ∧
    ((reqOf (Instr.enableWrite0 hM 2) = some rE2 ∧ op3.takes rE2 [Instr.enableWrite0 hM 2] = true ∧
      op3.check467 rE2 (op3.envOf (Instr.enableWrite0 hM 2) rE2).lyandez = Admitted.object Row.enable [2] 0 false) ∧
      Row.enable.index * 256 + Row.enable.sub = 2101505 ∧ op3.mode = MState.operational ∧ op3.enableObj (2 + 1) = true ∧
      op3.checkDisable (2 + 1) = some (c3, w3) ∧ op3.latched = false ∧ rising op3.od = true) ∧
    ((reqOf (Instr.enableWrite0 hM 9) = some rE0 ∧ op10.takes rE0 [Instr.enableWrite0 hM 9] = true ∧
      op10.check467 rE0 (op10.envOf (Instr.enableWrite0 hM 9) rE0).lyandez = Admitted.object Row.enable [9] 0 false) ∧
      Row.enable.index * 256 + Row.enable.sub = 2101505 ∧ op10.mode = MState.operational ∧ op10.enableObj 10 = true ∧
      op10.checkDisable 10 = none) ∧
    (dr10.mgmt.busy = some (Busy.drainEnable 10, [Instr.enableWrite0 hM 9]) ∧ rising dr10.od = true) ∧
    ((reqOf (Instr.softReset hM 8) = some rS8 ∧ v3.takes rS8 [Instr.softReset hM 8] = true ∧
      v3.check467 rS8 (v3.envOf (Instr.softReset hM 8) rS8).lyandez = Admitted.object Row.softReset [8] 0 false) ∧
      Row.softReset.index * 256 + Row.softReset.sub = 2101507 ∧ (8 = 8 ∨ 8 = 9)) := by and_intros <;> decide +kernel
theorem witness_ConfigurationPage :
    (reqOf (Instr.store hM 0 0 0 0) = some rSt ∧ cf.takes rSt [Instr.store hM 0 0 0 0] = true ∧
      cf.check467 rSt (cf.envOf (Instr.store hM 0 0 0 0) rSt).lyandez = Admitted.bare) ∧
    (stb.mgmt.busy = some (Busy.store, [Instr.store hM 0 0 0 0]) ∧ stb.flash.copies.length = 2 ∧ rising stb.od = true) := by
      and_intros <;> decide +kernel
theorem witness_Defaults :
    (reqOf (Instr.defaults hM 0 0 0 0) = some rDf ∧ op.takes rDf [Instr.defaults hM 0 0 0 0] = true ∧
      rDf.malformed = false ∧ op.operate = true) := by and_intros <;> decide +kernel
end Sys2Proof.Tests.Dict

namespace Sys2Proof.Tests.Objects
open Sys2Proof Sys2Proof.Machine
def R := State.reset
def cf : State := { R with timer := 77, mode := .config, od := [(5, 6)], boot := { R.boot with firmware := true }, host := { R.host with perst := false }, power := { R.power with good := true } }
def op : State := { cf with mode := .operational, freeCount := 4 }
def hM : ReqHdr := ⟨.i3c 9, none, 0x32E41, 1, 0, 7, 0, 0, true, none⟩
def dg : List Byte := 7 :: List.replicate 63 0
def au (s : State) : State := { s with flash := { s.flash with owner := some 7 }, security := { s.security with sessions := [(1, ⟨.i3c 9, true, some dg, 0, 0x000102030405060708090a0b0c0d0e0f101112131415161718191a1b1c1d1e1f⟩)] } }
def hS : ReqHdr := { hM with session := some 1 }
def kf : KeyFields := ⟨5, 1, 3, true, [0x28, 0xC9, 0xF4, 0x04, 0xC4, 0xB8, 0x10, 0xF4, 0xCB, 0xCC, 0xB3, 0x5C, 0xFB, 0x87, 0xF8, 0x26, 0x3F, 0x57, 0x86, 0xE2, 0xD8, 0x0E, 0xD3, 0x26, 0xCB, 0xC7, 0xF0, 0xE7, 0x1A, 0x99, 0xF4, 0x3B, 0xFB, 0x98, 0x8B, 0x9B, 0x7A, 0x02, 0xDD, 0x21]⟩
def rq (c : Instr) : Req := (reqOf c).getD ⟨hM, .read, 0, 0, 0, 0, []⟩
def a := au cf
def a2 := a.setKeySlot 5 ⟨1, 1, 4, 77⟩
def v2 := {kf with usage := 0}
def v3 := {kf with reservedZero := false}
def im : State := cf.setBlob Row.fwImage [1,2,3]
def okv : ImageVerdict := ⟨true, true, true, 3, 9⟩
def v4 := {okv with svn := 70}
def pg : State := im.setObj Row.fwCommitStatus 2
def ar : State := a.setObj Row.fwSvn 5
def hi : State := (cf.setObj Row.depthHist 77 2 3).setObj Row.depthMax 9 1
def f5 : State := (op.setObj Row.enable 1 4)
def rc : State := { cf with flash := { cf.flash with records := [(0, [1])], nextRecord := 1 } }
def pt : PatternIn := ⟨1, 0x0001, 1, 0, 5, 6, 7, 8, 9, [1,2,3,4,5,6,7,8,9,10,11,12], true, true⟩
def vf : State := { op with tenant := ⟨2, true, [(1, ⟨1, false, none, none, 0, 0⟩)], []⟩ }
def hV : ReqHdr := ⟨.vfMailbox 1, none, 0x32E41, 1, 0, 8, 0, 0, true, none⟩
def hP : ReqHdr := ⟨.pfMailbox, none, 0x32E41, 1, 0, 8, 1, 0, true, none⟩
def hP2 : ReqHdr := { hP with func := 1, status := 0, reserved := 0 }
def vu : State := { vf with tenant := ⟨2, true, [(1, ⟨1, true, none, none, 0, 0⟩)], []⟩ }
def cs : State := op.setObj Row.castExtent 3
def cfd : CastFields := ⟨1, 2, 777, true⟩
def c2 : State := cs.setEntry 1 ⟨2, true, 9, 8, 3, 5, 6⟩
def v6 := {cfd with reservedZero := false}
set_option maxRecDepth 100000 in
theorem witness_KeyStore :
    (a.writesTo (Instr.keyLoad hS kf) (rq (Instr.keyLoad hS kf)) 8389121 0 = true ∧ rising a.od = true ∧
      kf.slot.toNat < 4096 ∧ kf.reservedZero = true ∧ (kf.usage = 1 ∨ kf.usage = 2) ∧ kf.keyGen ≠ 0 ∧
      (a.keySlot kf.slot.toNat).usage = 0) ∧
    (a2.writesTo (Instr.keyLoad hS kf) (rq (Instr.keyLoad hS kf)) 8389121 0 = true ∧ rising a2.od = true ∧
      kf.slot.toNat < 4096 ∧ kf.reservedZero = true ∧ (kf.usage = 1 ∨ kf.usage = 2) ∧ kf.keyGen ≠ 0 ∧
      (a2.keySlot kf.slot.toNat).usage ≠ 0) ∧
    (a.writesTo (Instr.keyLoad hS v2) (rq (Instr.keyLoad hS v2)) 8389121 0 = true ∧ rising a.od = true ∧
      (4096 ≤ v2.slot.toNat ∨ v2.reservedZero = false ∨ v2.usage ≠ 1 ∧ v2.usage ≠ 2 ∨ v2.keyGen = 0)) ∧
    (a2.writesTo (Instr.keyClear hS kf) (rq (Instr.keyClear hS kf)) 8389121 0 = true ∧ rising a2.od = true ∧
      kf.slot.toNat < 4096 ∧ kf.reservedZero = true ∧ a2.slotUsers kf.slot.toNat = [] ∧
      (∀ (p : Nat × Qp), p ∈ a2.wq.qps → Option.map (a2.globalSlot p.snd.func) p.snd.cipher.prev ≠ some kf.slot.toNat)) ∧
    (a2.writesTo (Instr.keyClear hS v3) (rq (Instr.keyClear hS v3)) 8389121 0 = true ∧ rising a2.od = true ∧
      (4096 ≤ v3.slot.toNat ∨ v3.reservedZero = false ∨ a2.slotUsers v3.slot.toNat ≠ [])) := by and_intros <;> decide +kernel
theorem witness_RecoveryObjects :
    (im.writesTo (Instr.fwCommit hM 1 v4) (rq (Instr.fwCommit hM 1 v4)) 2424834 0 = true ∧ rising im.od = true) ∧
    (rising pg.od = true ∧ pg.obj Row.fwCommitStatus % 256 = 2) ∧
    (cf.obj Row.fwCommitStatus % 256 ≠ 2) ∧
    (ar.writesTo (Instr.svnCommit hS 1) (rq (Instr.svnCommit hS 1)) 8388611 0 = true) ∧
    (dg.length = 64 ∧ ar.writesTo (Instr.ownerRootWrite hS dg true true) (rq (Instr.ownerRootWrite hS dg true true)) 8388866 0 = true) ∧
    (ar.writesTo (Instr.moduleReset hS 1) (rq (Instr.moduleReset hS 1)) 2424836 0 = true) := by and_intros <;> decide +kernel
theorem witness_CommandObjects :
    (hi.writesTo (Instr.histClear hM 1) (rq (Instr.histClear hM 1)) 7340041 0 = true ∧ rising hi.od = true) ∧
    (f5.writesTo (Instr.routingModeWrite hM 0) (rq (Instr.routingModeWrite hM 0)) 7733252 0 = true ∧
      rising f5.od = true ∧ f5.enabled 5 = true) ∧
    (rc.writesTo (Instr.recordSelect hM 0) (rq (Instr.recordSelect hM 0)) 9437443 0 = true ∧ rising rc.od = true) ∧
    (cf.writesTo (Instr.patternImport hM [pt]) (rq (Instr.patternImport hM [pt])) 9437699 0 = true ∧ rising cf.od = true) ∧
    (vf.writesTo (Instr.msgToPfWrite hV 4 [1, 2, 3]) (rq (Instr.msgToPfWrite hV 4 [1, 2, 3])) 12583169 (1 * 65536) = true ∧
      rising vf.od = true ∧ (vf.func 1).untaken = false) ∧
    (vu.writesTo (Instr.msgToPfWrite hV 4 [1, 2, 3]) (rq (Instr.msgToPfWrite hV 4 [1, 2, 3])) 12583169 (1 * 65536) = true ∧
      (vu.func 1).untaken = true) ∧
    (vu.writesTo (Instr.msgFromPfWrite hP2 4 [1, 2, 3]) (rq (Instr.msgFromPfWrite hP2 4 [1, 2, 3])) 12583171 (1 * 65536) = true ∧
      rising vu.od = true) := by and_intros <;> decide +kernel
theorem witness_PartitionsAndCasts :
    (cf.mode = MState.config ∧ rising cf.od = true ∧ (1 ≤ 1 ∧ 1 ≤ 6 ∧ (1 = 6 → 8 < 256)) ∧
      cf.writesTo (Instr.partitionWrite hM 1 8) (rq (Instr.partitionWrite hM 1 8)) (6291456 + 1) 0 = true) ∧
    (cs.writesTo (Instr.take hM cfd) (rq (Instr.take hM cfd)) 6291713 0 = true ∧ rising cs.od = true ∧
      cs.mem.dir.length = 4 ∧ cfd.reservedZero = true ∧ cs.mode = MState.operational ∧ cs.mem.cast = none ∧
      cs.mem.layout.cast ≠ 0 ∧ cs.obj Row.castExtent ≤ cs.mem.layout.state ∧ 4 * cs.castExtent ≤ cs.slotQuarters) ∧
    (c2.writesTo (Instr.restore hM cfd) (rq (Instr.restore hM cfd)) 6291713 0 = true ∧ rising c2.od = true ∧
      cfd.reservedZero = true ∧ c2.mode = MState.operational ∧ c2.mem.cast = none ∧ c2.mem.layout.cast ≠ 0 ∧
      BitVec.toNat cfd.slot ≤ 3 ∧ c2.obj Row.castExtent ≤ c2.mem.layout.state ∧
      cfd.dest.toNat + c2.castExtent ≤ c2.mem.layout.state ∧ 4 * c2.castExtent ≤ c2.slotQuarters ∧
      (c2.entry (BitVec.toNat cfd.slot)).isCast = true) ∧
    (c2.writesTo (Instr.discard hM cfd) (rq (Instr.discard hM cfd)) 6291713 0 = true ∧ rising c2.od = true ∧
      c2.mem.dir.length = 4 ∧ cfd.reservedZero = true ∧ c2.mode = MState.operational ∧ c2.mem.cast = none ∧
      c2.mem.layout.cast ≠ 0 ∧ BitVec.toNat cfd.slot ≤ 3 ∧ c2.obj Row.castExtent ≤ c2.mem.layout.state ∧
      (c2.entry (BitVec.toNat cfd.slot)).slotState ≠ 1) ∧
    (op.writesTo ([Instr.take hM v6, Instr.restore hM v6, Instr.discard hM v6].getD (2) (Instr.take hM v6)) (rq (Instr.discard hM v6)) 6291713 0 = true ∧
      rising op.od = true ∧ op.castRefusal (2 + 1) v6 ≠ 0) := by and_intros <;> decide +kernel
end Sys2Proof.Tests.Objects

namespace Sys2Proof.Tests.Ports
open Sys2Proof Sys2Proof.Machine
def R := State.reset
def cf : State := { R with timer := 77, mode := .config, od := [(5, 6)], boot := { R.boot with firmware := true }, host := { R.host with perst := false }, power := { R.power with good := true } }
def op : State := { cf with mode := .operational, freeCount := 4 }
def hpo : HalfPortSt := ⟨0,false,32,false,0,0,0,false,true,.idle,0,0,0,none,0,[],0,0,true,false,0⟩
def hpHost : HalfPortSt := { hpo with role := 1, perst := false, up := true, speed := 5, width := 8, proto := 3 }
def hpAcc : HalfPortSt := { hpo with role := 2, perst := false, up := true, speed := 5, width := 8, proto := 1, enum := .waiting }
def hps : List HalfPortSt := [hpHost, hpo, hpAcc, hpo, hpo, hpo, hpo, hpo]
def oh : State := { op with halfPorts := hps }
def rg : Ring := ⟨0x10000, 4, 0, 0, 0, true, 0, 0, false, none, false, 0, 0⟩
def wl (e : List Nat) (s : State) : State := eachDo e (fun n s => s.setObj Row.enable 1 (n - 1)) s
def o3 : State := wl [2,3,5,6] oh
def q4 : Qp := { o3.newQp 0 .rc rg (some rg) none 0 none false with st := .rts, tier := .hot, attr := { QpAttr.fresh with remoteModule := 5, remoteQpn := 9 } }
def cq0 : Cq := ⟨0, 0x20000, 4, 0, true, 0, 0, 0, false, false, false, 0⟩
def oq (x : Qp) : State := { o3 with wq := { o3.wq with qps := [(4, x)], cqs := [(0, cq0)] } }
def se (o : Byte) : Sqe := { opcode := o, c := true, x := false, t := false, f := false, s := false, token := 0, wrId := 0x77, localAddr := 0x1000, localKey := 0x105, length := 64, remoteAddr := 0x9000, remoteKey := 0x305, imm := 3, operandA := 5, operandB := 6, reservedZero := true }
def dn : State := { oh with halfPorts := [{hpHost with up := false, width := 0}, hpo, {hpAcc with up := false}, hpo, hpo, hpo, hpo, hpo] }
def rt : State := oh.setEnum 2 .retrying
def v1 := {oh with halfPorts := oh.halfPorts.set 2 {hpAcc with flushing := some 3}}
def pu : State := { oh with host := { oh.host with accPulse := true }, halfPorts := oh.halfPorts.set 2 {hpAcc with perst := true} }
def bs (s : State) : State := { s with cache := [5], security := { s.security with linkSlots := [(1, 5)], linkActive := [1] }, host := { s.host with committed := true, config := [(4,5)] } }
def v2 := {oh with mode := .config}
def eh : State := match exec (.hostLoss .perst) (bs (oq q4)) with | .next u => u | _ => R
def v3 := { oh with host := {oh.host with perst := true}, halfPorts := oh.halfPorts.set 0 {hpHost with perst := true} }
def hd : State := (oh.setObj Row.hostProtocol 13).setObj Row.hdmWindow 4
def hm : State := match exec (.hdmDecoderCommit 0x100000000) hd with | .next u => u | _ => R
def hz : State := { hm with mem := { hm.mem with layout := ⟨8, 948, 474, 0, 2⟩, cells := [(5,3), (1535 * 1024 * 1024 * 1024 + 1, 7)] } }
def v4 := { hz with mode := .selfTest }
def wb : List (Option Byte) := [some 4, none, some 0] ++ List.replicate 61 (some 9)
def cw : CqeWait := ⟨4, 0, {timestamp := 0, count := 1, index := 3, imm := 0, byteCount := 0, wrId := 0, qpn := 0, solicited := false, responder := false, immValid := false, opcode := 1, status := 0, flushed := true}, [(2, 3), (3, 9)], [(2, 4)], none⟩
def fl : State := { oh with halfPorts := oh.halfPorts.set 2 {hpAcc with flushing := some 4, presented := 5, flushes := 3}, wq := { oh.wq with cqWait := [cw] } }
def fx : State := { oh with halfPorts := oh.halfPorts.set 2 {hpAcc with role := 3, proto := 3, presented := 5, cmps := 3}, wq := { oh.wq with cqWait := [cw] } }
def w0 : Wqe := { Wqe.new (se 1) 3 with length := 64 }
def xq : State := oq { q4 with wqes := [w0] }
def v5 := { q4 with wqes := [w0] }
def sq : State := { oh with wq := { oh.wq with srqs := [(3, ⟨0, rg, [], false⟩)] } }
theorem witness_PortLinks :
    (dn.alive = true ∧ dn.halfPorts.length = 8 ∧ (dn.hp 2).role ≠ 0 ∧ (dn.hp 2).perst = false ∧ (dn.hp 2).up = false ∧
      (16 = 8 ∨ 16 = 16 ∨ 16 = 32) ∧ 16 ≤ (dn.hp 2).cap ∧ 4 ∈ [1, 2, 4, 8, 16] ∧ 4 ≤ dn.goodLanes (2) (dn.hp 2).lanes) ∧
    (oh.halfPorts.length = 8 ∧ (oh.hp 2).isAcc = true ∧ (oh.hp 2).up = true ∧
      ((oh.hp 2).enum = EnumSt.waiting ∨ (oh.hp 2).enum = EnumSt.retrying) ∧ rising oh.od = true) ∧
    (rt.halfPorts.length = 8 ∧ (rt.hp 2).enum = EnumSt.retrying) ∧
    (v1.halfPorts.length = 8 ∧ (v1.hp 2).isAcc = true ∧ (v1.hp 2).up = true ∧ rising v1.od = true) ∧
    (pu.halfPorts.length = 8 ∧ pu.host.accPulse = true) := by and_intros <;> decide +kernel
theorem witness_HostPort :
    ((bs (oq q4)).mode = MState.operational ∧ (bs (oq q4)).host.entering = none) ∧
    ((bs v2).alive = true ∧ (bs v2).mode ≠ MState.operational) ∧
    (eh.host.entering ≠ none ∧ rising eh.od = true) ∧
    (v3.halfPorts.length = 8) ∧
    (oh.hostUp = true ∧ 9 < 4096) ∧
    (oh.hostUp = true ∧ 0 < 4) ∧
    (hd.hostUp = true ∧ hd.objBit Row.hostProtocol 2 = true ∧ hd.obj Row.hdmWindow ≠ 0 ∧ rising hd.od = true) ∧
    (oh.objBit Row.hostProtocol 3 = false) ∧
    (hd.objBit Row.hostProtocol 3 = true ∧ hd.mode = MState.operational ∧ hd.host.entering = none ∧ rising hd.od = true) := by
      and_intros <;> decide +kernel
theorem witness_MemoryRequests :
    (hz.hdmOffset (4294967364 / 64 * 64) = some 64 ∧ hz.hdmServed 64 = true ∧ hz.mem.queues = [] ∧
      hz.mem.initMap.testBit (hz.hdmAddr 64 / gib) = false ∧ hz.castWaits = false) ∧
    (v4.firmwareRuns = false ∧ v4.hostUp = true ∧ v4.objBit Row.hostProtocol 2 = true) ∧
    (hz.hdmOffset (6442450948 / 64 * 64) = some 2147483648 ∧ hz.firmwareRuns = true ∧ hz.hdmServed 2147483648 = false) ∧
    (wb.length = 64 ∧ hz.hdmOffset (4294967364 / 64 * 64) = some 64 ∧ hz.hdmServed 64 = true ∧ hz.mem.wf = true ∧
      hz.mem.queues = [] ∧ hz.mem.initMap.testBit (hz.hdmAddr 64 / gib) = false ∧ hz.castWaits = false) ∧
    (hz.firmwareRuns = true ∧ hz.hdmOffset (68 / 64 * 64) = none) ∧
    (wb.length = 64 ∧ hz.hdmOffset (68 / 64 * 64) = none) ∧
    ((hz.hp 2).isAcc = true ∧ (hz.hp 2).up = true ∧
      (false = false ∨ 70368744177664 < 70368744177664 ∨ 70368744177664 + 64 * 2 ^ 30 ≤ 70368744177664) ∧
      rising hz.od = true) := by and_intros <;> decide +kernel
theorem witness_Placement :
    (fl.halfPorts.length = 8 ∧ (fl.hp 2).flushing = some 4) ∧
    (fl.halfPorts.length = 8 ∧ (fl.hp 2).flushing = some 4 ∧ rising fl.od = true) ∧
    (fx.halfPorts.length = 8 ∧ (fx.hp 2).isCxlMem = true ∧ (fx.hp 2).cmps < (fx.hp 2).presented) ∧
    (fx.ring (RingId.send 4) = none) ∧
    ((oq q4).qp 4 = some q4 ∧ (∀ (w : Wqe), w ∈ q4.wqes → w.index ≠ 0 ∨ w.internal = true ∨ w.ended = true)) ∧
    (xq.qp 4 = some v5 ∧ v5.st = QpSt.rts ∧ v5.lost = false ∧ w0 ∈ v5.wqes ∧ w0.internal = false ∧ w0.ended = false) ∧
    (tget sq.wq.srqs 3 = some { func := 0, ring := rg, entries := [], error := false : Srq }) := by and_intros <;> decide +kernel
end Sys2Proof.Tests.Ports

namespace Sys2Proof.Tests.Queues
open Sys2Proof Sys2Proof.Machine
def R := State.reset
def cf : State := { R with timer := 77, mode := .config, od := [(5, 6)], boot := { R.boot with firmware := true }, host := { R.host with perst := false }, power := { R.power with good := true } }
def op : State := { cf with mode := .operational, freeCount := 4 }
def hM : ReqHdr := ⟨.i3c 9, none, 0x32E41, 1, 0, 7, 0, 0, true, none⟩
def rq (c : Instr) : Req := (reqOf c).getD ⟨hM, .read, 0, 0, 0, 0, []⟩
def hpo : HalfPortSt := ⟨0,false,32,false,0,0,0,false,true,.idle,0,0,0,none,0,[],0,0,true,false,0⟩
def hpHost : HalfPortSt := { hpo with role := 1, perst := false, up := true, speed := 5, width := 8, proto := 3 }
def hpAcc : HalfPortSt := { hpo with role := 2, perst := false, up := true, speed := 5, width := 8, proto := 1, enum := .waiting }
def hps : List HalfPortSt := [hpHost, hpo, hpAcc, hpo, hpo, hpo, hpo, hpo]
def oh : State := { op with halfPorts := hps }
def rg : Ring := ⟨0x10000, 4, 0, 0, 0, true, 0, 0, false, none, false, 0, 0⟩
def wl (e : List Nat) (s : State) : State := eachDo e (fun n s => s.setObj Row.enable 1 (n - 1)) s
def o3 : State := wl [2,3,5,6] oh
def q4 : Qp := { o3.newQp 0 .rc rg (some rg) none 0 none false with st := .rts, tier := .hot, attr := { QpAttr.fresh with remoteModule := 5, remoteQpn := 9 } }
def cq0 : Cq := ⟨0, 0x20000, 4, 0, true, 0, 0, 0, false, false, false, 0⟩
def oq (x : Qp) : State := { o3 with wq := { o3.wq with qps := [(4, x)], cqs := [(0, cq0)] } }
def se (o : Byte) : Sqe := { opcode := o, c := true, x := false, t := false, f := false, s := false, token := 0, wrId := 0x77, localAddr := 0x1000, localKey := 0x105, length := 64, remoteAddr := 0x9000, remoteKey := 0x305, imm := 3, operandA := 5, operandB := 6, reservedZero := true }
def r1 : Region := ⟨0, 0x1000, 4096, 2, 0, 0xFF, 0, [0x70000], 5, true, none, false⟩
def wr1 (s : State) : State := { s with wq := { s.wq with regions := [(1, r1)] } }
def mkComm : Comm := ⟨0, 3, 4, 1, 0, 8, 0, [⟨3, 0, false⟩], 0, 1, 0, false, some 4, 0, [], [], [], false⟩
def cbits (e : CollSqe) : SqeBits := BitVec.ofNat 512 (1 + (if e.reservedZero then 0 else 2) + 0x10 * 2 ^ 8 + e.c.toNat * 2 ^ 16 + e.x.toNat * 2 ^ 17 + e.t.toNat * 2 ^ 18 + e.f.toNat * 2 ^ 19 + e.s.toNat * 2 ^ 20 + e.token.toNat * 2 ^ 32 + e.wrId.toNat * 2 ^ 64 + e.ext.toNat * 2 ^ 128 + e.ncontrib.toNat * 2 ^ 204 + e.dtype.toNat * 2 ^ 208 + e.kind.toNat * 2 ^ 216 + e.redop.toNat * 2 ^ 220 + e.root.toNat * 2 ^ 224 + e.schedId.toNat * 2 ^ 240 + e.count.toNat * 2 ^ 256 + e.inAddr.toNat * 2 ^ 320 + e.inKey.toNat * 2 ^ 384 + e.outKey.toNat * 2 ^ 416 + e.outAddr.toNat * 2 ^ 448)
def fbits (f : Frag) : FragBits := BitVec.ofNat 128 (f.addr.toNat + f.key.toNat * 2 ^ 64 + f.len.toNat * 2 ^ 96)
def dq : State := wr1 (oq { q4 with sq := { rg with h := 2, k := 4 } })
def aw (off v : Nat) : ApertureWrite := ⟨0, off, leBytes 4 v, true⟩
def v1 := { rg with h := 2, k := 4 }
def co : Nat := 16 * dq.qCount
def v2 := { q4 with st := .reset }
def dc : State := { dq with wq := { dq.wq with cqs := [(0, { cq0 with w := 3, used := 3 })] } }
def v3 := { cq0 with w := 3, used := 3 }
def rp : Ring := { rg with poll := 3 }
def pq : State := wr1 (oq { q4 with sq := rp })
def ra : Ring := { rg with h := 2, k := 4 }
def dr (r : Ring) : State := wr1 (oq { q4 with sq := r })
def r3 : Ring := { ra with reread := some ⟨7, 7, 7, false⟩ }
def qa : Qp := { q4 with sq := ra }
def e9 (o : Byte) : Sqe := { se o with length := if o == 6 || o == 7 then 8 else 64, remoteAddr := 0x9000 }
def e8 (o : Byte) : SqeBits := (e9 o).bits
def v4 := {qa with tier := .warm}
def v6 := {e9 0 with reservedZero := false}
def qr : Qp := { q4 with rq := some ra }
def sr : State := wr1 { o3 with wq := { o3.wq with srqs := [(3, ⟨0, ra, [], false⟩)] } }
def wf : Wqe := { Wqe.new {e9 1 with x := true} 1 with st := .frags }
def fr : Frag := { addr := 0x1000, key := 0x105, len := 16 }
def qf : Qp := { q4 with wqes := [wf] }
def qb : Qp := { qa with rq := some ra }
def ab0 : Sqe := { e9 0x1F with remoteAddr := 4 + 2 ^ 24 + 3 * 2 ^ 32, length := 0 }
def ab : SqeBits := ab0.bits
def v7 := { ab0 with remoteAddr := 5 }
def zc : Qp := { qa with type := .coll, comm := some 3 }
def sc : State := { wr1 (oq zc) with colls := { o3.colls with comms := [(3, mkComm)] } }
def ce0 : CollSqe := { t := false, token := 0, c := true, s := false, f := false, x := false, wrId := 5, outAddr := 0x1000, outKey := 0x105, inKey := 0x105, inAddr := 0x1000, count := 8, schedId := 0, root := 0, redop := 0, kind := 1, dtype := 1, ncontrib := 1, ext := 0, reservedZero := true }
def ce : SqeBits := cbits ce0
def cr : CollReads := ⟨true, [], [], [], []⟩
def ee : Eq := ⟨0x5000, 4, 0, 1, 2, 5, false, 0, 3⟩
def v8 := { o3 with eqs := [(0, ee)] }
theorem witness_Doorbells :
    (dq.firmwareRuns = true ∧ dq.holding = false ∧ dq.functionLive (aw 32 5).func = true ∧ (aw 32 5).value = some 5 ∧
      dq.slotOf (aw 32 5).func (aw 32 5).offset = Slot.ring (RingId.send 4) ∧ dq.ring (RingId.send 4) = some v1 ∧
      dq.ignoresDoorbells (RingId.send 4) = false ∧ rising dq.od = true) ∧
    ((aw 32 5).value = some 5 ∧ (oq v2).slotOf (aw 32 5).func (aw 32 5).offset = Slot.ring (RingId.send 4) ∧
      (oq v2).ignoresDoorbells (RingId.send 4) = true) ∧
    (dc.firmwareRuns = true ∧ dc.holding = false ∧ dc.functionLive (aw co 7).func = true ∧ (aw co 7).value = some 7 ∧
      dc.slotOf (aw co 7).func (aw co 7).offset = Slot.cq 0 ∧ tget dc.wq.cqs 0 = some v3 ∧ v3.resync = false ∧
      rising dc.od = true) ∧
    ((Instr.doorbell { func := 0, offset := 32, bytes := [1, 2], enables := true : ApertureWrite } = Instr.doorbell { func := 0, offset := 32, bytes := [1, 2], enables := true : ApertureWrite } ∨ Instr.doorbell { func := 0, offset := 32, bytes := [1, 2], enables := true : ApertureWrite } = Instr.cqDoorbell { func := 0, offset := 32, bytes := [1, 2], enables := true : ApertureWrite }) ∧
      dq.firmwareRuns = true ∧ dq.holding = false ∧
      dq.functionLive { func := 0, offset := 32, bytes := [1, 2], enables := true : ApertureWrite }.func = true ∧
      ({ func := 0, offset := 32, bytes := [1, 2], enables := true : ApertureWrite }.value = none ∨ dq.slotOf { func := 0, offset := 32, bytes := [1, 2], enables := true : ApertureWrite }.func { func := 0, offset := 32, bytes := [1, 2], enables := true : ApertureWrite }.offset = Slot.none) ∧
      rising dq.od = true) := by and_intros <;> decide +kernel
theorem witness_PollsAndRereads :
    (pq.ring (RingId.send 4) = some rp ∧ pq.ringReadable (RingId.send 4) = true ∧ pq.ringHot (RingId.send 4) = true ∧
      rp.polled = true ∧ rising pq.od = true) ∧
    (dq.ring (RingId.send 4) = some ra ∧ dq.mayConsume (RingId.send 4) = true ∧ ra.reread = none) ∧
    ((dr r3).ring (RingId.send 4) = some r3 ∧ (dr r3).ringReadable (RingId.send 4) = true ∧
      (dr r3).ringHot (RingId.send 4) = true ∧
      r3.reread = some { since := 7, issued := 7, returned := 7, fallback := false : Reread } ∧
      { since := 7, issued := 7, returned := 7, fallback := false : Reread }.fallback = false ∧
      { since := 7, issued := 7, returned := 7, fallback := false : Reread }.issued < 8 ∧ rising (dr r3).od = true) ∧
    ((dr r3).ring (RingId.send 4) = some r3 ∧
      r3.reread = some { since := 7, issued := 7, returned := 7, fallback := false : Reread } ∧
      { since := 7, issued := 7, returned := 7, fallback := false : Reread }.fallback = false ∧ 1 ≤ 7 ∧
      7 ≤ { since := 7, issued := 7, returned := 7, fallback := false : Reread }.issued) := by and_intros <;> decide +kernel
theorem witness_SendEntries :
    (dq.qp 4 = some qa ∧ dq.mayConsume (RingId.send 4) = true ∧ qa.tier = Tier.hot ∧
      (Instr.send 4 (e8 1), (sqeOf (e8 1)).opcode) ∈ [(Instr.send 4 (e8 1), 1), (Instr.writeOperation 4 (e8 1), 3), (Instr.writeImm 4 (e8 1), 4), (Instr.readOperation 4 (e8 1), 5), (Instr.fetchAdd64 4 (e8 1), 6), (Instr.cmpSwap64 4 (e8 1), 7)] ∧
      dq.judge qa (sqeOf (e8 1)) = Consumed.good ∧ qa.regain = [] ∧ dq.wq.aborts = []) ∧
    ((wr1 (oq v4)).qp 4 = some v4 ∧ (wr1 (oq v4)).mayConsume (RingId.send 4) = true ∧ v4.tier ≠ Tier.hot ∧
      (Instr.cmpSwap64 4 (e8 7), (sqeOf (e8 7)).opcode) ∈ [(Instr.send 4 (e8 7), 1), (Instr.writeOperation 4 (e8 7), 3), (Instr.writeImm 4 (e8 7), 4), (Instr.readOperation 4 (e8 7), 5), (Instr.fetchAdd64 4 (e8 7), 6), (Instr.cmpSwap64 4 (e8 7), 7), (Instr.nop 4 (e8 7), 0), (Instr.abort 4 (e8 7), 31)]) ∧
    (dq.qp 4 = some qa ∧ dq.mayConsume (RingId.send 4) = true ∧ qa.tier = Tier.hot ∧ (sqeOf (e8 0)).opcode = 0 ∧
      (sqeOf (e8 0)).c = true ∧ dq.judge qa (sqeOf (e8 0)) = Consumed.good ∧ qa.wqes = [] ∧ dq.wq.aborts = [] ∧
      qa.uncovered = [] ∧ tget dq.wq.cqs (dq.global totalCqs qa.func qa.sq.cqn) = some cq0 ∧ cq0.error = false) ∧
    (dq.qp 4 = some qa ∧ dq.mayConsume (RingId.send 4) = true ∧ qa.tier = Tier.hot ∧
      (Instr.nop 4 v6.bits, (sqeOf v6.bits).opcode) ∈ [(Instr.send 4 v6.bits, 1), (Instr.writeOperation 4 v6.bits, 3), (Instr.writeImm 4 v6.bits, 4), (Instr.readOperation 4 v6.bits, 5), (Instr.fetchAdd64 4 v6.bits, 6), (Instr.cmpSwap64 4 v6.bits, 7), (Instr.nop 4 v6.bits, 0), (Instr.abort 4 v6.bits, 31)] ∧
      qa.st = QpSt.rts ∧ badSqe qa.type (sqeOf v6.bits) = true ∧ dq.wq.aborts = []) := by and_intros <;> decide +kernel
theorem witness_OtherEntries :
    ((wr1 (oq qr)).qp 4 = some qr ∧ qr.rq = some ra ∧ (wr1 (oq qr)).mayConsume (RingId.recv 4) = true ∧
      qr.tier = Tier.hot ∧ qr.st ≠ QpSt.error ∧ (wr1 (oq qr)).recvFault qr.func (sqeOf (e8 2)) = none ∧
      (wr1 (oq qr)).wq.aborts = []) ∧
    (tget sr.wq.srqs 3 = some { func := 0, ring := ra, entries := [], error := false : Srq } ∧
      sr.mayConsume (RingId.srq 3) = true ∧
      sr.recvFault { func := 0, ring := ra, entries := [], error := false : Srq }.func (sqeOf (e8 2)) = none ∧
      sr.wq.aborts = []) ∧
    ((wr1 (oq qf)).qp 4 = some qf ∧ List.find? (fun w => w.index == 1 && w.st == WqeSt.frags) qf.wqes = some wf ∧
      ([fbits fr, fbits fr].all fun b => decide ((fragOf b).len.toNat ≤ 2 ^ 31)) = true ∧
      (List.map Seg.len (fragSegs (List.map fragOf [fbits fr, fbits fr]))).sum ≤ 2 ^ 31 ∧
      (fragSegs (List.map fragOf [fbits fr, fbits fr])).all ((wr1 (oq qf)).segOk qf.func (writesLocal wf.sqe.opcode)) = true) ∧
    ((wr1 (oq qb)).qp 4 = some qb ∧ (wr1 (oq qb)).mayConsume (RingId.send 4) = true ∧ qb.tier = Tier.hot ∧
      (sqeOf ab).opcode = 31 ∧ (wr1 (oq qb)).judge qb (sqeOf ab) = Consumed.good ∧ (wr1 (oq qb)).wq.aborts = [] ∧
      (wr1 (oq qb)).abortTarget qb.func (sqeOf ab) = some (RingId.recv 4, 3) ∧
      (wr1 (oq qb)).ring (RingId.recv 4) = some ra ∧ RingId.recv 4 ≠ RingId.send 4 ∧
      ahead ((wr1 (oq qb)).oldest (RingId.recv 4) ra) ra.h ≤ ahead ((wr1 (oq qb)).oldest (RingId.recv 4) ra) 3 ∧
      ahead ((wr1 (oq qb)).oldest (RingId.recv 4) ra) 3 < ahead ((wr1 (oq qb)).oldest (RingId.recv 4) ra) ra.k) ∧
    ((wr1 (oq qb)).qp 4 = some qb ∧ (wr1 (oq qb)).mayConsume (RingId.send 4) = true ∧ qb.tier = Tier.hot ∧
      (sqeOf v7.bits).opcode = 31 ∧ (wr1 (oq qb)).judge qb (sqeOf v7.bits) = Consumed.good ∧
      (wr1 (oq qb)).wq.aborts = [] ∧ (wr1 (oq qb)).abortTarget qb.func (sqeOf v7.bits) = none ∧ cq0.error = false ∧
      tget (wr1 (oq qb)).wq.cqs ((wr1 (oq qb)).global totalCqs qb.func qb.sq.cqn) = some cq0 ∧
      rising (wr1 (oq qb)).od = true) ∧
    (sc.qp 4 = some zc ∧ zc.type = QpType.coll ∧ zc.comm = some 3 ∧ sc.comm 3 = some mkComm ∧
      sc.mayConsume (RingId.send 4) = true ∧ mkComm.submit = some 4 ∧ mkComm.colls.length < 64 ∧ zc.tier = Tier.hot ∧
      zc.st = QpSt.rts ∧ badCollSqe (collSqeOf ce) mkComm.n = false ∧
      (zc.tokens && (collSqeOf ce).t && zc.history.contains (some (collSqeOf ce).token)) = false ∧
      (kindReduces (collSqeOf ce).kind.toNat = true → sc.enabled 8 = true) ∧ sc.wq.aborts = [] ∧ mkComm.broken = false ∧
      cr.ok = true ∧ mkComm.early = [] ∧ mkComm.ahead = [] ∧
      sc.collKeysOk mkComm.func mkComm.n mkComm.rank (Coll.new mkComm.nextK sc.colls.nextOrder sc.timer (collSqeOf ce) zc.sq.h cr) = true) ∧
    (v8.firmwareRuns = true ∧ v8.holding = false ∧ tget v8.eqs 0 = some ee ∧ ee.lost = 0) := by and_intros <;> decide +kernel
end Sys2Proof.Tests.Queues

namespace Sys2Proof.Tests.Control
open Sys2Proof Sys2Proof.Machine
def R := State.reset
def cf : State := { R with timer := 77, mode := .config, od := [(5, 6)], boot := { R.boot with firmware := true }, host := { R.host with perst := false }, power := { R.power with good := true } }
def op : State := { cf with mode := .operational, freeCount := 4 }
def hM : ReqHdr := ⟨.i3c 9, none, 0x32E41, 1, 0, 7, 0, 0, true, none⟩
def hPf : ReqHdr := ⟨.pfMailbox, none, 0x32E41, 1, 0, 8, 0, 0, true, none⟩
def rq (c : Instr) : Req := (reqOf c).getD ⟨hM, .read, 0, 0, 0, 0, []⟩
def hpo : HalfPortSt := ⟨0,false,32,false,0,0,0,false,true,.idle,0,0,0,none,0,[],0,0,true,false,0⟩
def hpHost : HalfPortSt := { hpo with role := 1, perst := false, up := true, speed := 5, width := 8, proto := 3 }
def hpAcc : HalfPortSt := { hpo with role := 2, perst := false, up := true, speed := 5, width := 8, proto := 1, enum := .waiting }
def hps : List HalfPortSt := [hpHost, hpo, hpAcc, hpo, hpo, hpo, hpo, hpo]
def oh : State := { op with halfPorts := hps }
def rg : Ring := ⟨0x10000, 4, 0, 0, 0, true, 0, 0, false, none, false, 0, 0⟩
def wl (e : List Nat) (s : State) : State := eachDo e (fun n s => s.setObj Row.enable 1 (n - 1)) s
def o3 : State := wl [2,3,5,6] oh
def q4 : Qp := { o3.newQp 0 .rc rg (some rg) none 0 none false with st := .rts, tier := .hot, attr := { QpAttr.fresh with remoteModule := 5, remoteQpn := 9 } }
def cq0 : Cq := ⟨0, 0x20000, 4, 0, true, 0, 0, 0, false, false, false, 0⟩
def oq (x : Qp) : State := { o3 with wq := { o3.wq with qps := [(4, x)], cqs := [(0, cq0)] } }
def se (o : Byte) : Sqe := { opcode := o, c := true, x := false, t := false, f := false, s := false, token := 0, wrId := 0x77, localAddr := 0x1000, localKey := 0x105, length := 64, remoteAddr := 0x9000, remoteKey := 0x305, imm := 3, operandA := 5, operandB := 6, reservedZero := true }
def r1 : Region := ⟨0, 0x1000, 4096, 2, 0, 0xFF, 0, [0x70000], 5, true, none, false⟩
def wr1 (s : State) : State := { s with wq := { s.wq with regions := [(1, r1)] } }
def mkComm : Comm := ⟨0, 3, 4, 1, 0, 8, 0, [⟨3, 0, false⟩], 0, 1, 0, false, some 4, 0, [], [], [], false⟩
def ch (n : BitVec 32) : CtrlHdr := ⟨hPf, 0, true, 0, n, true, true⟩
def eqf : EqFields := ⟨0x40000, 7, 0, 3⟩
def v1 := {ch 0 with last := false}
def hF : ReqHdr := ⟨.qp0 5 6, none, 0x32E41, 1, 0, 8, 0, 0, true, none⟩
def cF : CtrlHdr := {ch 0 with hdr := hF}
def v2 := {q4 with tier := .warm}
def cqf : CqFields := ⟨0x40000, 7, 0, 3, 1⟩
def sqf : SrqFields := ⟨0x40000, 7, 0, 3⟩
def rf : RingFields := ⟨0x40000, 7, 0, 3, 0⟩
def qpf : QpFields := ⟨0, 1, 0, rf, rf⟩
def osr : State := { oq q4 with wq := { (oq q4).wq with srqs := [(5, ⟨0, rg, [], false⟩)] } }
def v5 := {qpf with flags := 2, srqn := 5}
def mk2 : Comm := { mkComm with submit := none }
def ocm : State := { oq q4 with colls := { o3.colls with comms := [(3, mk2)] } }
def v6 := {qpf with type := 2, flags := 0, srqn := 3}
def rgf : RegionFields := ⟨0x1000, 4096, 2, 0, 7, 0, 0, 1, some [0x70000]⟩
def v7 := {oq q4 with wq := {(oq q4).wq with regions := [(9, {r1 with valid := false})]}}
def mf (st : Byte) (mask : BitVec 16) : ModifyFields := ⟨st, mask, 5, 9, 100, 200, 3, 7, 1, 0, 0, 0x77, 3⟩
def qi (st : QpSt) : Qp := { q4 with st := st, attr := QpAttr.fresh }
def oe : State := { o3 with eqs := [(0, ⟨0x5000, 4, 0, 1, 2, 5, false, 0, 3⟩)] }
def v8 := { oq q4 with wq := { (oq q4).wq with qps := [] } }
def v9 := {q4 with wqes := [Wqe.new (se 1) 0]}
def qfr : Qp := { q4 with freeing := true }
def oce : State := { oq (qi .reset) with wq := { (oq (qi .reset)).wq with cqs := [(0, { cq0 with error := true, w := 5 })] } }
def v10 := { cq0 with error := true, w := 5 }
theorem witness_ControlBlocks :
    (blockOf (Instr.createEq v1 eqf) = some (1, v1) ∧ ↑v1.index = 0 ∧ v1.last = false) ∧
    (blockOf (Instr.destroyQp (ch 3)) = some (20, ch 3) ∧ o3.takesBlock (Instr.destroyQp (ch 3)) = true ∧
      (o3.runBlock (Instr.destroyQp (ch 3))).result ≠ 0 ∧
      (∀ (q : Nat), o3.contextOf (Instr.destroyQp (ch 3)) = some q → o3.contextAwaited q = false)) ∧
    (blockOf (Instr.queryQp (ch 4)) = some (8, ch 4) ∧ (oq v2).takesBlock (Instr.queryQp (ch 4)) = true ∧
      (oq v2).contextOf (Instr.queryQp (ch 4)) = some 4 ∧ (oq v2).contextAwaited 4 = true) ∧
    (blockOf (Instr.createEq cF eqf) = some (1, cF) ∧ ↑cF.index = 0 ∧ cF.last = true ∧
      o3.takes (ctrlReq cF.hdr 1) [Instr.createEq cF eqf] = true ∧
      o3.check467 (ctrlReq cF.hdr 1) (o3.envOf (Instr.createEq cF eqf) (ctrlReq cF.hdr 1)).lyandez = Admitted.no 5 ∧
      5 ≠ 14) := by and_intros <;> decide +kernel
theorem witness_ControlCreates :
    (o3.takesBlock (Instr.createEq (ch 0) eqf) = true ∧ passes (o3.gateChecks (ch 0) false) = true ∧ (ch 0).number = 0 ∧
      tget o3.eqs (ch 0).func.toNat = none ∧ eqf.vector.toNat < vectors (ch 0).func.toNat ∧
      passes (o3.ringChecks (ch 0).func.toNat eqf.base.toNat (BitVec.toNat eqf.log2) (BitVec.toNat eqf.path) 0 32) = true) ∧
    ((oq q4).takesBlock (Instr.createCq (ch 9) cqf) = true ∧ passes ((oq q4).gateChecks (ch 9) true) = true ∧
      (ch 9).number.toNat < (oq q4).cCount ∧ tget (oq q4).wq.cqs (CtrlHdr.gnum (oq q4) (ch 9) totalCqs) = none ∧
      BitVec.toNat cqf.noFlush ≤ 1 ∧ cqf.vector.toNat < vectors (ch 9).func.toNat ∧
      passes ((oq q4).ringChecks (ch 9).func.toNat cqf.base.toNat (BitVec.toNat cqf.log2) (BitVec.toNat cqf.path) 0 32) = true ∧
      passes [(oq q4).twinCheck (ch 9)] = true) ∧
    (o3.takesBlock (Instr.createSrq (ch 9) sqf) = true ∧ passes (o3.gateChecks (ch 9) true) = true ∧
      (ch 9).number.toNat < o3.sCount ∧ tget o3.wq.srqs (CtrlHdr.gnum o3 (ch 9) totalSrqs) = none ∧
      passes (o3.ringChecks (ch 9).func.toNat sqf.base.toNat (BitVec.toNat sqf.log2) (BitVec.toNat sqf.path) sqf.poll.toNat 64) = true ∧
      passes [o3.twinCheck (ch 9)] = true) ∧
    (osr.takesBlock (Instr.createQp (ch 9) v5) = true ∧ qpTypeOf (BitVec.toNat v5.type) = some QpType.rc ∧
      QpType.rc ≠ QpType.coll ∧ passes (osr.gateChecks (ch 9) true) = true ∧ (ch 9).number ≠ 0 ∧
      (ch 9).number.toNat < osr.qCount ∧ osr.qp (CtrlHdr.gnum osr (ch 9) totalQps) = none ∧
      osr.reservedQp (CtrlHdr.gnum osr (ch 9) totalQps) = false ∧
      (BitVec.getLsbD v5.flags 0 = true → osr.countQps (ch 9).func.toNat Qp.tokens < osr.perShare 65536) ∧
      (QpType.rc = QpType.roceRc → osr.roceRoom (ch 9).func.toNat = true) ∧
      passes (osr.ringFieldChecks (ch 9).func.toNat v5.sq) = true ∧
      passes (if BitVec.getLsbD v5.flags 1 = true then osr.cqChecks (ch 9).func.toNat v5.rq.cqn.toNat ++ osr.srqChecks (ch 9).func.toNat v5.srqn.toNat else osr.ringFieldChecks (ch 9).func.toNat v5.rq) = true ∧
      passes (osr.homeChecks (CtrlHdr.gnum osr (ch 9) totalQps) [osr.global totalCqs (ch 9).func.toNat v5.sq.cqn.toNat, osr.global totalCqs (ch 9).func.toNat v5.rq.cqn.toNat] (if BitVec.getLsbD v5.flags 1 = true then [osr.global totalSrqs (ch 9).func.toNat v5.srqn.toNat] else []) (QpType.rc == QpType.roceRc)) = true ∧
      (QpType.rc ≠ QpType.roceRc → passes [osr.twinCheck (ch 9)] = true)) ∧
    (ocm.takesBlock (Instr.createQp (ch 9) v6) = true ∧ v6.type = 2 ∧ passes (ocm.gateChecks (ch 9) true) = true ∧
      (ch 9).number ≠ 0 ∧ (ch 9).number.toNat < ocm.qCount ∧ ocm.qp (CtrlHdr.gnum ocm (ch 9) totalQps) = none ∧
      ocm.commNamed (ch 9).func.toNat v6.srqn.toNat = some (3, mk2) ∧ ocm.comm 3 = some mk2 ∧
      CtrlHdr.gnum ocm (ch 9) totalQps = Comm.connQp ocm mk2 mk2.rank ∧ mk2.submit = none ∧
      (BitVec.getLsbD v6.flags 0 = true → ocm.countQps (ch 9).func.toNat Qp.tokens < ocm.perShare 65536) ∧
      passes (ocm.ringFieldChecks (ch 9).func.toNat v6.sq) = true) ∧
    ((oq q4).takesBlock (Instr.queryQp (ch 4)) = true ∧ passes ((oq q4).gateChecks (ch 4) false) = true ∧
      (ch 4).number ≠ 0 ∧ (ch 4).number.toNat < (oq q4).qCount ∧
      (oq q4).qp (CtrlHdr.gnum (oq q4) (ch 4) totalQps) = some q4 ∧ q4.freeing = false ∧
      (q4.tier = Tier.hot ∨ q4.lost = true)) ∧
    (v7.takesBlock (Instr.regRegion (ch 9) rgf) = true ∧ passes (v7.gateChecks (ch 9) true) = true ∧
      passes (v7.regionChecks (CtrlHdr.gnum v7 (ch 9) totalRegions) (ch 9) rgf) = true ∧
      passes [v7.twinCheck (ch 9)] = true) := by and_intros <;> decide +kernel
theorem witness_ModifiesQp :
    ((oq (qi QpSt.rtr)).takesBlock (Instr.modifyQp (ch 4) (mf 3 26)) = true ∧
      passes ((oq (qi QpSt.rtr)).gateChecks (ch 4) false) = true ∧ (ch 4).number ≠ 0 ∧
      (ch 4).number.toNat < (oq (qi QpSt.rtr)).qCount ∧
      (oq (qi QpSt.rtr)).qp (CtrlHdr.gnum (oq (qi QpSt.rtr)) (ch 4) totalQps) = some (qi QpSt.rtr) ∧
      (qi QpSt.rtr).freeing = false ∧ (qi QpSt.rtr).lost = false ∧ (qi QpSt.rtr).tier = Tier.hot ∧
      passes ((oq (qi QpSt.rtr)).attrChecks (qi QpSt.rtr) (mf 3 26)) = true ∧ (qi QpSt.rtr).transition (mf 3 26) = true ∧
      (oq (qi QpSt.rtr)).connFault (CtrlHdr.gnum (oq (qi QpSt.rtr)) (ch 4) totalQps) (qi QpSt.rtr) (mf 3 26) = false ∧
      (oq (qi QpSt.rtr)).keyFault (CtrlHdr.gnum (oq (qi QpSt.rtr)) (ch 4) totalQps) (qi QpSt.rtr) (mf 3 26) = false ∧
      ((qi QpSt.rtr).mirrorable = true → passes [(oq (qi QpSt.rtr)).twinCheck (ch 4)] = true) ∧
      ((mf 3 26).newState = 1 ∨ (mf 3 26).newState = 2 ∨ (mf 3 26).newState = 3)) ∧
    ((oq (qi QpSt.rts)).takesBlock (Instr.modifyQp (ch 4) (mf 4 0)) = true ∧
      passes ((oq (qi QpSt.rts)).gateChecks (ch 4) false) = true ∧ (ch 4).number ≠ 0 ∧
      (ch 4).number.toNat < (oq (qi QpSt.rts)).qCount ∧
      (oq (qi QpSt.rts)).qp (CtrlHdr.gnum (oq (qi QpSt.rts)) (ch 4) totalQps) = some (qi QpSt.rts) ∧
      (qi QpSt.rts).freeing = false ∧ (qi QpSt.rts).lost = false ∧ (qi QpSt.rts).tier = Tier.hot ∧
      passes ((oq (qi QpSt.rts)).attrChecks (qi QpSt.rts) (mf 4 0)) = true ∧ (qi QpSt.rts).st ≠ QpSt.reset ∧
      (oq (qi QpSt.rts)).connFault (CtrlHdr.gnum (oq (qi QpSt.rts)) (ch 4) totalQps) (qi QpSt.rts) (mf 4 0) = false ∧
      (oq (qi QpSt.rts)).keyFault (CtrlHdr.gnum (oq (qi QpSt.rts)) (ch 4) totalQps) (qi QpSt.rts) (mf 4 0) = false ∧
      ((qi QpSt.rts).mirrorable = true → passes [(oq (qi QpSt.rts)).twinCheck (ch 4)] = true) ∧ (mf 4 0).newState = 4) ∧
    ((oq (qi QpSt.rts)).takesBlock (Instr.modifyQp (ch 4) (mf 0 0)) = true ∧
      passes ((oq (qi QpSt.rts)).gateChecks (ch 4) false) = true ∧ (ch 4).number ≠ 0 ∧
      (ch 4).number.toNat < (oq (qi QpSt.rts)).qCount ∧
      (oq (qi QpSt.rts)).qp (CtrlHdr.gnum (oq (qi QpSt.rts)) (ch 4) totalQps) = some (qi QpSt.rts) ∧
      (qi QpSt.rts).freeing = false ∧ (qi QpSt.rts).lost = false ∧ (qi QpSt.rts).tier = Tier.hot ∧
      passes ((oq (qi QpSt.rts)).attrChecks (qi QpSt.rts) (mf 0 0)) = true ∧
      (oq (qi QpSt.rts)).connFault (CtrlHdr.gnum (oq (qi QpSt.rts)) (ch 4) totalQps) (qi QpSt.rts) (mf 0 0) = false ∧
      (oq (qi QpSt.rts)).keyFault (CtrlHdr.gnum (oq (qi QpSt.rts)) (ch 4) totalQps) (qi QpSt.rts) (mf 0 0) = false ∧
      ((qi QpSt.rts).mirrorable = true → passes [(oq (qi QpSt.rts)).twinCheck (ch 4)] = true) ∧ (mf 0 0).newState = 0) := by
      and_intros <;> decide +kernel
theorem witness_ControlDestroys :
    (oe.takesBlock (Instr.destroyEq (ch 0)) = true ∧ passes (oe.gateChecks (ch 0) false) = true ∧ (ch 0).number = 0 ∧
      tget oe.eqs (ch 0).func.toNat ≠ none) ∧
    (v8.takesBlock (Instr.destroyCq (ch 0)) = true ∧ passes (v8.gateChecks (ch 0) false) = true ∧
      (ch 0).number.toNat < v8.cCount ∧ tget v8.wq.cqs (CtrlHdr.gnum v8 (ch 0) totalCqs) ≠ none ∧
      v8.liveUsers (CtrlHdr.gnum v8 (ch 0) totalCqs) = [] ∧ passes [v8.twinCheck (ch 0)] = true) ∧
    (osr.takesBlock (Instr.destroySrq (ch 5)) = true ∧ passes (osr.gateChecks (ch 5) false) = true ∧
      (ch 5).number.toNat < osr.sCount ∧ tget osr.wq.srqs (CtrlHdr.gnum osr (ch 5) totalSrqs) ≠ none ∧
      (List.all osr.wq.qps fun p => p.snd.srqn != some (CtrlHdr.gnum osr (ch 5) totalSrqs) || p.snd.freeing) = true ∧
      passes [osr.twinCheck (ch 5)] = true ∧ osr.wq.aborts = []) ∧
    ((oq v9).takesBlock (Instr.destroyQp (ch 4)) = true ∧ passes ((oq v9).gateChecks (ch 4) false) = true ∧
      (ch 4).number ≠ 0 ∧ (ch 4).number.toNat < (oq v9).qCount ∧
      (oq v9).qp (CtrlHdr.gnum (oq v9) (ch 4) totalQps) = some v9 ∧ v9.freeing = false ∧
      (v9.tier = Tier.hot ∨ v9.lost = true) ∧ (v9.mirrorable = true → passes [(oq v9).twinCheck (ch 4)] = true)) ∧
    ((oq qfr).qp 4 = some qfr ∧ qfr.freeing = true ∧ rising (oq qfr).wq.qps = true) ∧
    ((∀ (x : Qp), (oq q4).qp 4 = some x → x.freeing = false)) ∧
    (oce.takesBlock (Instr.resetCq (ch 0)) = true ∧ passes (oce.gateChecks (ch 0) false) = true ∧
      (ch 0).number.toNat < oce.cCount ∧ tget oce.wq.cqs (CtrlHdr.gnum oce (ch 0) totalCqs) = some v10 ∧
      v10.error = true ∧
      ((oce.liveUsers (CtrlHdr.gnum oce (ch 0) totalCqs)).all fun q => Option.map Qp.st (oce.qp q) == some QpSt.reset) = true) ∧
    ((wr1 (oq q4)).takesBlock (Instr.deregRegion (ch 1)) = true ∧ passes ((wr1 (oq q4)).gateChecks (ch 1) false) = true ∧
      (ch 1).number ≠ 0 ∧ (ch 1).number.toNat < (wr1 (oq q4)).perShare totalRegions ∧
      tget (wr1 (oq q4)).wq.regions (CtrlHdr.gnum (wr1 (oq q4)) (ch 1) totalRegions) = some r1 ∧ r1.freeing = none ∧
      r1.valid = true ∧ passes [(wr1 (oq q4)).twinCheck (ch 1)] = true ∧ (wr1 (oq q4)).halfPorts.length = 8 ∧ r1.path < 8) := by
      and_intros <;> decide +kernel
end Sys2Proof.Tests.Control

namespace Sys2Proof.Tests.CollObjects
open Sys2Proof Sys2Proof.Machine
def R := State.reset
def cf : State := { R with timer := 77, mode := .config, od := [(5, 6)], boot := { R.boot with firmware := true }, host := { R.host with perst := false }, power := { R.power with good := true } }
def op : State := { cf with mode := .operational, freeCount := 4 }
def hPf : ReqHdr := ⟨.pfMailbox, none, 0x32E41, 1, 0, 8, 0, 0, true, none⟩
def hpo : HalfPortSt := ⟨0,false,32,false,0,0,0,false,true,.idle,0,0,0,none,0,[],0,0,true,false,0⟩
def hpHost : HalfPortSt := { hpo with role := 1, perst := false, up := true, speed := 5, width := 8, proto := 3 }
def hpAcc : HalfPortSt := { hpo with role := 2, perst := false, up := true, speed := 5, width := 8, proto := 1, enum := .waiting }
def hps : List HalfPortSt := [hpHost, hpo, hpAcc, hpo, hpo, hpo, hpo, hpo]
def oh : State := { op with halfPorts := hps }
def wl (e : List Nat) (s : State) : State := eachDo e (fun n s => s.setObj Row.enable 1 (n - 1)) s
def o3 : State := wl [2,3,5,6] oh
def mkComm : Comm := ⟨0, 3, 4, 1, 0, 8, 0, [⟨3, 0, false⟩], 0, 1, 0, false, some 4, 0, [], [], [], false⟩
def ch (n : BitVec 32) : CtrlHdr := ⟨hPf, 0, true, 0, n, true, true⟩
def osg : State := { o3 with mem := { o3.mem with layout := ⟨8, 900, 474, 20, 0⟩, cells := [(3, 4)] } }
def me (r : Nat) : BitVec 64 := BitVec.ofNat 64 ((if r = 1 then osg.ownAddress.toNat else 0x222 + r) + (if r = 1 then osg.global totalQps 0 8 else 64) * 2 ^ 24)
def cmf : CommFields := { n := 3, myRank := 1, epoch := 7, connBase := 8, mtSrc := 0, mtDest := 4096, levelArith := [0,0,0,0], ovfBase := 0, ovfSize := 1, table := some [me 0, me 1, me 2] }
def md : Comm := { mkComm with submit := none }
def sd : State := { o3 with colls := { o3.colls with comms := [(3, md)] } }
def mf' : Comm := { md with freeing := true }
def sf : State := { o3 with colls := { o3.colls with comms := [(3, mf')] } }
def sh0 : List Byte := leBytes 4 0x4E4B5343 ++ leBytes 2 1 ++ leBytes 2 7 ++ leBytes 4 4 ++ leBytes 4 1 ++ leBytes 2 4 ++ leBytes 2 1 ++ leBytes 2 1 ++ leBytes 2 5 ++ leBytes 8 0 ++ leBytes 8 8 ++ leBytes 20 0
def sb : List Byte := [1,2,3,4,5,6,7,8]
def si : List Byte := sh0 ++ leBytes 4 (crc32c (sh0 ++ sb)) ++ sb
def imf : ImageFields := ⟨0, 72, 8192, some si, true⟩
def ld : State := match exec (.loadSchedule (ch 7) imf) osg with | .next u => u | _ => R
def h2 : ReqHdr := { hPf with tag := 99 }
def ch2 (n : BitVec 32) : CtrlHdr := ⟨h2, 0, true, 0, n, true, true⟩
def kw : List Byte := leBytes 4 (0x10 * 2 ^ 26 + 2 ^ 23) ++ leBytes 4 (0x11 * 2 ^ 26 + 2 ^ 18 + 4) ++ leBytes 4 0
def kh2 : List Byte := leBytes 4 0x4E4B4B31 ++ leBytes 2 1 ++ leBytes 2 7 ++ leBytes 1 2 ++ leBytes 1 1 ++ leBytes 1 1 ++ leBytes 1 16 ++ leBytes 16 0
def ki : List Byte := kh2 ++ leBytes 4 (crc32c (kh2 ++ kw)) ++ kw
def kmf : ImageFields := ⟨0, 44, 8192, some ki, true⟩
def lkn : State := match exec (.loadKernel (ch 7) kmf) osg with | .next u => u | _ => R
def bf (fl : Byte) : BindFields := ⟨16, 4096, [BitVec.allOnes 64, 8192, BitVec.allOnes 64], 5, fl, true⟩
def lb : State := match exec (.arithBind (ch 7) (bf 0)) osg with | .next u => u | _ => R
def sff (fl : Byte) : ShardFields := ⟨100, 32, 40, 64, 8192, 1, 1, 0, 1, fl, true⟩
def shd : Shard := ⟨100, 32, 40, 64, 8192, 1, 1, 0, 1, none⟩
def ls : State := match exec (.defineShard (ch 7) (sff 0)) osg with | .next u => u | _ => R
def xf (d : Byte) : XferFields := ⟨d, 1, 2, 4, 8, 0x9000⟩
def lx (d : Byte) : State := match exec (.shardXfer (ch2 7) (xf d)) ls with | .next u => u | _ => R
def shx (d : Nat) : Shard := { shd with xfer := some (d, 1, 2, 4, 8, 0x9000) }
theorem witness_Communicators :
    (osg.takesBlock (Instr.createComm (ch 3) cmf) = true ∧ passes (osg.gateChecks (ch 3) true) = true ∧
      passes (osg.commChecks (ch 3) cmf) = true ∧ osg.mem.wf = true) ∧
    (sd.takesBlock (Instr.destroyComm (ch 3)) = true ∧ passes (sd.gateChecks (ch 3) false) = true ∧
      (ch 3).number.toNat < sd.perShare totalComms ∧
      sd.comm (sd.global totalComms (ch 3).func.toNat (ch 3).number.toNat) = some md ∧ md.freeing = false ∧
      md.submit.bind sd.presentQp = none) ∧
    (sf.comm (sf.global totalComms 0 3) = some mf' ∧ mf'.freeing = true ∧ mf'.func = 0 ∧ rising sf.colls.comms = true) ∧
    ((∀ (x : Comm), sd.comm (sd.global totalComms 0 3) = some x → x.freeing = false ∨ x.func ≠ 0)) := by
      and_intros <;> decide +kernel
theorem witness_Images :
    (osg.takesBlock (Instr.loadSchedule (ch 7) imf) = true ∧ passes (osg.gateChecks (ch 7) true) = true ∧
      badId (ch 7).number.toNat = false ∧ osg.pastState imf.dest.toNat imf.length.toNat = false ∧
      imf.dest.toNat % 4096 = 0 ∧ osg.sched (ch 7).func.toNat (ch 7).number.toNat = none ∧
      osg.stateInUse (ch 7).func.toNat [(imf.dest.toNat, imf.dest.toNat + imf.length.toNat)] = false ∧
      idsOf osg.colls.scheds (ch 7).func.toNat < osg.perShare totalScheds ∧ imf.length.toNat ≤ 4194304 ∧
      imf.image = some si ∧ schedHeaderOk (slice si 0 imf.length.toNat) imf.length.toNat (ch 7).number.toNat = true ∧
      imf.stepsOk = true ∧ osg.mem.wf = true) ∧
    (ld.takesBlock (Instr.unloadSchedule (ch2 7)) = true ∧ passes (ld.gateChecks (ch2 7) false) = true ∧
      badId (ch2 7).number.toNat = false ∧ ld.sched (ch2 7).func.toNat (ch2 7).number.toNat ≠ none ∧
      (ld.collUses (ch2 7).func.toNat fun y => y.sqe.schedId.toNat == (ch2 7).number.toNat) = false) ∧
    (osg.takesBlock (Instr.loadKernel (ch 7) kmf) = true ∧ passes (osg.gateChecks (ch 7) true) = true ∧
      badId (ch 7).number.toNat = false ∧ osg.pastState kmf.dest.toNat kmf.length.toNat = false ∧
      kmf.dest.toNat % 64 = 0 ∧ osg.kernel (ch 7).func.toNat (ch 7).number.toNat = none ∧
      osg.stateInUse (ch 7).func.toNat [(kmf.dest.toNat, kmf.dest.toNat + kmf.length.toNat)] = false ∧
      idsOf osg.colls.kernels (ch 7).func.toNat < osg.perShare totalKernels ∧ kmf.length.toNat ≤ 292 ∧
      kmf.image = some ki ∧ kernelHeaderOk (slice ki 0 kmf.length.toNat) kmf.length.toNat (ch 7).number.toNat = true ∧
      osg.mem.wf = true ∧
      (have b := slice ki 0 kmf.length.toNat; kernelFault (leField b 8 1) (leField b 10 1) (leField b 11 1) (wordsOf (leField b 8 1 + 1) (List.drop 32 b))) = none) ∧
    (lkn.takesBlock (Instr.unloadKernel (ch2 7)) = true ∧ passes (lkn.gateChecks (ch2 7) false) = true ∧
      badId (ch2 7).number.toNat = false ∧ lkn.kernel (ch2 7).func.toNat (ch2 7).number.toNat ≠ none ∧
      (lkn.collUses (ch2 7).func.toNat fun y => y.kind == 9 && kernelId y.sqe == (ch2 7).number.toNat) = false) ∧
    (osg.takesBlock (Instr.arithBind (ch 7) (bf 0)) = true ∧ passes (osg.gateChecks (ch 7) true) = true ∧
      BitVec.toNat (bf 0).flags ≤ 1 ∧ badId (ch 7).number.toNat = false ∧ (bf 0).count ≠ 0 ∧
      osg.binding (ch 7).func.toNat (ch 7).number.toNat = none ∧
      idsOf osg.colls.bindings (ch 7).func.toNat < osg.perShare totalScheds ∧ (bf 0).record.toNat % 64 = 0 ∧
      osg.mem.wf = true ∧
      (have areas := List.map (fun l => efArea ((bf 0).efBase.getD l (BitVec.allOnes 64))) (List.range 3); have b := { count := (bf 0).count.toNat, record := (bf 0).record.toNat, areas := areas : Binding }; (b.ranges.all fun r => decide (r.snd ≤ osg.stateShare)) = true ∧
      osg.stateInUse (ch 7).func.toNat b.ranges = false ∧
      ((List.filterMap (fun a => a) areas).all fun a => a % 4096 == 0) = true) ∧
      ((bf 0).flags = 1 → (bf 0).recordOk = true ∧
      leField (osg.stateRead (ch 7).func.toNat (bf 0).record.toNat 64) 0 8 = (bf 0).count.toNat)) ∧
    (lb.takesBlock (Instr.arithUnbind (ch2 7)) = true ∧ passes (lb.gateChecks (ch2 7) false) = true ∧
      badId (ch2 7).number.toNat = false ∧ lb.binding (ch2 7).func.toNat (ch2 7).number.toNat ≠ none ∧
      (lb.collUses (ch2 7).func.toNat fun y => y.sqe.schedId.toNat == (ch2 7).number.toNat) = false) := by
      and_intros <;> decide +kernel
theorem witness_Shards :
    (osg.takesBlock (Instr.defineShard (ch 7) (sff 0)) = true ∧
      shd = { count := (sff 0).count.toNat, first := (sff 0).first.toNat, length := (sff 0).length.toNat, record := (sff 0).record.toNat, base := (sff 0).base.toNat, pFmt := BitVec.toNat (sff 0).pFmt, m1Fmt := BitVec.toNat (sff 0).m1Fmt, m2Fmt := BitVec.toNat (sff 0).m2Fmt, qFmt := BitVec.toNat (sff 0).qFmt, xfer := none : Shard } ∧
      passes (osg.gateChecks (ch 7) true) = true ∧ BitVec.toNat (sff 0).flags ≤ 1 ∧ badId (ch 7).number.toNat = false ∧
      (sff 0).length ≠ 0 ∧ (sff 0).first.toNat % 32 = 0 ∧
      (sff 0).first.toNat + (sff 0).length.toNat ≤ (sff 0).count.toNat ∧ ((sff 0).pFmt = 1 ∨ (sff 0).pFmt = 2) ∧
      BitVec.toNat (sff 0).m1Fmt ≤ 2 ∧ BitVec.toNat (sff 0).m2Fmt ≤ 2 ∧ 1 ≤ BitVec.toNat (sff 0).qFmt ∧
      BitVec.toNat (sff 0).qFmt ≤ 7 ∧ (shd.ranges.all fun r => decide (r.snd ≤ osg.stateShare)) = true ∧
      osg.shard (ch 7).func.toNat (ch 7).number.toNat = none ∧ osg.stateInUse (ch 7).func.toNat shd.ranges = false ∧
      (sff 0).record.toNat % 64 = 0 ∧ (sff 0).base.toNat % 4096 = 0 ∧
      idsOf osg.colls.shards (ch 7).func.toNat < osg.perShare totalKernels ∧
      ((sff 0).flags = 1 → (sff 0).recordOk = true ∧
      shd.adopts (osg.stateRead (ch 7).func.toNat (sff 0).record.toNat 64) = true) ∧ osg.mem.wf = true) ∧
    (ls.takesBlock (Instr.removeShard (ch2 7)) = true ∧ passes (ls.gateChecks (ch2 7) false) = true ∧
      badId (ch2 7).number.toNat = false ∧ ls.shard (ch2 7).func.toNat (ch2 7).number.toNat = some shd ∧
      shd.xfer = none ∧ ls.shardUsed (ch2 7).func.toNat (ch2 7).number.toNat = false) ∧
    (ls.takesBlock (Instr.shardXfer (ch2 7) (xf 0)) = true ∧ passes (ls.gateChecks (ch2 7) false) = true ∧
      badId (ch2 7).number.toNat = false ∧ ls.shard (ch2 7).func.toNat (ch2 7).number.toNat = some shd ∧
      BitVec.toNat (xf 0).dir ≤ 1 ∧ 1 ≤ BitVec.toNat (xf 0).stream ∧ BitVec.toNat (xf 0).stream ≤ 3 ∧
      shd.fmt (BitVec.toNat (xf 0).stream) ≠ 0 ∧ (xf 0).start.toNat + (xf 0).elements.toNat ≤ shd.length ∧
      BitVec.toNat (xf 0).path ≤ 7 ∧ shd.xfer = none ∧ ls.shardUsed (ch2 7).func.toNat (ch2 7).number.toNat = false ∧
      ls.pathGiven (ch2 7).func.toNat (BitVec.toNat (xf 0).path) = true) ∧
    ((lx 0).shard 0 7 = some (shx 0) ∧ (shx 0).xfer = some (0, 1, 2, 4, 8, 36864) ∧ 8 = 8 ∧
      8 * streamElem ((shx 0).fmt 1) ≤ (List.replicate 32 9).length ∧ (lx 0).mem.wf = true) ∧
    ((lx 1).shard 0 7 = some (shx 1) ∧ (shx 1).xfer = some (1, 1, 2, 4, 8, 36864) ∧ 1 ≤ 8 ∧ 8 ≤ 8) ∧
    ((∀ (h : Shard), ls.shard 0 7 = some h → h.xfer = none)) := by and_intros <;> decide +kernel
end Sys2Proof.Tests.CollObjects

namespace Sys2Proof.Tests.Tenant
open Sys2Proof Sys2Proof.Machine
def R := State.reset
def cf : State := { R with timer := 77, mode := .config, od := [(5, 6)], boot := { R.boot with firmware := true }, host := { R.host with perst := false }, power := { R.power with good := true } }
def op : State := { cf with mode := .operational, freeCount := 4 }
def hPf : ReqHdr := ⟨.pfMailbox, none, 0x32E41, 1, 0, 8, 0, 0, true, none⟩
def hpo : HalfPortSt := ⟨0,false,32,false,0,0,0,false,true,.idle,0,0,0,none,0,[],0,0,true,false,0⟩
def hpHost : HalfPortSt := { hpo with role := 1, perst := false, up := true, speed := 5, width := 8, proto := 3 }
def hpAcc : HalfPortSt := { hpo with role := 2, perst := false, up := true, speed := 5, width := 8, proto := 1, enum := .waiting }
def hps : List HalfPortSt := [hpHost, hpo, hpAcc, hpo, hpo, hpo, hpo, hpo]
def oh : State := { op with halfPorts := hps }
def rg : Ring := ⟨0x10000, 4, 0, 0, 0, true, 0, 0, false, none, false, 0, 0⟩
def wl (e : List Nat) (s : State) : State := eachDo e (fun n s => s.setObj Row.enable 1 (n - 1)) s
def o3 : State := wl [2,3,5,6] oh
def q4 : Qp := { o3.newQp 0 .rc rg (some rg) none 0 none false with st := .rts, tier := .hot, attr := { QpAttr.fresh with remoteModule := 5, remoteQpn := 9 } }
def cq0 : Cq := ⟨0, 0x20000, 4, 0, true, 0, 0, 0, false, false, false, 0⟩
def oq (x : Qp) : State := { o3 with wq := { o3.wq with qps := [(4, x)], cqs := [(0, cq0)] } }
def fn (st : Nat) : FuncSt := FuncSt.fresh st
def vf1 (x : FuncSt) : State := let s := ((oq {q4 with func := 1}).setObj Row.shareCount 4)
  { s with wq := { s.wq with qps := [(4, q4), (4194308, {q4 with func := 1}), (4194309, {q4 with func := 1, st := .init})], cqs := [(0, cq0), (262144, {cq0 with func := 1})] }
           tenant := { s.tenant with numVfs := 3, vfEnable := true, funcs := [(1, x)] }, eqs := [(0, ⟨0x5000, 4, 0, 1, 2, 5, true, 0, 3⟩), (1, ⟨0x6000, 4, 0, 1, 2, 5, true, 0, 3⟩)] }
def c1 : CtrlHdr := { hdr := hPf, index := 0, last := true, func := 1, number := 0, twinAgrees := true, reservedZero := true }
def ix : ImageXfer := ⟨0x10000, 0x8000, 1⟩
def v1 := {fn 3 with saving := some 5}
def ve (x : FuncSt) : State := { vf1 x with wq := { o3.wq with qps := [(4, q4)], cqs := [(0, cq0)] }, security := { o3.security with slots := [(1025, ⟨2, 1, 1, 5⟩)] } }
def rf : RingFields := ⟨0x40000, 7, 0, 3, 0⟩
def iqp : ImageQp := { number := 3, create := ⟨0, 0, 0, rf, rf⟩, st := 3, remoteModule := 9, remoteQpn := 8, rnrRetry := 0, rnrDelay := 0, qKey := 0, pmtu := 3, vcClass := false, cipherOn := false, keySlot := 0, una := 55, expect := 66, heldMap := 0, sqRetire := 1, rqRetire := 2, sendCount := 0, started := [], tokens := [], results := [] }
def irg : ImageRegion := ⟨2, 9, ⟨0x1000, 4096, 2, 0, 7, 0, 0, 1, some [0x70000]⟩⟩
def im : VfImage := { header := leBytes 4 0x4E4B5649 ++ leBytes 2 1 ++ leBytes 2 0 ++ leBytes 2 ((ve (fn 1)).shareOf 1) ++ leBytes 2 4 ++ leBytes 4 ((ve (fn 1)).obj Row.fwVersion) ++ leBytes 48 0, crcOk := true, rolesOk := true, qps := [iqp], sqeBytes := [], cqs := [(0, ⟨0x40000, 7, 0, 3, 1⟩, 2, 5)], srqs := [], eq := some (⟨0x40000, 7, 0, 3⟩, 1, 2), regions := [irg], keys := [⟨2, 1, 1, 77⟩], limits := [] }
def v2 := {fn 1 with restoring := some (77, im)}
def v5 := {fn 4 with target := 5}
def vfz : State := let s := vf1 (fn 3)
  { s with wq := { s.wq with qps := [(4, q4), (4194308, {q4 with func := 1, st := .frozen, frozenFrom := .rts})] } }
def v6 := { (oq q4).setObj Row.shareCount 4 with tenant := { o3.tenant with vfEnable := false } }
def v7 := { (oq q4).setObj Row.shareCount 4 with wq := R.wq }
def vfa : State := { vf1 (fn 1) with tenant := { o3.tenant with numVfs := 2, vfEnable := true, funcs := [(1, fn 1), (2, fn 5)] } }
def vfk : State := { vfa with security := { o3.security with slots := [(5, ⟨1, 1, 1, 5⟩), (1024, ⟨1, 1, 1, 5⟩), (1025, ⟨2, 1, 1, 5⟩)] }, mem := { vfa.mem with cells := [(0,7)] } }
def v9 := { vfa with tenant := { vfa.tenant with funcs := [(1, fn 1), (4, fn 5)], numVfs := 4 } }
theorem witness_FunctionMoves :
    ((vf1 (fn 1)).takesBlock (Instr.freezeFunc c1) = true ∧ passes ((vf1 (fn 1)).gateChecks c1 false) = true ∧
      c1.number = 0 ∧ c1.func ≠ 0 ∧ (vf1 (fn 1)).funcSt c1.func.toNat = 1 ∧
      (vf1 (fn 1)).holdsColl c1.func.toNat = false ∧ (vf1 (fn 1)).pairing = false ∧ rising (vf1 (fn 1)).wq.qps = true) ∧
    ((vf1 (fn 2)).funcSt 1 = 2 ∧ (vf1 (fn 2)).unfinished 1 = false ∧ 1 ≠ 0) ∧
    (((vf1 (fn 1)).funcSt 1 ≠ 2 ∨ (vf1 (fn 1)).unfinished 1 = true)) ∧
    ((vf1 (fn 3)).takesBlock (Instr.saveFunc c1 ix 32768) = true ∧ passes ((vf1 (fn 3)).gateChecks c1 false) = true ∧
      c1.number = 0 ∧ c1.func ≠ 0 ∧ (vf1 (fn 3)).funcSt c1.func.toNat = 3 ∧
      ((vf1 (fn 3)).func c1.func.toNat).saving = none ∧ ix.wrapSlot.toNat < (vf1 (fn 3)).perShare totalSlots ∧
      (vf1 (fn 3)).wrapFault c1.func.toNat ix.wrapSlot.toNat ((vf1 (fn 3)).holdsKeys c1.func.toNat) = false) ∧
    (((vf1 v1).func 1).saving = some 5) ∧
    ((ve (fn 1)).takesBlock (Instr.restoreFunc c1 ix 77 (some im)) = true ∧
      passes ((ve (fn 1)).gateChecks c1 false) = true ∧ c1.number = 0 ∧ c1.func ≠ 0 ∧
      (ve (fn 1)).funcSt c1.func.toNat = 1 ∧ (ve (fn 1)).vfEmpty c1.func.toNat = true ∧
      ((ve (fn 1)).func c1.func.toNat).restoring = none ∧ (ve (fn 1)).pairing = false ∧
      ix.wrapSlot.toNat < (ve (fn 1)).perShare totalSlots ∧
      passes ((ve (fn 1)).imageChecks c1.func.toNat ix 77 im) = true) ∧
    (((ve v2).func 1).restoring = some (77, im) ∧ 1 ≠ 0 ∧ (List.map Prod.fst im.cqs).Nodup ∧
      (List.map ImageRegion.number im.regions).Nodup ∧ (List.map ImageKey.slot im.keys).Nodup ∧
      (List.map ImageQp.number im.qps).Nodup) ∧
    ((vf1 (fn 3)).takesBlock (Instr.forwardFunc c1 99) = true ∧ passes ((vf1 (fn 3)).gateChecks c1 false) = true ∧
      c1.number = 0 ∧ c1.func ≠ 0 ∧ (vf1 (fn 3)).funcSt c1.func.toNat = 3 ∧ 99 ≠ 0 ∧ 99 < 2 ^ 20 ∧
      rising (vf1 (fn 3)).eqs = true ∧ rising (vf1 (fn 3)).wq.qps = true) ∧
    ((vf1 v5).takesBlock (Instr.forwardFunc c1 0) = true ∧ c1.reservedZero = true ∧ c1.func.toNat ≤ 1024 ∧
      (vf1 v5).functionLive c1.func.toNat = true ∧ c1.number = 0 ∧ c1.func ≠ 0 ∧ (vf1 v5).funcSt c1.func.toNat = 4) ∧
    (vfz.takesBlock (Instr.thawFunc c1) = true ∧ passes (vfz.gateChecks c1 false) = true ∧ c1.number = 0 ∧ c1.func ≠ 0 ∧
      vfz.funcSt c1.func.toNat = 3 ∧ rising vfz.wq.qps = true) := by and_intros <;> decide +kernel
theorem witness_FunctionResets :
    (v6.host.perst = false ∧ v6.tenant.vfEnable = false ∧ 4 ≤ v6.shares ∧ rising v6.od = true ∧ 4 < 2 ^ 16) ∧
    ((v7.host.perst = true ∨ v7.tenant.vfEnable = true ∨ v7.shares < 5)) ∧
    (vfa.host.perst = false ∧ vfa.tenant.vfEnable = true ∧ rising vfa.od = true) ∧
    (vfk.firmwareRuns = true ∧ 1 ≠ 0 ∧ vfk.functionLive 1 = true ∧ vfk.funcSt 1 ≠ 0 ∧ vfk.funcSt 1 ≠ 5 ∧
      vfk.canonical = true) ∧
    (R.firmwareRuns = false) ∧
    (v9.funcSt 4 = 5 ∧ 4 ≠ 0 ∧ rising v9.od = true ∧ rising v9.tenant.funcs = true) ∧
    (vfa.funcSt 1 ≠ 5) := by and_intros <;> decide +kernel
theorem witness_FunctionResets_1 : ∀ (f : Nat), 1 ≤ f → f ≤ vfa.tenant.numVfs → vfa.funcSt f ≠ 0 := by
  intro f h g
  have e : vfa.tenant.numVfs = 2 := by decide +kernel
  have : f = 1 ∨ f = 2 := by omega
  rcases this with rfl | rfl <;> decide +kernel
end Sys2Proof.Tests.Tenant

namespace Sys2Proof.Tests.Packets
open Sys2Proof Sys2Proof.Machine
def R := State.reset
def cf : State := { R with timer := 77, mode := .config, od := [(5, 6)], boot := { R.boot with firmware := true }, host := { R.host with perst := false }, power := { R.power with good := true } }
def op : State := { cf with mode := .operational, freeCount := 4 }
def hpo : HalfPortSt := ⟨0,false,32,false,0,0,0,false,true,.idle,0,0,0,none,0,[],0,0,true,false,0⟩
def hpHost : HalfPortSt := { hpo with role := 1, perst := false, up := true, speed := 5, width := 8, proto := 3 }
def hpAcc : HalfPortSt := { hpo with role := 2, perst := false, up := true, speed := 5, width := 8, proto := 1, enum := .waiting }
def hps : List HalfPortSt := [hpHost, hpo, hpAcc, hpo, hpo, hpo, hpo, hpo]
def oh : State := { op with halfPorts := hps }
def rg : Ring := ⟨0x10000, 4, 0, 0, 0, true, 0, 0, false, none, false, 0, 0⟩
def wl (e : List Nat) (s : State) : State := eachDo e (fun n s => s.setObj Row.enable 1 (n - 1)) s
def o3 : State := wl [2,3,5,6] oh
def q4 : Qp := { o3.newQp 0 .rc rg (some rg) none 0 none false with st := .rts, tier := .hot, attr := { QpAttr.fresh with remoteModule := 5, remoteQpn := 9 } }
def cq0 : Cq := ⟨0, 0x20000, 4, 0, true, 0, 0, 0, false, false, false, 0⟩
def oq (x : Qp) : State := { o3 with wq := { o3.wq with qps := [(4, x)], cqs := [(0, cq0)] } }
def se (o : Byte) : Sqe := { opcode := o, c := true, x := false, t := false, f := false, s := false, token := 0, wrId := 0x77, localAddr := 0x1000, localKey := 0x105, length := 64, remoteAddr := 0x9000, remoteKey := 0x305, imm := 3, operandA := 5, operandB := 6, reservedZero := true }
def r1 : Region := ⟨0, 0x1000, 4096, 2, 0, 0xFF, 0, [0x70000], 5, true, none, false⟩
def wr1 (s : State) : State := { s with wq := { s.wq with regions := [(1, r1)] } }
def pk (o : Byte) : Packet := { version := 1, dstModule := 0, srcModule := 5, dstQpn := 4, srcQpn := 9, opcode := o, flags := flagBits true true false false false false, psn := 0, msgId := 7, remoteAddr := 0x1000, key := 0x105, payloadLen := 64, pktOffset := 0, aux := 0, payload := List.replicate 64 0x5A }
def ar (p : Packet) : Arrival := ⟨0, p, some (List.replicate 64 3)⟩
def sw (x : Qp) : State := wr1 (oq x)
def q5 : Qp := { q4 with resp := { q4.resp with recvs := [RecvE.new 5 (se 2) none] } }
def v1 := {pk 3 with payloadLen := 0, payload := []}
def rd : Packet := { pk 5 with payloadLen := 0, payload := [], aux := 64 }
def fa : Packet := { pk 6 with payloadLen := 16, payload := List.replicate 16 9 }
def hh : HeldReq := ⟨ar fa, true, 1, 2, 0x70000⟩
def pr : PsnRec := ⟨.held, 6, 7⟩
def q6 : Qp := { q4 with resp := { q4.resp with heldReqs := [hh], window := [(0, pr)] } }
def pw : PsnRec := ⟨.held, 3, 7⟩
def q7 : Qp := { q4 with resp := { q4.resp with window := [(0, pw)] } }
def v3 := {q4 with type := .ud}
def fwp : Packet := { pk 3 with psn := 300 }
def bad (o : Byte) : Packet := { pk o with remoteAddr := 0x9000 }
theorem witness_RequestsServed :
    ((Instr.pktWrite (ar v1), 3) ∈ [(Instr.pktWrite (ar v1), 3), (Instr.pktWriteImm (ar v1), 4)] ∧
      (sw q4).carries (ar v1) 3 4 q4 = true ∧ q4.expects (arriveAs (ar v1) 3).pkt = true ∧
      (sw q4).check 4 q4 (arriveAs (ar v1) 3).pkt = none ∧
      tget (sw q4).wq.regions (BitVec.toNat (ar v1).pkt.key / 256) = some r1 ∧
      ((ar v1).pkt.payloadLen = 0 ∨ ((sw q4).hp r1.path).up = true) ∧ r1.path < (sw q4).halfPorts.length) ∧
    ((sw q5).carries (ar (pk 3)) 1 4 q5 = true ∧ q5.expects (arriveAs (ar (pk 3)) 1).pkt = true ∧ q5.srqn = none ∧
      q5.recvFor (ar (pk 3)).pkt.aux = some (RecvE.new 5 (se 2) none) ∧ (RecvE.new 5 (se 2) none).fault = none ∧
      (RecvE.new 5 (se 2) none).ready = true ∧ (ar (pk 3)).pkt.payloadLen.toNat ≤ (RecvE.new 5 (se 2) none).length ∧
      (sw q5).recvDown (RecvE.new 5 (se 2) none) 0 (ar (pk 3)).pkt.payloadLen.toNat = false ∧
      (sw q5).sideOk q5.func true (RecvE.new 5 (se 2) none).sqe (RecvE.new 5 (se 2) none).segs 0 (ar (pk 3)).pkt.payloadLen.toNat = true ∧
      (List.map RecvE.index q5.resp.recvs).Nodup ∧ (∀ (v : RecvE), v ∈ q5.resp.recvs → v.aborted = false) ∧
      (sw q5).cqTakes ((sw q5).global totalCqs q5.func q5.rcqn) q5 = true) ∧
    ((sw q4).carries (ar (pk 3)) 1 4 q4 = true ∧ q4.expects (arriveAs (ar (pk 3)) 1).pkt = true ∧ q4.srqn = none ∧
      q4.recvFor (ar (pk 3)).pkt.aux = none ∧ rising (sw q4).od = true) ∧
    ((sw q4).carries (ar rd) 5 4 q4 = true ∧ q4.expects (arriveAs (ar rd) 5).pkt = true ∧
      (sw q4).check 4 q4 (arriveAs (ar rd) 5).pkt = none ∧ (ar rd).data = some (List.replicate 64 3) ∧ 0 < q4.mtu ∧
      tget (sw q4).wq.regions (BitVec.toNat (ar rd).pkt.key / 256) = some r1) ∧
    ((Instr.pktCmpSwapReq (ar fa), 7) ∈ [(Instr.pktFetchAddReq (ar fa), 6), (Instr.pktCmpSwapReq (ar fa), 7)] ∧
      (sw q4).carries (ar fa) 7 4 q4 = true ∧ q4.expects (arriveAs (ar fa) 7).pkt = true ∧
      (sw q4).check 4 q4 (arriveAs (ar fa) 7).pkt = none ∧
      tget (sw q4).wq.regions (BitVec.toNat (ar fa).pkt.key / 256) = some r1 ∧
      (q4.resp.cacheBlock = true ∨ (tget (sw q4).wq.cacheUsed ((sw q4).shareOf q4.func)).getD 0 < (sw q4).perShare 2097152)) ∧
    ((sw q6).qp 4 = some q6 ∧ (sw q6).mirrors 4 q6 = false ∧ q6.resp.heldReqs = [hh] ∧ hh.issued = true ∧
      isAtomicOp hh.arrival.pkt.opcode = true ∧ hh.arrival.pkt.psn = q6.resp.e ∧
      q6.resp.window = [(BitVec.toNat q6.resp.e, pr)] ∧ q6.resp.msgs = [] ∧ q6.resp.failed = none) ∧
    ((sw q7).qp 4 = some q7 ∧ pw.st = PsnSt.held ∧ isReadOrAtomic pw.opcode = false ∧
      q7.resp.window = [(BitVec.toNat q7.resp.e, pw)] ∧ q7.resp.msgs = [] ∧ q7.resp.failed = none ∧
      q7.resp.heldReqs = []) ∧
    ((sw v3).carries (ar (pk 1)) 1 4 v3 = true ∧ v3.type = QpType.ud ∧ (ar (pk 1)).pkt.key ≠ v3.attr.qKey) ∧
    ((Instr.pktSend (ar fwp), 1) ∈ [(Instr.pktSend (ar fwp), 1), (Instr.pktWrite (ar fwp), 3), (Instr.pktWriteImm (ar fwp), 4), (Instr.pktReadReq (ar fwp), 5), (Instr.pktFetchAddReq (ar fwp), 6), (Instr.pktCmpSwapReq (ar fwp), 7)] ∧
      (sw q4).carries (ar fwp) 1 4 q4 = true ∧ q4.type = QpType.rc ∧
      q4.resp.classify (ar fwp).pkt.psn = PsnClass.outside ∧ rising (sw q4).od = true) ∧
    ((Instr.pktWrite (ar (bad 3)), 3) ∈ [(Instr.pktWrite (ar (bad 3)), 3), (Instr.pktWriteImm (ar (bad 3)), 4), (Instr.pktReadReq (ar (bad 3)), 5), (Instr.pktFetchAddReq (ar (bad 3)), 6), (Instr.pktCmpSwapReq (ar (bad 3)), 7)] ∧
      (sw q4).carries (ar (bad 3)) 3 4 q4 = true ∧ q4.expects (arriveAs (ar (bad 3)) 3).pkt = true ∧
      (sw q4).check 4 q4 (arriveAs (ar (bad 3)) 3).pkt = some 3) := by and_intros <;> decide +kernel
end Sys2Proof.Tests.Packets

namespace Sys2Proof.Tests.Replies
open Sys2Proof Sys2Proof.Machine
def R := State.reset
def cf : State := { R with timer := 77, mode := .config, od := [(5, 6)], boot := { R.boot with firmware := true }, host := { R.host with perst := false }, power := { R.power with good := true } }
def op : State := { cf with mode := .operational, freeCount := 4 }
def hpo : HalfPortSt := ⟨0,false,32,false,0,0,0,false,true,.idle,0,0,0,none,0,[],0,0,true,false,0⟩
def hpHost : HalfPortSt := { hpo with role := 1, perst := false, up := true, speed := 5, width := 8, proto := 3 }
def hpAcc : HalfPortSt := { hpo with role := 2, perst := false, up := true, speed := 5, width := 8, proto := 1, enum := .waiting }
def hps : List HalfPortSt := [hpHost, hpo, hpAcc, hpo, hpo, hpo, hpo, hpo]
def oh : State := { op with halfPorts := hps }
def rg : Ring := ⟨0x10000, 4, 0, 0, 0, true, 0, 0, false, none, false, 0, 0⟩
def wl (e : List Nat) (s : State) : State := eachDo e (fun n s => s.setObj Row.enable 1 (n - 1)) s
def o3 : State := wl [2,3,5,6] oh
def q4 : Qp := { o3.newQp 0 .rc rg (some rg) none 0 none false with st := .rts, tier := .hot, attr := { QpAttr.fresh with remoteModule := 5, remoteQpn := 9 } }
def cq0 : Cq := ⟨0, 0x20000, 4, 0, true, 0, 0, 0, false, false, false, 0⟩
def oq (x : Qp) : State := { o3 with wq := { o3.wq with qps := [(4, x)], cqs := [(0, cq0)] } }
def se (o : Byte) : Sqe := { opcode := o, c := true, x := false, t := false, f := false, s := false, token := 0, wrId := 0x77, localAddr := 0x1000, localKey := 0x105, length := 64, remoteAddr := 0x9000, remoteKey := 0x305, imm := 3, operandA := 5, operandB := 6, reservedZero := true }
def r1 : Region := ⟨0, 0x1000, 4096, 2, 0, 0xFF, 0, [0x70000], 5, true, none, false⟩
def wr1 (s : State) : State := { s with wq := { s.wq with regions := [(1, r1)] } }
def pk (o : Byte) : Packet := { version := 1, dstModule := 0, srcModule := 5, dstQpn := 4, srcQpn := 9, opcode := o, flags := flagBits true true false false false false, psn := 0, msgId := 7, remoteAddr := 0x1000, key := 0x105, payloadLen := 64, pktOffset := 0, aux := 0, payload := List.replicate 64 0x5A }
def ar (p : Packet) : Arrival := ⟨0, p, some (List.replicate 64 3)⟩
def sw (x : Qp) : State := wr1 (oq x)
def we (o : Byte) (p : Psn) : Wqe := { Wqe.new (se o) 0 with st := .started, allSent := true, firstPsn := p, lastPsn := p, sent := 64 }
def fl (p : Psn) : Flight := ⟨p, {pk 3 with psn := p}, 0, 5, true, false, false, 0, 0⟩
def qa (o : Byte) : Qp := { q4 with wqes := [we o 0], req := { q4.req with una := 0, nxt := 1, flight := [fl 0] } }
def ack (e : Psn) (x : BitVec 32) : Packet := { pk 0x30 with psn := e, payloadLen := 0, payload := [], aux := x }
def v1 := {qa 1 with attr := {(qa 1).attr with rnrRetry := 3, rnrDelay := 2}}
def v2 := {pk 0x32 with aux := 1}
def gb : Packet := { pk 0x32 with aux := 0x100, dstQpn := 77, payload := beBytes 3 4 ++ [0,0,0] ++ beBytes 2 3 }
theorem witness_RepliesTaken :
    ((sw (qa 3)).carries (ar (ack 1 0)) 48 4 (qa 3) = true ∧ (qa 3).type ≠ QpType.ud ∧
      psnPrecedes (ar (ack 1 0)).pkt.psn (qa 3).req.una = false ∧
      psnPrecedes (qa 3).req.nxt (ar (ack 1 0)).pkt.psn = false ∧
      (∀ (c : Nat × Nat), c ∈ (qa 3).req.credits → (sw (qa 3)).timer < c.snd)) ∧
    ((sw (qa 5)).carries (ar (ack 2 1)) 48 4 (qa 5) = true ∧ (qa 5).type ≠ QpType.ud ∧
      psnPrecedes (ar (ack 2 1)).pkt.psn (qa 5).req.una = false ∧
      psnPrecedes (qa 5).req.nxt (ar (ack 2 1)).pkt.psn = true ∧ (qa 5).regainAck (ar (ack 2 1)).pkt.psn = false ∧
      rising (sw (qa 5)).od = true) ∧
    ((sw v1).carries (ar (ack 0 16)) 49 4 v1 = true ∧ v1.type ≠ QpType.ud ∧
      v1.wqeOf (ar (ack 0 16)).pkt.psn = some (we 1 0) ∧ (ar (ack 0 16)).pkt.aux = 16 ∧ v1.req.rnrFrom = none ∧
      (v1.attr.rnrRetry = 7 ∨ (if v1.req.rnrOf = some (we 1 0).index then v1.req.rnrRetries else 0) < v1.attr.rnrRetry)) ∧
    ((sw (qa 3)).carries (ar (ack 0 3)) 49 4 (qa 3) = true ∧ (qa 3).type ≠ QpType.ud ∧
      (qa 3).wqeOf (ar (ack 0 3)).pkt.psn = some (we 3 0) ∧ (ar (ack 0 3)).pkt.aux ∈ [1, 2, 3, 4, 17, 18, 19, 33]) ∧
    ((sw (qa 3)).carries (ar (ack 0 327712)) 49 4 (qa 3) = true ∧ (qa 3).type ≠ QpType.ud ∧
      (ar (ack 0 327712)).pkt.aux.toNat % 256 = 32 ∧ ((qa 3).req.parkCount + 1) % 16 ≠ 0 ∧ rising (sw (qa 3)).od = true) ∧
    ((Instr.pktReadResp (ar (pk 32)), 32) ∈ [(Instr.pktReadResp (ar (pk 32)), 32), (Instr.pktAtomicResp (ar (pk 32)), 33)] ∧
      (sw q4).carries (ar (pk 32)) 32 4 q4 = true ∧ q4.type ≠ QpType.ud ∧ q4.wqeOf (ar (pk 32)).pkt.psn = none ∧
      rising (sw q4).od = true) ∧
    ((Instr.pktAtomicResp (ar (pk 33)), 33, List.replicate 8 90) ∈ [(Instr.pktReadResp (ar (pk 33)), 32, (ar (pk 33)).pkt.payload), (Instr.pktAtomicResp (ar (pk 33)), 33, leBytes 8 (beNat (List.take 8 (ar (pk 33)).pkt.payload)))] ∧
      (sw (qa 6)).carries (ar (pk 33)) 33 4 (qa 6) = true ∧ (qa 6).type ≠ QpType.ud ∧
      (qa 6).wqeOf (ar (pk 33)).pkt.psn = some (we 6 0) ∧ (qa 6).wqes = [we 6 0] ∧ (we 6 0).ended = false ∧
      (we 6 0).internal = false ∧ (we 6 0).sqe.c = true ∧ (33 = 32 → (we 6 0).sqe.opcode = 5 ∧
      (we 6 0).length ≤ (qa 6).mtu ∧ (we 6 0).coverage = 0 ∧ (ar (pk 33)).pkt.pktOffset = 0) ∧
      (33 = 33 → isAtomicOp (we 6 0).sqe.opcode = true) ∧ (qa 6).req.flight = [fl 0] ∧
      (fl 0).psn = (ar (pk 33)).pkt.psn ∧ (qa 6).req.una = (ar (pk 33)).pkt.psn ∧
      (qa 6).req.nxt = (ar (pk 33)).pkt.psn + 1 ∧
      (((sw (qa 6)).segPaths (we 6 0).segs 0 (List.replicate 8 90).length).any fun h => !((sw (qa 6)).hp h).up) = false ∧
      (sw (qa 6)).sideOk (qa 6).func true (we 6 0).sqe (we 6 0).segs 0 (List.replicate 8 90).length = true ∧
      (sw (qa 6)).cqTakes ((sw (qa 6)).global totalCqs (qa 6).func (qa 6).sq.cqn) (qa 6) = true) ∧
    ((sw q4).carries (ar v2) 50 4 q4 = true ∧ (q4.type = QpType.rc ∨ q4.type = QpType.coll)) ∧
    ((sw q4).transportRuns = true ∧ (sw q4).holding = false ∧ (sw q4).forwardTarget (arriveAs (ar gb) 50).pkt = none ∧
      (sw q4).toForwardHome (arriveAs (ar gb) 50).pkt = false ∧ (sw q4).goodHeader (arriveAs (ar gb) 50).pkt = true ∧
      (ar gb).pkt.dstQpn ≠ 0 ∧ ((sw q4).police (arriveAs (ar gb) 50)).snd = true ∧
      (sw q4).isFrozen (arriveAs (ar gb) 50).pkt = false ∧ (sw q4).presentQp (BitVec.toNat (ar gb).pkt.dstQpn) = none ∧
      (ar gb).pkt.aux = 256 ∧ batchEntry (slice (ar gb).pkt.payload 0 8) = (4, 3) ∧ 3 ≠ 0 ∧
      (sw q4).presentQp 4 = some q4 ∧ (q4.type = QpType.rc ∨ q4.type = QpType.coll) ∧
      q4.attr.remoteModule = (ar gb).pkt.srcModule ∧ q4.attr.cipherOn = false ∧
      (∀ (c : Nat × Nat), c ∈ q4.req.credits → (sw q4).timer < c.snd)) := by and_intros <;> decide +kernel
end Sys2Proof.Tests.Replies

namespace Sys2Proof.Tests.Timers
open Sys2Proof Sys2Proof.Machine
def R := State.reset
def cf : State := { R with timer := 77, mode := .config, od := [(5, 6)], boot := { R.boot with firmware := true }, host := { R.host with perst := false }, power := { R.power with good := true } }
def op : State := { cf with mode := .operational, freeCount := 4 }
def hpo : HalfPortSt := ⟨0,false,32,false,0,0,0,false,true,.idle,0,0,0,none,0,[],0,0,true,false,0⟩
def hpHost : HalfPortSt := { hpo with role := 1, perst := false, up := true, speed := 5, width := 8, proto := 3 }
def hpAcc : HalfPortSt := { hpo with role := 2, perst := false, up := true, speed := 5, width := 8, proto := 1, enum := .waiting }
def hps : List HalfPortSt := [hpHost, hpo, hpAcc, hpo, hpo, hpo, hpo, hpo]
def oh : State := { op with halfPorts := hps }
def rg : Ring := ⟨0x10000, 4, 0, 0, 0, true, 0, 0, false, none, false, 0, 0⟩
def wl (e : List Nat) (s : State) : State := eachDo e (fun n s => s.setObj Row.enable 1 (n - 1)) s
def o3 : State := wl [2,3,5,6] oh
def q4 : Qp := { o3.newQp 0 .rc rg (some rg) none 0 none false with st := .rts, tier := .hot, attr := { QpAttr.fresh with remoteModule := 5, remoteQpn := 9 } }
def cq0 : Cq := ⟨0, 0x20000, 4, 0, true, 0, 0, 0, false, false, false, 0⟩
def oq (x : Qp) : State := { o3 with wq := { o3.wq with qps := [(4, x)], cqs := [(0, cq0)] } }
def se (o : Byte) : Sqe := { opcode := o, c := true, x := false, t := false, f := false, s := false, token := 0, wrId := 0x77, localAddr := 0x1000, localKey := 0x105, length := 64, remoteAddr := 0x9000, remoteKey := 0x305, imm := 3, operandA := 5, operandB := 6, reservedZero := true }
def r1 : Region := ⟨0, 0x1000, 4096, 2, 0, 0xFF, 0, [0x70000], 5, true, none, false⟩
def wr1 (s : State) : State := { s with wq := { s.wq with regions := [(1, r1)] } }
def pk (o : Byte) : Packet := { version := 1, dstModule := 0, srcModule := 5, dstQpn := 4, srcQpn := 9, opcode := o, flags := flagBits true true false false false false, psn := 0, msgId := 7, remoteAddr := 0x1000, key := 0x105, payloadLen := 64, pktOffset := 0, aux := 0, payload := List.replicate 64 0x5A }
def ar (p : Packet) : Arrival := ⟨0, p, some (List.replicate 64 3)⟩
def sw (x : Qp) : State := wr1 (oq x)
def we (o : Byte) (p : Psn) : Wqe := { Wqe.new (se o) 0 with st := .started, allSent := true, firstPsn := p, lastPsn := p, sent := 64 }
def fl (p : Psn) : Flight := ⟨p, {pk 3 with psn := p}, 0, 5, true, false, false, 0, 0⟩
def qa (n : Nat) : Qp := { q4 with wqes := [we 3 0], req := { q4.req with una := 0, nxt := 2, flight := [fl 0, { fl 1 with acked := true }], retries := n } }
def qd : Qp := { q4 with resp := { q4.resp with doneSince := some 50, e := 7, re := 5 } }
def qr : Qp := { qa 0 with req := { (qa 0).req with rnrFrom := some 0, rnrUntil := 5000 } }
def qro : Qp := { q4 with type := .roceRc, roceRate := 2^32 }
def qro2 : Qp := { qro with lastCnp := some 60 }
def cim : List Byte := List.replicate 252 0 ++ leBytes 4 (contextCrc 4 (List.replicate 252 0))
def v1 := {qr with tier := .warm}
def qw : Qp := { q4 with tier := .warm }
def fe (x : Qp) : State := { sw x with ctx := { o3.ctx with fetching := [(4, some 0)] } }
def fp (x : Qp) : State := { fe x with ctx := { (fe x).ctx with parked := [⟨ar (pk 3), 1, 5⟩] } }
def fw : State := { sw qw with ctx := { o3.ctx with fetchWait := [(0, 4)] } }
def sl : State := { sw qw with ctx := { o3.ctx with slotWait := [4] } }
def qi0 : Qp := { q4 with wqes := [] }
def lo : State := { (sw qi0).setObj Row.hotLowWatermark (2^20) with wq := { (sw qi0).wq with qps := [(4, qi0), (5, qa 0), (6, qw)] } }
def v3 := { sw qw with ctx := { o3.ctx with suppress := [(0, 5, 4, 9000)] } }
theorem witness_TransportTimers :
    ((sw qd).qp 4 = some qd ∧ qd.tier = Tier.hot ∧ qd.lost = false ∧ qd.freeing = false ∧ qd.resp.doneSince = some 50 ∧
      (sw qd).mirrors 4 qd = false ∧ rising (sw qd).od = true) ∧
    ((sw (qa 2)).qp 4 = some (qa 2) ∧ (qa 2).tier = Tier.hot ∧ (qa 2).freeing = false ∧ (qa 2).maySend = true ∧
      (qa 2).timerDue = some ((qa 2).timerDue.getD 0) ∧ (qa 2).timedOut ≠ [] ∧ (qa 2).req.retries < 7 ∧
      rising (sw (qa 2)).od = true) ∧
    ((sw (qa 7)).qp 4 = some (qa 7) ∧ (qa 7).tier = Tier.hot ∧ (qa 7).freeing = false ∧ (qa 7).maySend = true ∧
      (qa 7).timerDue.isSome = true ∧ (qa 7).timedOut ≠ [] ∧ 7 ≤ (qa 7).req.retries ∧ (qa 7).oldest = some (we 3 0) ∧
      rising (sw (qa 7)).od = true) ∧
    ((sw (qa 0)).qp 4 = some (qa 0) ∧ (qa 0).tier = Tier.hot ∧ (qa 0).freeing = false ∧ (qa 0).maySend = true ∧
      List.find? (fun g => g.psn == 0) (qa 0).req.flight = some (fl 0) ∧ rising (sw (qa 0)).od = true) ∧
    ((sw qr).qp 4 = some qr ∧ qr.st = QpSt.rts ∧ qr.tier = Tier.hot ∧ qr.lost = false ∧ qr.freeing = false ∧
      (Instr.rnrDelayExpiry 4 = Instr.rnrDelayExpiry 4 ∧ qr.req.rnrFrom = some 0 ∧
      5000 = qr.req.rnrUntil ∨ Instr.rnrDelayExpiry 4 = Instr.parkPauseExpiry 4 ∧ qr.req.parkFrom = some 0 ∧
      5000 = qr.req.parkUntil)) ∧
    ((sw qro).qp 4 = some qro ∧ qro.type = QpType.roceRc ∧ qro.st = QpSt.rts) ∧
    ((sw qro2).qp 4 = some qro2 ∧ qro2.type = QpType.roceRc ∧ qro2.st = QpSt.rts) ∧
    (o3.qp 9 = none ∧ Instr.cnpRx 9 ∈ [Instr.ackDelayExpiry 9, Instr.retransmitTimeout 9, Instr.sackLoss 9 0, Instr.rnrDelayExpiry 9, Instr.parkPauseExpiry 9, Instr.cnpRx 9, Instr.roceRateIncrease 9]) ∧
    ((sw v1).qp 4 = some v1 ∧ v1.tier ≠ Tier.hot ∧ v1.lost = false ∧ v1.freeing = false ∧
      (sw v1).fetchRunning 4 = false ∧ ((sw v1).ctx.fetchWait.any fun f => f.snd == 4) = false ∧
      (Instr.rnrDelayExpiry 4 = Instr.ackDelayExpiry 4 ∧
      v1.resp.doneSince.isSome = true ∨ Instr.rnrDelayExpiry 4 = Instr.rnrDelayExpiry 4 ∧ v1.st = QpSt.rts ∧
      v1.req.rnrFrom.isSome = true ∨ Instr.rnrDelayExpiry 4 = Instr.parkPauseExpiry 4 ∧ v1.st = QpSt.rts ∧
      v1.req.parkFrom.isSome = true ∨ Instr.rnrDelayExpiry 4 = Instr.retransmitTimeout 4 ∧ v1.timerDue.isSome = true)) := by
      and_intros <;> decide +kernel
set_option maxRecDepth 100000 in
theorem witness_ContextStore :
    (((fe qw).ctx.fetching.any fun f => f.fst == 4) = true ∧ (fe qw).qp 4 = some qw ∧ contextWellFormed cim = true ∧
      contextOk 4 cim = true ∧ 0 < (fe qw).freeHot ∧ (fe qw).parkedOf 4 = []) ∧
    (((fp qw).ctx.fetching.any fun f => f.fst == 4) = true ∧ (fp qw).qp 4 = some qw ∧
      contextWellFormed (List.replicate 256 1) = true ∧ contextOk 4 (List.replicate 256 1) = false ∧
      rising (fp qw).od = true) ∧
    ((((fp qw).setObj Row.hbLocalFirst 2).ctx.fetching.any fun f => f.fst == 4) = true ∧
      ((fp qw).setObj Row.hbLocalFirst 2).hostBacked 4 = true ∧ rising ((fp qw).setObj Row.hbLocalFirst 2).od = true) ∧
    (((sw qw).ctx.fetching.any fun f => f.fst == 4) = false ∧ contextWellFormed cim = true ∧
      Instr.contextFetchFail 4 ∈ [Instr.contextFetchDone 4 cim, Instr.contextFetchFail 4]) ∧
    ((List.filter (fun f => f.snd == some 0) fw.ctx.fetching).length < 1024 ∧ fw.ctx.fetchWait = [(0, 4)] ∧
      fw.fetchRunning 4 = false ∧ fw.isHot 4 = false ∧ fw.ctx.writeback = []) ∧
    (sl.ctx.slotWait = [4] ∧ 0 < sl.freeHot ∧ sl.qp 4 = some qw ∧ sl.parkedOf 4 = []) ∧
    ((sw qw).obj Row.hotLowWatermark ≤ (sw qw).freeHot) ∧
    (lo.freeHot < lo.obj Row.hotLowWatermark ∧ rising lo.wq.qps = true) ∧
    (v3.ctx.suppress = [(0, 5, 4, 9000)]) := by and_intros <;> decide +kernel
end Sys2Proof.Tests.Timers

namespace Sys2Proof.Tests.Traffic
open Sys2Proof Sys2Proof.Machine
def R := State.reset
def cf : State := { R with timer := 77, mode := .config, od := [(5, 6)], boot := { R.boot with firmware := true }, host := { R.host with perst := false }, power := { R.power with good := true } }
def op : State := { cf with mode := .operational, freeCount := 4 }
def hpo : HalfPortSt := ⟨0,false,32,false,0,0,0,false,true,.idle,0,0,0,none,0,[],0,0,true,false,0⟩
def hpHost : HalfPortSt := { hpo with role := 1, perst := false, up := true, speed := 5, width := 8, proto := 3 }
def hpAcc : HalfPortSt := { hpo with role := 2, perst := false, up := true, speed := 5, width := 8, proto := 1, enum := .waiting }
def hps : List HalfPortSt := [hpHost, hpo, hpAcc, hpo, hpo, hpo, hpo, hpo]
def oh : State := { op with halfPorts := hps }
def rg : Ring := ⟨0x10000, 4, 0, 0, 0, true, 0, 0, false, none, false, 0, 0⟩
def wl (e : List Nat) (s : State) : State := eachDo e (fun n s => s.setObj Row.enable 1 (n - 1)) s
def lk : LinkSt := LinkSt.idle
def o3 : State := wl [2,3,5,6] oh
def q4 : Qp := { o3.newQp 0 .rc rg (some rg) none 0 none false with st := .rts, tier := .hot, attr := { QpAttr.fresh with remoteModule := 5, remoteQpn := 9 } }
def cq0 : Cq := ⟨0, 0x20000, 4, 0, true, 0, 0, 0, false, false, false, 0⟩
def oq (x : Qp) : State := { o3 with wq := { o3.wq with qps := [(4, x)], cqs := [(0, cq0)] } }
def se (o : Byte) : Sqe := { opcode := o, c := true, x := false, t := false, f := false, s := false, token := 0, wrId := 0x77, localAddr := 0x1000, localKey := 0x105, length := 64, remoteAddr := 0x9000, remoteKey := 0x305, imm := 3, operandA := 5, operandB := 6, reservedZero := true }
def r1 : Region := ⟨0, 0x1000, 4096, 2, 0, 0xFF, 0, [0x70000], 5, true, none, false⟩
def wr1 (s : State) : State := { s with wq := { s.wq with regions := [(1, r1)] } }
def pk (o : Byte) : Packet := { version := 1, dstModule := 5, srcModule := 0, dstQpn := 4, srcQpn := 9, opcode := o, flags := flagBits true true false false false false, psn := 0, msgId := 7, remoteAddr := 0x1000, key := 0x105, payloadLen := 64, pktOffset := 0, aux := 0, payload := List.replicate 64 0x5A }
def sw (x : Qp) : State := wr1 (oq x)
def lup : LinkSt := { lk with st := 2, lanes := 15, granted := List.replicate 8 0, sent := List.replicate 8 0 }
def kt : QPkt := { QPkt.made (pk 3) 0 0 5 with transit := true, cls := 1, came := some (1, 1) }
def ol (x : Qp) : State :=
  let s := eachDo [0,1,2,3] (fun p s => s.setObj Row.portMode 1 p) (((sw x).setObj Row.torusX 4).setObj Row.torusY 4)
  { s with fabric := { s.fabric with links := [lup, lup, lup, lup, lk, lk] } }
def tq : State := { ol { q4 with wqes := [] } with traffic := { o3.traffic with egress := [(1, ⟨[kt], 10000, 0, 0, []⟩)] } }
def tlv : Nat := (tq.topLevel 0).getD 9
def tt : State := (tq.levelTurn 0 tlv).1
def w0 : Wqe := { Wqe.new (se 3) 0 with mirrored := true }
def qs_ : Qp := { q4 with wqes := [w0] }
def ts : State := ol qs_
def pp : NetPort := ((List.range 4).find? fun p => (ts.topLevel p).isSome).map (fun n => (if n = 0 then 0 else if n = 1 then 1 else if n = 2 then 2 else 3)) |>.getD 0
def slv : Nat := (ts.topLevel pp.val).getD 9
def st_ : State := (ts.levelTurn pp.val slv).1
def sv : Nat := ((ts.levelTurn pp.val slv).2).getD 9
def slo : Local := match st_.pickVc pp.val sv with | some (.own l) => l | _ => ⟨0, 0, kt, none⟩
def skw : Packet × Wqe := slo.entry.getD (pk 3, w0)
def tb : State := { (((sw q4).setObj Row.vcRate 0 0 1).setObj Row.vcRate 5 1 2).setObj Row.vcBurst 100 1 2 with traffic := { o3.traffic with vcTokens := [(1, 7), (10, 3)] } }
def qg : Qp := { q4 with resp := { q4.resp with needMax := 100 } }
def tg : State := if (sw qg).obj Row.grantFloor < 4096 then (sw qg).setObj Row.grantFloor 8192 else sw qg
def qgs : Qp := { qg with resp := { qg.resp with lastHp := some 0 } }
def tgs : State := let t := sw qgs; if t.obj Row.grantFloor < 4096 then t.setObj Row.grantFloor 8192 else t
def qc : Qp := { q4 with req := { q4.req with credits := [(4096, 500), (4096, 400), (10, 1000)], balance := 8202 } }
def qw_ : Qp := { q4 with req := { q4.req with waitSince := some 40, need := 555 } }
theorem witness_TrafficManager :
    (tq.enabled 5 = true ∧ tq.enabled 6 = true ∧ tq.offPort = none ∧ tq.topLevel 0 = some tlv ∧
      tq.levelTurn (0) tlv = (tt, some 1) ∧ tt.pickVc (0) 1 = some (Pick.transit kt) ∧ tq.ethernet 0 = false ∧
      0 < tq.fabric.links.length) ∧
    (ts.enabled 5 = true ∧ ts.enabled 6 = true ∧ ts.offPort = none ∧ ts.topLevel ↑pp = some slv ∧
      ts.levelTurn (↑pp) slv = (st_, some sv) ∧ st_.pickVc (↑pp) sv = some (Pick.own slo) ∧
      slo.entry = some (skw.fst, skw.snd) ∧ ts.qp slo.qpn = some qs_ ∧ qs_.type ≠ QpType.ud ∧ skw.fst.retx = false ∧
      isReadOrAtomic skw.fst.opcode = false ∧ skw.snd.internal = false ∧ ts.payloadOk qs_ skw.snd skw.fst = true ∧
      ts.readPathDown qs_ skw.fst skw.snd = false ∧ ts.ethernet ↑pp = false) ∧
    ((R.enabled 5 = false ∨ R.enabled 6 = false ∨ R.offPort = none ∧ R.topLevel 0 = none)) ∧
    (tb.enabled 6 = true ∧ rising tb.traffic.vcTokens = true ∧ tb.onBeat 5 1000 = true) ∧
    (tg.enabled 6 = true ∧ tg.enabled 3 = true ∧ tg.wq.qps = [(4, qg)] ∧
      tg.granting 4 qg = true ∧ qg.type = QpType.rc ∧ qg.comm = none ∧
      qg.resp.recent = [] ∧ qg.resp.granted = qg.resp.arrived ∧ qg.resp.granted < qg.resp.needMax ∧
      qg.resp.needMax ≤ qg.resp.granted + 4096 ∧ 4096 ≤ tg.obj Row.grantFloor ∧ tg.obj Row.grantChunk ≠ 0 ∧
      tg.grantLevel qg ≤ 3 ∧ tg.mirrors 4 qg = false ∧ rising tg.od = true ∧ tg.onBeat 6 1000 = true) ∧
    (tgs.enabled 6 = true ∧ tgs.enabled 3 = true ∧
      tgs.wq.qps = [(4, qgs)] ∧ tgs.granting 4 qgs = true ∧
      qgs.resp.granted ≤ qgs.resp.arrived ∧ tgs.grantLevel qgs ≤ 3 ∧ rising tgs.od = true) ∧
    (R.enabled 6 = false ∨ R.enabled 3 = false) ∧
    ((sw qc).qp 4 = some qc ∧ qc.req.credits = [(4096, 500), (4096, 400), (10, 1000)] ∧ rising (sw qc).od = true) ∧
    ((sw qw_).qp 4 = some qw_ ∧ qw_.req.waitSince = some 40 ∧ qw_.maySend = true ∧ rising (sw qw_).od = true) ∧
    (tq.enabled 6 = true ∧ 0 < 4 ∧ 1 < 8 ∧ rising tq.od = true) ∧
    (R.enabled 6 = false ∧ (Instr.tmSample = Instr.bucketRefill ∨ Instr.tmSample = Instr.tmSample)) := by
      and_intros <;> decide +kernel
end Sys2Proof.Tests.Traffic

namespace Sys2Proof.Tests.Links
open Sys2Proof Sys2Proof.Machine
def R := State.reset
def cf : State := { R with timer := 77, mode := .config, od := [(5, 6)], boot := { R.boot with firmware := true }, host := { R.host with perst := false }, power := { R.power with good := true } }
def op : State := { cf with mode := .operational, freeCount := 4 }
def hpo : HalfPortSt := ⟨0,false,32,false,0,0,0,false,true,.idle,0,0,0,none,0,[],0,0,true,false,0⟩
def hpHost : HalfPortSt := { hpo with role := 1, perst := false, up := true, speed := 5, width := 8, proto := 3 }
def hpAcc : HalfPortSt := { hpo with role := 2, perst := false, up := true, speed := 5, width := 8, proto := 1, enum := .waiting }
def hps : List HalfPortSt := [hpHost, hpo, hpAcc, hpo, hpo, hpo, hpo, hpo]
def oh : State := { op with halfPorts := hps }
def rg : Ring := ⟨0x10000, 4, 0, 0, 0, true, 0, 0, false, none, false, 0, 0⟩
def wl (e : List Nat) (s : State) : State := eachDo e (fun n s => s.setObj Row.enable 1 (n - 1)) s
def lk : LinkSt := LinkSt.idle
def o3 : State := wl [2,3,5,6] oh
def q4 : Qp := { o3.newQp 0 .rc rg (some rg) none 0 none false with st := .rts, tier := .hot, attr := { QpAttr.fresh with remoteModule := 5, remoteQpn := 9 } }
def cq0 : Cq := ⟨0, 0x20000, 4, 0, true, 0, 0, 0, false, false, false, 0⟩
def oq (x : Qp) : State := { o3 with wq := { o3.wq with qps := [(4, x)], cqs := [(0, cq0)] } }
def r1 : Region := ⟨0, 0x1000, 4096, 2, 0, 0xFF, 0, [0x70000], 5, true, none, false⟩
def wr1 (s : State) : State := { s with wq := { s.wq with regions := [(1, r1)] } }
def pk (o : Byte) : Packet := { version := 1, dstModule := 5, srcModule := 0, dstQpn := 4, srcQpn := 9, opcode := o, flags := flagBits true true false false false false, psn := 0, msgId := 7, remoteAddr := 0x1000, key := 0x105, payloadLen := 64, pktOffset := 0, aux := 0, payload := List.replicate 64 0x5A }
def sw (x : Qp) : State := wr1 (oq x)
def lup : LinkSt := { lk with st := 2, lanes := 15, granted := List.replicate 8 0, sent := List.replicate 8 0 }
def kt : QPkt := { QPkt.made (pk 3) 0 0 5 with transit := true, cls := 1, came := some (1, 1) }
def fr (n : Nat) : LinkFrame := ⟨n, 0, 1, 1, false, false, false, pk 3⟩
def lh : LinkSt := { lup with held := [fr 4094, fr 4095, fr 0, fr 1], nextLseq := 2, expect := 4095 }
def ol (x : Qp) : State :=
  let s := eachDo [0,1,2,3] (fun p s => s.setObj Row.portMode 1 p) (((sw x).setObj Row.torusX 4).setObj Row.torusY 4)
  { s with fabric := { s.fabric with links := [lup, lh, lup, lup, lh, lk] } }
def S := ol q4
def bad (n : Nat) (b : List Byte) : List Byte := b.set n ((b.getD n 0) ^^^ 1)
def lf : LinkFrame := ⟨4095, 4095, 1, 1, false, false, false, pk 3⟩
def ff : RxFrame := ⟨lf.bytes, false, none⟩
def lfo : LinkFrame := { lf with pkt := { pk 3 with dstModule := 0, srcModule := 5, dstQpn := 4 } }
def ffo : RxFrame := ⟨lfo.bytes, false, none⟩
def aro : Arrival := ⟨1, lfo.pkt, none⟩
def v2 := {lf with stomp := true}
def v3 := {lf with lseq := 5}
def se2 : State := { S.setObj Row.portMode 2 1 with wq := { S.wq with qps := [(4, q4)] } }
def ef : EthFrame := ⟨200, leBytes 6 (Config.ethMac 1), some se2.ownAddress, BitVec.ofNat 16 (se2.obj Row.nativeUdpPort), false, true, true, true, false, [], 0x1A, 100, [], aro⟩
def v6 := {ef with fcsOk := false}
def v9 := {ef with dstMac := []}
def cf_ (c : Nat) (r pr lv : Nat) : List Byte := controlBytes c [1,2,3,4,5,6,7,8] 0 r pr lv
def pa : State := se2.setLink 1 {lup with paused := 12}
def sk : State := S.setLink 2 {lup with ingress := [(1, []), (3,[kt])]}
def sd : State := (S.setLink 2 {lup with lanes := 3}).setObj Row.laneStatus 7 9
def sp : State := { (S.setLink 1 {lh with ingress := [(1,[kt])]}) with traffic := { S.traffic with egress := [(8+1, ⟨[kt, {kt with stomp := true}], 10000, 0, 0, []⟩), (16, ⟨[kt],0,0,0,[]⟩)] } }
def s8 : State := (S.setObj Row.portMode 4 2).setObj Row.portMode 4 3
def s9 : State := (wl [11] S).setLink 5 {lk with st := 3}
def v12 := {lk with st := 1}
def sb : State := { S.setObj Row.routingMode 2 with blobs := [(0x760007, List.replicate 16 3)] }
def sq : State := { S.setObj Row.pairBase 100 with fabric := { S.fabric with pairDead := [2, 4, 9] } }
set_option maxRecDepth 100000 in
theorem witness_LinkLayer :
    (1 < 4 ∧ 1 < S.fabric.links.length ∧ (S.link 1).up = true ∧ S.native 1 = true ∧ (frameOf ff.bytes).kind = 0 ∧
      (frameOf ff.bytes).hcrcOk = true ∧ ff.fecBad = false ∧ (frameOf ff.bytes).trailer = Trailer.good ∧
      (frameOf ff.bytes).lseq = (S.link 1).expect ∧ rising S.od = true ∧
      S.resolve (BitVec.toNat (frameOf ff.bytes).pkt.dstModule) (BitVec.toNat (frameOf ff.bytes).pkt.dstQpn) ≠ some (BitVec.toNat S.ownAddress)) ∧
    (1 < S.fabric.links.length ∧ (S.link 1).up = true ∧ S.native 1 = true ∧ (frameOf ffo.bytes).kind = 0 ∧
      (frameOf ffo.bytes).hcrcOk = true ∧ ffo.fecBad = false ∧ (frameOf ffo.bytes).trailer = Trailer.good ∧
      (frameOf ffo.bytes).lseq = (S.link 1).expect ∧
      S.resolve (BitVec.toNat (frameOf ffo.bytes).pkt.dstModule) (BitVec.toNat (frameOf ffo.bytes).pkt.dstQpn) = some (BitVec.toNat S.ownAddress)) ∧
    (1 < S.fabric.links.length ∧ (S.link 1).up = true ∧ S.native 1 = true ∧
      (frameOf { bytes := v2.bytes, fecBad := false, data := none : RxFrame }.bytes).kind = 0 ∧
      (frameOf { bytes := v2.bytes, fecBad := false, data := none : RxFrame }.bytes).hcrcOk = true ∧
      { bytes := v2.bytes, fecBad := false, data := none : RxFrame }.fecBad = false ∧
      (frameOf { bytes := v2.bytes, fecBad := false, data := none : RxFrame }.bytes).trailer = Trailer.stomped ∧
      (frameOf { bytes := v2.bytes, fecBad := false, data := none : RxFrame }.bytes).lseq = (S.link 1).expect ∧
      rising S.od = true) ∧
    (1 < S.fabric.links.length ∧ (S.link 1).up = true ∧ S.native 1 = true ∧
      (frameOf { bytes := lf.bytes, fecBad := true, data := none : RxFrame }.bytes).kind = 0 ∧
      ((frameOf { bytes := lf.bytes, fecBad := true, data := none : RxFrame }.bytes).hcrcOk = false ∨ { bytes := lf.bytes, fecBad := true, data := none : RxFrame }.fecBad = true ∨ (frameOf { bytes := lf.bytes, fecBad := true, data := none : RxFrame }.bytes).trailer = Trailer.bad) ∧
      (S.link 1).reqAt = none ∧ rising S.od = true) ∧
    (1 < S.fabric.links.length ∧ (S.link 1).up = true ∧ S.native 1 = true ∧
      (frameOf { bytes := v3.bytes, fecBad := false, data := none : RxFrame }.bytes).kind = 0 ∧
      (frameOf { bytes := v3.bytes, fecBad := false, data := none : RxFrame }.bytes).hcrcOk = true ∧
      { bytes := v3.bytes, fecBad := false, data := none : RxFrame }.fecBad = false ∧
      (frameOf { bytes := v3.bytes, fecBad := false, data := none : RxFrame }.bytes).trailer ≠ Trailer.bad ∧
      (frameOf { bytes := v3.bytes, fecBad := false, data := none : RxFrame }.bytes).lseq ≠ (S.link 1).expect ∧
      (S.link 1).reqAt = none) ∧
    (se2.iface 1 = 1 ∧ se2.portUp 1 = true ∧ se2.ethernet 1 = true ∧ ef.fragment = false ∧ ef.checksumOk = true ∧
      ef.fcsOk = true ∧ ef.length ≤ 9216 ∧ ef.tags.length ≤ 1 ∧ ef.ipDst = some se2.ownAddress ∧
      ef.udpPort.toNat = se2.obj Row.nativeUdpPort ∧ ef.udpPort ≠ 4791 ∧
      se2.wrongEncapsulation (BitVec.toNat ef.arr.pkt.dstQpn) false = false ∧ rising se2.od = true ∧
      1 < se2.fabric.links.length) ∧
    (se2.iface 1 = 1 ∧ se2.portUp 1 = true ∧ se2.ethernet 1 = true ∧
      (v6.fragment = true ∨ v6.checksumOk = false ∨ v6.fcsOk = false ∨ 9216 < v6.length ∨ 1 < v6.tags.length) ∧
      rising se2.od = true) ∧
    (se2.iface 1 = 1) ∧
    (controlWellFormed 0 (cf_ 0 0 0 3) = true ∧ 1 < S.fabric.links.length ∧ (S.link 1).st = 2 ∧ S.native 1 = true ∧
      rising S.od = true) ∧
    (controlWellFormed 1 (cf_ 1 0 0 3) = true ∧ 1 < S.fabric.links.length ∧ (S.link 1).st = 2 ∧ S.native 1 = true ∧
      (controlOf (cf_ 1 0 0 3)).crcOk = true ∧ rising S.od = true) ∧
    (1 < S.fabric.links.length ∧ (S.link 1).st = 2 ∧ (S.link 1).held ≠ [] ∧ rising S.od = true) ∧
    (((S.link 0).st ≠ 2 ∨ (S.link 0).held = [])) ∧
    (1 < S.fabric.links.length ∧ (S.link 1).st = 2 ∧ S.native 1 = true ∧ S.onBeat (16 + 1) 500 = true) ∧
    (pa.iface 1 = 1 ∧ 1 < pa.fabric.links.length) ∧
    (rising pa.od = true) ∧
    (2 < sk.fabric.links.length ∧ tget (sk.link 2).ingress 3 = some [kt] ∧ rising sk.od = true ∧
      rising (sk.link 2).ingress = true) := by and_intros <;> decide +kernel
theorem witness_LinkLayer_1 : ef.dstMac = leBytes 6 (Config.ethMac 1) := by rfl
theorem witness_LinkLayer_2 : v6.dstMac = leBytes 6 (Config.ethMac 1) := by rfl
theorem witness_LinkLayer_3 : se2.portUp 1 = false ∨ se2.ethernet 1 = false ∨ v9.dstMac ≠ leBytes 6 (Config.ethMac 1) := by exact .inr (.inr (by show ([] : List Byte) ≠ _; simp [leBytes]))
theorem witness_LinkLayer_4 : ∀ (m w : Nat), m ≠ 2 ∨ w ≠ 3 → (tget (sk.link m).ingress w).getD [] = [] := by
  intro m w h
  match m with
  | 0 => rw [show (sk.link 0).ingress = [] by decide +kernel]; rfl
  | 1 => rw [show (sk.link 1).ingress = [] by decide +kernel]; rfl
  | 2 =>
    rw [show (sk.link 2).ingress = [(1, []), (3, [kt])] by decide +kernel]
    have hw : w ≠ 3 := by omega
    by_cases h1 : w = 1
    · subst h1; rfl
    · simp [tget, Ne.symm hw, Ne.symm h1]
  | 3 => rw [show (sk.link 3).ingress = [] by decide +kernel]; rfl
  | 4 => rw [show (sk.link 4).ingress = [] by decide +kernel]; rfl
  | 5 => rw [show (sk.link 5).ingress = [] by decide +kernel]; rfl
  | n + 6 => rfl
set_option maxRecDepth 100000 in
theorem witness_LanesAndPorts :
    (controlWellFormed 2 (cf_ 2 0 0 3) = true ∧ 1 < 4 ∧ 1 < S.fabric.links.length ∧ (S.link 1).st = 2 ∧
      S.native 1 = true ∧ (controlOf (cf_ 2 0 0 3)).crcOk = true ∧ widest (13) ≠ 0 ∧ rising S.od = true) ∧
    (5 / 4 < S.fabric.links.length ∧ (S.link (5 / 4)).st = 2 ∧ widest (setBit (15) (5 % 4) false) ≠ 0 ∧ rising S.od = true) ∧
    (5 / 4 < S.fabric.links.length ∧ (S.link (5 / 4)).st = 2 ∧ rising S.od = true ∧ rising S.fabric.laneRuns = true) ∧
    (2 < 4 ∧ 2 < sd.fabric.links.length ∧ (sd.link 2).st = 2 ∧ (sd.link 2).lanes ≠ 15 ∧ widest (5) ≠ 0 ∧
      rising sd.od = true) ∧
    (((S.link 2).st ≠ 2 ∨ (S.link 2).lanes = 15)) ∧
    (1 < 4 ∧ 1 < sp.fabric.links.length ∧ (sp.link 1).st = 2 ∧ sp.portsOf 1 = [1] ∧ rising sp.od = true ∧
      rising sp.traffic.egress = true) ∧
    ((∀ (p : Nat), p ∈ S.portsOf 5 → (S.link p).st ≠ 2)) ∧
    (s8.paired800 2 = true ∧ s8.fabric.links.length = 6 ∧ (∀ (p : Nat), p ∈ s8.portsOf 2 → (s8.link p).st = 2)) ∧
    (5 < s9.fabric.links.length ∧ (s9.link 5).st = 3 ∧ s9.enabled (if 5 < 4 then 5 else 11) = true ∧ s9.portMode 5 ≠ 0) ∧
    (0 < (s9.setLink 0 v12).fabric.links.length ∧ ((s9.setLink 0 v12).link 0).st = 1 ∧
      (s9.setLink 0 v12).enabled (if 0 < 4 then 5 else 11) = true ∧ widest ((s9.setLink 0 v12).notRetired (0) (11)) ≠ 0 ∧
      rising (s9.setLink 0 v12).od = true) ∧
    (controlWellFormed 3 (cf_ 3 0 0 0) = true ∧ 1 < 4 ∧ (sb.link 1).st = 2 ∧ sb.native 1 = true ∧
      (controlOf (cf_ 3 0 0 0)).crcOk = true ∧ sb.obj Row.routingMode = 2 ∧ sb.fabric.split = false ∧
      rising sb.od = true) ∧
    (controlWellFormed 4 (cf_ 4 0 102 3) = true ∧ controlOf (cf_ 4 0 102 3) = controlOf (cf_ 4 0 102 3) ∧ 1 < 4 ∧
      (sq.link 1).st = 2 ∧ sq.native 1 = true ∧ (controlOf (cf_ 4 0 102 3)).crcOk = true ∧
      sq.pairOf (controlOf (cf_ 4 0 102 3)).pairAddr = some (2, 4, 5) ∧
      List.Pairwise (fun x1 x2 => x1 < x2) sq.fabric.pairDead ∧ rising sq.od = true) := by and_intros <;> decide +kernel
theorem witness_LanesAndPorts_1 : ∀ (i m : Nat), sq.pairPlace = some (i, m) → i ≠ 2 := by
  have e : sq.pairPlace = some (0, 0) := by decide +kernel
  intro i m h
  rw [e] at h
  simp at h; omega
end Sys2Proof.Tests.Links

namespace Sys2Proof.Tests.MemoryEvents
open Sys2Proof Sys2Proof.Machine
def R := State.reset
def cf : State := { R with timer := 77, mode := .config, od := [(5, 6)], boot := { R.boot with firmware := true }, host := { R.host with perst := false }, power := { R.power with good := true } }
def op : State := { cf with mode := .operational, freeCount := 4 }
def hpo : HalfPortSt := ⟨0,false,32,false,0,0,0,false,true,.idle,0,0,0,none,0,[],0,0,true,false,0⟩
def hpHost : HalfPortSt := { hpo with role := 1, perst := false, up := true, speed := 5, width := 8, proto := 3 }
def hpAcc : HalfPortSt := { hpo with role := 2, perst := false, up := true, speed := 5, width := 8, proto := 1, enum := .waiting }
def hps : List HalfPortSt := [hpHost, hpo, hpAcc, hpo, hpo, hpo, hpo, hpo]
def oh : State := { op with halfPorts := hps }
def rg : Ring := ⟨0x10000, 4, 0, 0, 0, true, 0, 0, false, none, false, 0, 0⟩
def wl (e : List Nat) (s : State) : State := eachDo e (fun n s => s.setObj Row.enable 1 (n - 1)) s
def o3 : State := wl [2,3,5,6] oh
def q4 : Qp := { o3.newQp 0 .rc rg (some rg) none 0 none false with st := .rts, tier := .hot, attr := { QpAttr.fresh with remoteModule := 5, remoteQpn := 9 } }
def cq0 : Cq := ⟨0, 0x20000, 4, 0, true, 0, 0, 0, false, false, false, 0⟩
def oq (x : Qp) : State := { o3 with wq := { o3.wq with qps := [(4, x)], cqs := [(0, cq0)] } }
def r1 : Region := ⟨0, 0x1000, 4096, 2, 0, 0xFF, 0, [0x70000], 5, true, none, false⟩
def wr1 (s : State) : State := { s with wq := { s.wq with regions := [(1, r1)] } }
def sw (x : Qp) : State := wr1 (oq x)
def eq0 : Eq := ⟨0x9000, 4, 0, 2, 0, 3, false, 0, 3⟩
def m0 : Mem := { R.mem with layout := ⟨8, 100, 20, 3, 2⟩, initActive := true, initMap := 3, initLeft := 5, initTotal := 9, cells := [(0x200, 7), (8 * gib + 1, 9), (108*gib, 1), (108*gib + 5, 2), (109*gib - 1, 3)], loose := [⟨8*gib+10, 8*gib+20, 3, 1⟩, ⟨108*gib+100, 108*gib+120, 0, 2⟩] }
def A : State := { (sw q4).setObj Row.memStatus 127 with mem := m0, eqs := [(0, eq0)] }
def B : State := { A with mem := { m0 with initActive := false, initMap := 0 } }
def v2 := {A with mode := .safe}
def H : State := { B with mode := .hold }
def C (op dest : Nat) (p : CastPhase) : State := { B with mem := { B.mem with cast := some ⟨op, 1, dest, 1, p, 0⟩, dir := [CastEntry.empty, ⟨1, false, 3, 4, 1, 55, 0⟩, CastEntry.empty, CastEntry.empty] } }
def cr (op dest : Nat) (p : CastPhase) : CastRun := ⟨op, 1, dest, 1, p, 0⟩
def cr0 (op dest : Nat) (p : CastPhase) : CastRun := ⟨op, 1, dest, 0, p, 0⟩
def C0 (op dest : Nat) (p : CastPhase) : State := { C op dest p with mem := { (C op dest p).mem with cast := some (cr0 op dest p) } }
theorem witness_MemoryEvents :
    (A.mem.initActive = true ∧ rising A.od = true) ∧
    (B.mem.initActive = false) ∧
    (A.firmwareRuns = true ∧ A.mem.dir.length = 4 ∧ rising A.od = true) ∧
    (v2.firmwareRuns = false) ∧
    (B.firmwareRuns = true ∧ B.mem.initActive = false ∧ B.onBeat (32 + 7) 1380000 = true ∧ B.mem.queues = [] ∧
      B.castWaits = false ∧ rising B.od = true) ∧
    (H.mode = MState.hold ∧ rising H.od = true) ∧
    (B.mode ≠ MState.hold) ∧
    ((C 1 0 CastPhase.waiting).mem.cast = some (cr 1 0 CastPhase.waiting) ∧
      (cr 1 0 CastPhase.waiting).phase = CastPhase.waiting ∧ (C 1 0 CastPhase.waiting).applyRunning = false) ∧
    ((C0 1 0 CastPhase.copying).mem.cast = some (cr0 1 0 CastPhase.copying) ∧
      (cr0 1 0 CastPhase.copying).phase = CastPhase.copying ∧ (cr0 1 0 CastPhase.copying).op = 1 ∧
      (cr0 1 0 CastPhase.copying).slot < 4 ∧ (C0 1 0 CastPhase.copying).mem.dir.length = 4 ∧
      (C0 1 0 CastPhase.copying).mem.wf = true ∧ (C0 1 0 CastPhase.copying).shares = 1 ∧
      rising (C0 1 0 CastPhase.copying).od = true) ∧
    ((C0 2 3 CastPhase.copying).mem.cast = some (cr0 2 3 CastPhase.copying) ∧
      (cr0 2 3 CastPhase.copying).phase = CastPhase.copying ∧ (cr0 2 3 CastPhase.copying).op = 2 ∧
      (cr0 2 3 CastPhase.copying).slot < 4 ∧ (C0 2 3 CastPhase.copying).mem.wf = true ∧
      (C0 2 3 CastPhase.copying).shares = 1 ∧ rising (C0 2 3 CastPhase.copying).od = true) ∧
    ((C 1 0 CastPhase.mirroring).mem.cast = some (cr 1 0 CastPhase.mirroring) ∧
      (cr 1 0 CastPhase.mirroring).phase = CastPhase.mirroring ∧ (cr 1 0 CastPhase.mirroring).slot < 4 ∧
      (C 1 0 CastPhase.mirroring).mem.dir.length = 4 ∧ rising (C 1 0 CastPhase.mirroring).od = true) := by
      and_intros <;> decide +kernel
end Sys2Proof.Tests.MemoryEvents

namespace Sys2Proof.Tests.Collectives
open Sys2Proof Sys2Proof.Machine
def R := State.reset
def cf : State := { R with timer := 77, mode := .config, od := [(5, 6)], boot := { R.boot with firmware := true }, host := { R.host with perst := false }, power := { R.power with good := true } }
def op : State := { cf with mode := .operational, freeCount := 4 }
def hpo : HalfPortSt := ⟨0,false,32,false,0,0,0,false,true,.idle,0,0,0,none,0,[],0,0,true,false,0⟩
def hpHost : HalfPortSt := { hpo with role := 1, perst := false, up := true, speed := 5, width := 8, proto := 3 }
def hpAcc : HalfPortSt := { hpo with role := 2, perst := false, up := true, speed := 5, width := 8, proto := 1, enum := .waiting }
def hps : List HalfPortSt := [hpHost, hpo, hpAcc, hpo, hpo, hpo, hpo, hpo]
def oh : State := { op with halfPorts := hps }
def rg : Ring := ⟨0x10000, 4, 0, 0, 0, true, 0, 0, false, none, false, 0, 0⟩
def wl (e : List Nat) (s : State) : State := eachDo e (fun n s => s.setObj Row.enable 1 (n - 1)) s
def o3 : State := wl [2,3,5,6] oh
def q4 : Qp := { o3.newQp 0 .rc rg (some rg) none 0 none false with st := .rts, tier := .hot, attr := { QpAttr.fresh with remoteModule := 5, remoteQpn := 9 } }
def cq0 : Cq := ⟨0, 0x20000, 4, 0, true, 0, 0, 0, false, false, false, 0⟩
def r1 : Region := ⟨0, 0x1000, 4096, 2, 0, 0xFF, 0, [0x70000], 5, true, none, false⟩
def wr1 (s : State) : State := { s with wq := { s.wq with regions := [(1, r1)] } }
def osg : State := { o3 with mem := { o3.mem with layout := ⟨8, 900, 474, 20, 0⟩, cells := [(3, 4)] } }
def q8 : Qp := { o3.newQp 0 .coll rg none none 0 none false with st := .rts, tier := .hot, type := .coll, comm := some 3, attr := { QpAttr.fresh with remoteModule := 5, remoteQpn := 9 } }
def cse (kind d : Nat) : CollSqe := { t := false, token := 0, c := true, s := false, f := false, x := false, wrId := 7, outAddr := 0x1000, outKey := 0x105, inKey := 0x105, inAddr := 0x1000, count := 256, schedId := 7, root := 0, redop := 0, kind := BitVec.ofNat 4 kind, dtype := BitVec.ofNat 8 d, ncontrib := 1, ext := 0, reservedZero := true }
def y0 (kind d : Nat) (st : CollState) : Coll := { Coll.new 5 1 100 (cse kind d) 3 { contribs := [], vec := [], scalars := [], outputs := [], ok := true } with st := st, chunks := 8, fmt := d, data := List.replicate 1024 0 }
def mk (ys : List Coll) : Comm := ⟨0, 3, 2, 0, 1, 8, 0, [⟨1, 1, false⟩], 0, 1, 0, false, some 4, 6, ys, [], [], false⟩
def sqn : Qp := { q4 with comm := some 3, wqes := [] }
def ss (ys : List Coll) : State := wr1 { osg with wq := { osg.wq with qps := [(4, sqn), (9, q8)], cqs := [(0, cq0)] }, colls := { osg.colls with comms := [(2, mk []), (3, mk ys)], chunks := 100, scheds := [(fid 0 7, ⟨8192, 100, 2, 0, (2,1,1), 0xFFFF⟩)] } }
def pp (o : Byte) (pl : List Byte) (aux : Nat) (k : Nat) (ra : Nat) : Packet := { version := 1, dstModule := 0, srcModule := 5, dstQpn := 9, srcQpn := 9, opcode := o, flags := flagBits true true false false false false, psn := 0, msgId := 7, remoteAddr := BitVec.ofNat 64 ra, key := BitVec.ofNat 32 k, payloadLen := BitVec.ofNat 13 pl.length, pktOffset := 0, aux := BitVec.ofNat 32 aux, payload := pl }
def ar (p : Packet) : Arrival := ⟨0, p, none⟩
def pre (seq type cause : Nat) : List Byte := preBytes { op := 1, dtype := 1, schedId := 7, count := 256, root := 0, seq := seq, epoch := 1, rank := 1, step := 1, type := type, flags := 0, cause := cause, crcOk := true }
def a1 := ar (pp 0x11 (pre 6 0 0) 0 0 0)
def mfull : Comm := { mk [] with early := [{ preParse (pre 7 0 0) with rank := 1 }, { preParse (pre 8 0 0) with rank := 1 }] }
def sfull : State := (ss []).setComm 3 mfull
def a2 (c : Nat) := ar (pp 0x11 (pre 5 1 c) 0 0 0)
def dat : List Byte := List.replicate 64 0x40
def a3 (seq k : Nat) := ar (pp 0x10 dat (seq * 65536 + 16 * 1) k 0)
def yd (kind : Nat) : Coll := { y0 kind 1 .data with begun := true, sqe := { cse kind 1 with count := 256 } }
def st0 (k : Nat) : CStep := ((ss [yd k]).collPlan (mk [yd k]) (yd k)).1.getD 0 ⟨0,0,0,false,false,[],none,none,[],[]⟩
def yq : Coll := y0 8 0 .queued
def yq1 : Coll := { y0 1 1 .queued with chunks := 0 }
def v2 := {ss [yq1] with colls := {(ss [yq1]).colls with chunks := 1}}
def kn : Kernel := ⟨8192, 44, 1, 1, 16 + 2, [BitVec.ofNat 32 (0x10 * 2 ^ 26 + 2 ^ 23), BitVec.ofNat 32 (0x11 * 2 ^ 26 + 2 ^ 18 + 4)]⟩
def sh : Shard := ⟨256, 0, 128, 64, 8192, 1, 0, 0, 1, none⟩
def ext : BitVec 64 := BitVec.ofNat 64 (2 * 2 ^ 48 + 2 * 2 ^ 32 + 1 * 2 ^ 28)
def ya (st : CollState) (pos : Nat) (a : Option ApplyRun) : Coll := { y0 9 1 st with pos := pos, sqe := { cse 9 1 with ext := ext }, outputs := [⟨0x1000, 0x105⟩], apply := a }
def sa (k : Kernel) (y : Coll) : State := { ss [y] with colls := { (ss [y]).colls with kernels := [(fid 0 2, k)], shards := [(fid 0 2, sh)] } }
def ap (d : List Nat) : ApplyRun := ⟨List.replicate 16 0, 5, [2, 3, 0, 1], d, blankVec 1 128⟩
theorem witness_CollectivePackets :
    (sfull.carries a1 17 9 q8 = true ∧ q8.awaitsColl (arriveAs a1 17).pkt = true ∧ q8.comm = some 3 ∧
      sfull.comm 3 = some mfull ∧ sfull.pairSt ≠ 3 ∧ (preParse a1.pkt.payload).type ≤ 1 ∧
      mfull.seqSt (preParse a1.pkt.payload).seq = SeqSt.future ∧ rising sfull.od = true) ∧
    ((ss [y0 1 1 CollState.data]).carries (a2 17) 17 9 q8 = true ∧ q8.awaitsColl (arriveAs (a2 17) 17).pkt = true ∧
      q8.comm = some 3 ∧ (ss [y0 1 1 CollState.data]).comm 3 = some (mk [y0 1 1 CollState.data]) ∧
      (ss [y0 1 1 CollState.data]).pairSt ≠ 3 ∧ (preParse (a2 17).pkt.payload).type = 1 ∧
      (mk [y0 1 1 CollState.data]).seqSt (preParse (a2 17).pkt.payload).seq = SeqSt.live (y0 1 1 CollState.data) ∧
      (mk [y0 1 1 CollState.data]).coll (y0 1 1 CollState.data).k = some (y0 1 1 CollState.data) ∧
      (mk [y0 1 1 CollState.data]).submit ≠ some 9 ∧
      (∀ (r : Nat), r < (mk [y0 1 1 CollState.data]).n → Comm.connQp (ss [y0 1 1 CollState.data]) (mk [y0 1 1 CollState.data]) r = 9 → r = (ss [y0 1 1 CollState.data]).rankOf 9 (mk [y0 1 1 CollState.data]))) ∧
    ((ss []).carries (a3 7 1) 16 9 q8 = true ∧ q8.awaitsColl (arriveAs (a3 7 1) 16).pkt = true ∧ q8.comm = some 3 ∧
      (ss []).comm 3 = some (mk []) ∧ (ss []).pairSt ≠ 3 ∧ BitVec.toNat (a3 7 1).pkt.key = (mk []).epoch ∧
      (a3 7 1).pkt.aux.toNat % 16 ≤ 1 ∧ (mk []).seqSt ((a3 7 1).pkt.aux.toNat / 65536) = SeqSt.future ∧
      (slice (a3 7 1).pkt.payload 0 (a3 7 1).pkt.payloadLen.toNat).length ≤ (mk []).ovfFree ∧ rising (ss []).od = true) ∧
    ((ss []).carries (a3 7 2) 16 9 q8 = true ∧ q8.awaitsColl (arriveAs (a3 7 2) 16).pkt = true ∧ q8.comm = some 3 ∧
      (ss []).comm 3 = some (mk []) ∧ (ss []).pairSt ≠ 3 ∧ rising (ss []).od = true ∧
      (BitVec.toNat (a3 7 2).pkt.key ≠ (mk []).epoch ∨ (a3 7 2).pkt.aux.toNat % 16 ≤ 1 ∧
      (mk []).seqSt ((a3 7 2).pkt.aux.toNat / 65536) = SeqSt.ended)) ∧
    ((ss [yd 1]).carries (a3 5 1) 16 9 q8 = true ∧ q8.awaitsColl (arriveAs (a3 5 1) 16).pkt = true ∧ q8.comm = some 3 ∧
      (ss [yd 1]).comm 3 = some (mk [yd 1]) ∧ (ss [yd 1]).pairSt ≠ 3 ∧
      BitVec.toNat (a3 5 1).pkt.key = (mk [yd 1]).epoch ∧ (a3 5 1).pkt.aux.toNat % 16 = 0 ∧
      (mk [yd 1]).seqSt ((a3 5 1).pkt.aux.toNat / 65536) = SeqSt.live (yd 1) ∧ (mk [yd 1]).coll (yd 1).k = some (yd 1) ∧
      (yd 1).st = CollState.data ∧ (yd 1).begun = true ∧
      ((ss [yd 1]).collPlan (mk [yd 1]) (yd 1)).fst[(yd 1).pos]? = some (st0 1) ∧
      (st0 1).src = some ((ss [yd 1]).rankOf 9 (mk [yd 1])) ∧ (st0 1).num % 4096 = (a3 5 1).pkt.aux.toNat / 16 % 4096 ∧
      dat = slice (a3 5 1).pkt.payload 0 (a3 5 1).pkt.payloadLen.toNat ∧
      (a3 5 1).pkt.remoteAddr.toNat % recBytes (yd 1).fmt = 0 ∧ dat.length % recBytes (yd 1).fmt = 0 ∧
      (a3 5 1).pkt.remoteAddr.toNat + dat.length ≤ rangesLen (yd 1).fmt ((yd 1).recvRanges (mk [yd 1]).n (st0 1)) ∧
      placeIn (yd 1).fmt ((yd 1).recvRanges (mk [yd 1]).n (st0 1)) (a3 5 1).pkt.remoteAddr.toNat dat = [(0, dat)] ∧
      (yd 1).got + dat.length < rangesLen (yd 1).fmt ((yd 1).recvRanges (mk [yd 1]).n (st0 1)) ∧
      ((yd 1).early.all fun w => !w.for_ (st0 1)) = true ∧
      (yd 1).atApply ((ss [yd 1]).collPlan (mk [yd 1]) (yd 1)).snd = false ∧
      ((yd 1).kind = 9 → (yd 1).fmt = (ss [yd 1]).qFmt (mk [yd 1]).func (yd 1).sqe) ∧
      (ss [yd 1]).collPathsUp (yd 1) = true ∧
      (ss [yd 1]).collKeysOk (mk [yd 1]).func (mk [yd 1]).n (mk [yd 1]).rank (yd 1) = true) := by and_intros <;> decide +kernel
theorem witness_CollectiveTimers :
    ((ss [yq]).comm 3 = some (mk [yq]) ∧ (mk [yq]).coll 5 = some yq ∧ yq.st = CollState.queued ∧
      (ss [yq]).bindBusy (mk [yq]) yq = false ∧ (ss [yq]).shardBusy (mk [yq]) yq = false ∧
      (ss [yq]).chunkTurn (mk [yq]) yq = true ∧ (yq.kind ≠ 7 ∨ (mk [yq]).n = 1) ∧ (ss [yq]).schedOk (mk [yq]) yq = true ∧
      yq.vecOk (mk [yq]).n = true ∧ (ss [yq]).bindingOk (mk [yq]) yq = true ∧ (ss [yq]).applyOk (mk [yq]) yq = true ∧
      (ss [yq]).collKeysOk (mk [yq]).func (mk [yq]).n (mk [yq]).rank yq = true) ∧
    (v2.comm 3 = some (mk [yq1]) ∧ (mk [yq1]).coll 5 = some yq1 ∧
      (yq1.st ≠ CollState.queued ∨ v2.bindBusy (mk [yq1]) yq1 = true ∨ v2.shardBusy (mk [yq1]) yq1 = true ∨ v2.chunkTurn (mk [yq1]) yq1 = false)) ∧
    ((ss [yd 1]).comm 3 = some (mk [yd 1]) ∧ (mk [yd 1]).coll 5 = some (yd 1)) ∧
    ((ss [yq]).comm 3 = some (mk [yq]) ∧ (mk [yq]).coll 5 = some yq ∧ rising (ss [yq]).od = true) ∧
    ((sa kn (ya CollState.data 1 none)).comm 3 = some (mk [ya CollState.data 1 none]) ∧
      (mk [ya CollState.data 1 none]).coll 5 = some (ya CollState.data 1 none) ∧
      (sa kn (ya CollState.data 1 none)).kernel (mk [ya CollState.data 1 none]).func (kernelId (ya CollState.data 1 none).sqe) = some kn ∧
      (sa kn (ya CollState.data 1 none)).shard (mk [ya CollState.data 1 none]).func (shardId (ya CollState.data 1 none).sqe) = some sh ∧
      (sa kn (ya CollState.data 1 none)).mem.wf = true) ∧
    ((sa kn (ya CollState.apply 1 (some (ap [])))).comm 3 = some (mk [ya CollState.apply 1 (some (ap []))]) ∧
      (mk [ya CollState.apply 1 (some (ap []))]).coll 5 = some (ya CollState.apply 1 (some (ap []))) ∧
      (sa kn (ya CollState.apply 1 (some (ap [])))).kernel (mk [ya CollState.apply 1 (some (ap []))]).func (kernelId (ya CollState.apply 1 (some (ap []))).sqe) = some kn ∧
      (sa kn (ya CollState.apply 1 (some (ap [])))).shard (mk [ya CollState.apply 1 (some (ap []))]).func (shardId (ya CollState.apply 1 (some (ap []))).sqe) = some sh ∧
      (ya CollState.apply 1 (some (ap []))).apply = some (ap []) ∧
      (sa kn (ya CollState.apply 1 (some (ap [])))).groupDue 3 5 2 = true ∧
      (sa kn (ya CollState.apply 1 (some (ap [])))).collKeysOk (mk [ya CollState.apply 1 (some (ap []))]).func (mk [ya CollState.apply 1 (some (ap []))]).n (mk [ya CollState.apply 1 (some (ap []))]).rank (ya CollState.apply 1 (some (ap []))) = true ∧
      (ya CollState.apply 1 (some (ap []))).kind = 9 ∧ (sa kn (ya CollState.apply 1 (some (ap [])))).mem.wf = true ∧
      rising (sa kn (ya CollState.apply 1 (some (ap [])))).od = true) ∧
    ((sa kn (ya CollState.apply 1 (some (ap [2])))).groupDue 3 5 2 = false) ∧
    ((sa kn (ya CollState.apply 1 (some (ap [0])))).comm 3 = some (mk [ya CollState.apply 1 (some (ap [0]))]) ∧
      (mk [ya CollState.apply 1 (some (ap [0]))]).coll 5 = some (ya CollState.apply 1 (some (ap [0]))) ∧
      (sa kn (ya CollState.apply 1 (some (ap [0])))).shard (mk [ya CollState.apply 1 (some (ap [0]))]).func (shardId (ya CollState.apply 1 (some (ap [0]))).sqe) = some sh ∧
      (ya CollState.apply 1 (some (ap [0]))).apply = some (ap [0]) ∧
      (ya CollState.apply 1 (some (ap [0]))).st = CollState.apply ∧
      (sa kn (ya CollState.apply 1 (some (ap [0])))).mem.wf = true ∧
      rising (sa kn (ya CollState.apply 1 (some (ap [0])))).od = true) := by and_intros <;> decide +kernel
end Sys2Proof.Tests.Collectives

namespace Sys2Proof.Tests.Integrity
open Sys2Proof Sys2Proof.Machine
def R := State.reset
def cf : State := { R with timer := 77, mode := .config, od := [(5, 6)], boot := { R.boot with firmware := true }, host := { R.host with perst := false }, power := { R.power with good := true } }
def op : State := { cf with mode := .operational, freeCount := 4 }
def hpo : HalfPortSt := ⟨0,false,32,false,0,0,0,false,true,.idle,0,0,0,none,0,[],0,0,true,false,0⟩
def hpHost : HalfPortSt := { hpo with role := 1, perst := false, up := true, speed := 5, width := 8, proto := 3 }
def hpAcc : HalfPortSt := { hpo with role := 2, perst := false, up := true, speed := 5, width := 8, proto := 1, enum := .waiting }
def hps : List HalfPortSt := [hpHost, hpo, hpAcc, hpo, hpo, hpo, hpo, hpo]
def oh : State := { op with halfPorts := hps }
def wl (e : List Nat) (s : State) : State := eachDo e (fun n s => s.setObj Row.enable 1 (n - 1)) s
def o3 : State := wl [2,3,5,6] oh
def S : State := { o3 with reliab := { o3.reliab with arbs := [⟨3, some 65, none⟩] } }
def ln (a b c d : Nat) : ArbLane := ⟨4, a, ⟨if d = b then encResidue 1 c % 31 else (encResidue 1 c + 1) % 31, by split <;> omega⟩, c⟩
def ii : IssueInfo := ⟨0x10, 1, 1, 0, 0, 5, 6, 7⟩
def jb (p : Option Pattern) : RecordJob := ⟨2, List.replicate 328 7, p⟩
def J (p : Option Pattern) : State := { o3 with reliab := { o3.reliab with jobs := [jb p, jb none] }, flash := { o3.flash with records := [(3, [1]), (4, [2])], nextRecord := 5 } }
def sc : State := { o3.setObj Row.rauRole 3 9 with reliab := { o3.reliab with scan := some (9, true), waiting := [11, 9, 12] } }
theorem witness_ArithmeticIntegrity :
    (S.reliab.arbs = [{ unit := 3, replay := some 65, failed := none : Arb }] ∧ S.disputesOf 3 = [] ∧
      worstVerdict (BitVec.toNat ii.format) [] = 0 ∧ S.obj Row.rauSuspect 3 + 1 < min 256 (S.obj Row.suspectLimit) ∧
      rising S.od = true) ∧
    (S.reliab.arbs = [{ unit := 3, replay := some 65, failed := none : Arb }] ∧ S.disputesOf 3 = [] ∧
      worstVerdict (BitVec.toNat ii.format) [ln 5 5 6 5] = 1 ∧ 65 < 68 ∧ 65 ≠ 3 ∧ rising S.od = true) ∧
    (S.reliab.arbs = [{ unit := 3, replay := some 65, failed := none : Arb }] ∧ S.disputesOf 3 = [] ∧
      2 ≤ worstVerdict (BitVec.toNat ii.format) [ln 5 5 6 7] ∧ 65 < 68 ∧ 65 ≠ 3 ∧ S.role 65 ≤ 1 ∧ rising S.od = true) ∧
    (S.reliab.arbs = [{ unit := 3, replay := some 65, failed := none : Arb }] ∧
      List.find? (fun w => S.role w == 1 && !S.underScan w && w != 65 && w != 3) (List.range 68) = some 64 ∧ 65 ≠ 3 ∧
      rising S.od = true) ∧
    ((S.reliab.arbs.any fun a => a.unit == 4 && a.replay.isSome) = false) ∧
    ((J none).reliab.jobs = [jb none, jb none] ∧ rising (J none).flash.records = true ∧ rising (J none).od = true) ∧
    (o3.reliab.jobs = []) ∧
    (o3.obj Row.rotateInterval ≠ 0 ∧ o3.onBeat 10 (o3.obj Row.rotateInterval * 1000000000) = true ∧
      o3.reliab.scan = none ∧ o3.firmwareRuns = true ∧ o3.nextTurn = some 0 ∧ rising o3.od = true) ∧
    ((o3.setObj Row.rotateInterval 0).obj Row.rotateInterval = 0) ∧
    (sc.underScan 9 = true ∧ rising sc.od = true) ∧
    (sc.underScan 9 = true ∧ (false = false ∨ (none : Option Nat) ≠ none) ∧ rising sc.od = true) ∧
    (sc.underScan 11 = false ∧ sc.reliab.waiting.contains 11 = true ∧ rising sc.od = true) ∧
    (sc.underScan 13 = false ∧ sc.reliab.waiting.contains 13 = false) := by and_intros <;> decide +kernel
end Sys2Proof.Tests.Integrity

namespace Sys2Proof.Tests.Twin
open Sys2Proof Sys2Proof.Machine
def R := State.reset
def cf : State := { R with timer := 77, mode := .config, od := [(5, 6)], boot := { R.boot with firmware := true }, host := { R.host with perst := false }, power := { R.power with good := true } }
def op : State := { cf with mode := .operational, freeCount := 4 }
def hpo : HalfPortSt := ⟨0,false,32,false,0,0,0,false,true,.idle,0,0,0,none,0,[],0,0,true,false,0⟩
def hpHost : HalfPortSt := { hpo with role := 1, perst := false, up := true, speed := 5, width := 8, proto := 3 }
def hpAcc : HalfPortSt := { hpo with role := 2, perst := false, up := true, speed := 5, width := 8, proto := 1, enum := .waiting }
def hps : List HalfPortSt := [hpHost, hpo, hpAcc, hpo, hpo, hpo, hpo, hpo]
def oh : State := { op with halfPorts := hps }
def rg : Ring := ⟨0x10000, 4, 0, 0, 0, true, 0, 0, false, none, false, 0, 0⟩
def wl (e : List Nat) (s : State) : State := eachDo e (fun n s => s.setObj Row.enable 1 (n - 1)) s
def lk : LinkSt := LinkSt.idle
def o3 : State := wl [2,3,5,6] oh
def q4 : Qp := { o3.newQp 0 .rc rg (some rg) none 0 none false with st := .rts, tier := .hot, attr := { QpAttr.fresh with remoteModule := 5, remoteQpn := 9 } }
def cq0 : Cq := ⟨0, 0x20000, 4, 0, true, 0, 0, 0, false, false, false, 0⟩
def oq (x : Qp) : State := { o3 with wq := { o3.wq with qps := [(4, x)], cqs := [(0, cq0)] } }
def lup : LinkSt := { lk with st := 2, lanes := 15, granted := List.replicate 8 0, sent := List.replicate 8 0 }
def g (s : State) : State := { wl [11] s with fabric := { s.fabric with links := [lk, lk, lk, lk, lup, lup] } }
def pr (n : Nat) (s : State) : State := { (((g s).setObj Row.torusX 2).setObj Row.torusY 1).setObj Row.pairBase 2 |>.setPairSt n with twin := { s.twin with position := 1 } }
def b0 : State := pr 3 (oq { q4 with type := .rc })
def hb : Heartbeat := ⟨4, 3, 2, false, false, 5, 2, 1, [1,2,3], 0x01000000, 1⟩
def sk : State := (pr 1 o3).setObj Row.pairAddress 2 |>.setObj Row.fwVersion 0x01000000
def hello : Heartbeat := { hb with hello := true, pairState := 1 }
def v2 := { hello with shares := 4 }
def v4 := { hb with moduleState := 5 }
def rr (n : Nat) (k : Byte) : MirrorRecord := ⟨k, BitVec.ofNat 32 n, 4, 2, 0, 7, 9, 2, 0, 0, 0, []⟩
def b1 : State := { b0 with twin := { b0.twin with partner := some hb, heardAt := 60, unacked := [rr 5 1], held := [(5, .start 4 0)] } }
def b2 : State := { b0 with twin := { b0.twin with rseqIn := 2^32 - 1 } }
def kk : QPkt := QPkt.made { version := 1, dstModule := 5, srcModule := 0, dstQpn := 4, srcQpn := 9, opcode := 0x30, flags := 0, psn := 0, msgId := 7, remoteAddr := 0x1000, key := 0x105, payloadLen := 0, pktOffset := 0, aux := 0, payload := [] } 0 4 5
def q4r : Qp := { q4 with type := .rc, sq := { q4.sq with h := 5 } }
def b3a : State := { (pr 3 (oq q4r)) with twin := { b0.twin with unacked := [rr 5 1], held := [(5, .post kk)] } }
def b3 : State := { b0 with twin := { b0.twin with unacked := [rr 5 1, rr 6 1], held := [(5, .post kk)] } }
def b4 : State := b0.setPairSt 2
def b5 : State := { b0 with mem := { b0.mem with paired := true, layout := ⟨8, 100, 20, 3, 2⟩, cells := [(5, 6)] } }
def v5 := {b5 with twin := {b5.twin with receiving := some 3}}
def v6 := {oq q4 with mode := .hold}
def b6 (src : Bool) : State := { b4 with twin := { b4.twin with source := src, hello := some hb } }
def v8 := {b6 false with fabric := {b0.fabric with pairDead := [0, 1]}}
theorem witness_Twins :
    (b0.enabled 11 = true ∧ b0.twin.stopped = false ∧ b0.obj Row.heartbeatInterval ≠ 0 ∧
      b0.onBeat 9 (b0.obj Row.heartbeatInterval) = true) ∧
    ((R.enabled 11 = false ∨ R.twin.stopped = true)) ∧
    (b0.enabled 11 = true ∧ (b0.twin.unacked.any fun r => r.rseq == hb.rseqAck) = false ∧ b0.mode = MState.operational ∧
      b0.pairSt = 3 ∧ hb.moduleState = 4 ∧ hb.pairState ≠ 5) ∧
    (sk.enabled 11 = true ∧ sk.twin.unacked = [] ∧ sk.mode = MState.operational ∧ sk.pairSt = 1 ∧ hello.hello = true ∧
      sk.helloFault hello = 0 ∧ sk.holdsObjects = false ∧ hello.holdsObjects = false ∧ hello.pairState ≠ 4 ∧
      rising sk.od = true ∧ rising sk.blobs = true) ∧
    (sk.enabled 11 = true ∧ sk.twin.unacked = [] ∧ sk.mode = MState.operational ∧ (sk.pairSt = 1 ∨ sk.pairSt = 4) ∧
      v2.hello = true ∧ sk.helloFault v2 ≠ 0 ∧ rising sk.od = true) ∧
    (b0.enabled 11 = true ∧ b0.twin.unacked = [] ∧ b0.mode = MState.operational ∧ b0.pairSt = 3 ∧
      (v4.moduleState = 5 ∨ v4.moduleState = 6) ∧ rising b0.od = true) ∧
    (R.enabled 11 = false) ∧
    (b1.twin.partner = some hb ∧ b1.enabled 11 = true ∧ b1.mode = MState.operational ∧ rising b1.od = true) ∧
    ((b0.twin.partner = none ∨ b0.enabled 11 = false)) ∧
    (b2.takesRecords = true ∧ b2.twin.beyond = [] ∧ b2.twin.ackDue < 15) ∧
    (R.takesRecords = false) ∧
    (b3a.twin.unacked = [rr 5 1] ∧ b3a.twin.held = [((rr 5 1).rseq.toNat, HeldAction.post kk)] ∧ b3a.wq.cqWait = [] ∧
      rising b3a.wq.qps = true ∧ b3a.qp (BitVec.toNat (rr 5 1).qpn) = some q4r ∧
      ahead q4r.sq.own (rr 5 1).sqRetire ≤ ahead q4r.sq.own q4r.sq.h) ∧
    ((b3.twin.unacked.any fun r => r.rseq == 8) = false) ∧
    (b4.pairSt = 2 ∧ b4.twin.source = false ∧ rising b4.od = true) ∧
    (v5.mem.paired = true ∧ v5.enabled 11 = true ∧ v5.mem.dir.length = 4 ∧ v5.mem.wf = true ∧ v5.receivingSlot < 4 ∧
      2 ≤ v5.receivingSlot ∧ 100 + ([] : List Byte).length ≤ v5.slotQuarters * gib / 4) ∧
    ((oq q4).forwardTarget { port := 0, pkt := kk.pkt, data := none : Arrival }.pkt = none ∧
      (oq q4).toForwardHome { port := 0, pkt := kk.pkt, data := none : Arrival }.pkt = false) ∧
    (v6.holding = true ∧ rising v6.od = true) ∧
    ((b6 true).twin.hello = some hb ∧ (b6 true).pairSt = 2 ∧ (b6 true).twin.mismatch = false ∧
      (b6 true).twin.source = true ∧ rising (b6 true).od = true ∧ rising (b6 true).blobs = true) ∧
    (v8.twin.hello = some hb ∧ v8.pairSt = 2 ∧ v8.twin.mismatch = false ∧ v8.twin.source = false ∧ rising v8.od = true) ∧
    ((b0.twin.hello = none ∨ b0.pairSt ≠ 2 ∨ b0.twin.mismatch = true)) := by and_intros <;> decide +kernel
end Sys2Proof.Tests.Twin

namespace Sys2Proof.Tests.Security
open Sys2Proof Sys2Proof.Machine
def R := State.reset
def cf : State := { R with timer := 77, mode := .config, od := [(5, 6)], boot := { R.boot with firmware := true }, host := { R.host with perst := false }, power := { R.power with good := true } }
def op : State := { cf with mode := .operational, freeCount := 4 }
def hpo : HalfPortSt := ⟨0,false,32,false,0,0,0,false,true,.idle,0,0,0,none,0,[],0,0,true,false,0⟩
def hpHost : HalfPortSt := { hpo with role := 1, perst := false, up := true, speed := 5, width := 8, proto := 3 }
def hpAcc : HalfPortSt := { hpo with role := 2, perst := false, up := true, speed := 5, width := 8, proto := 1, enum := .waiting }
def hps : List HalfPortSt := [hpHost, hpo, hpAcc, hpo, hpo, hpo, hpo, hpo]
def oh : State := { op with halfPorts := hps }
def rg : Ring := ⟨0x10000, 4, 0, 0, 0, true, 0, 0, false, none, false, 0, 0⟩
def wl (e : List Nat) (s : State) : State := eachDo e (fun n s => s.setObj Row.enable 1 (n - 1)) s
def o3 : State := wl [2,3,5,6] oh
def q4 : Qp := { o3.newQp 0 .rc rg (some rg) none 0 none false with st := .rts, tier := .hot, attr := { QpAttr.fresh with remoteModule := 5, remoteQpn := 9 } }
def cq0 : Cq := ⟨0, 0x20000, 4, 0, true, 0, 0, 0, false, false, false, 0⟩
def oq (x : Qp) : State := { o3 with wq := { o3.wq with qps := [(4, x)], cqs := [(0, cq0)] } }
def pm : Via := .pfMailbox
def xs (o : Bool) (v : Via) : Session := ⟨v, o, none, 5, 9⟩
def sx (o : Bool) (v : Via) : State := { oh with security := { oh.security with sessions := [(1, xs true pm), (3, xs o v)], nextSession := 4 } }
def s4 : State := { oh with security := { oh.security with sessions := [(1, xs true pm), (2, xs true pm), (3, xs true pm), (5, xs true pm)], nextSession := 6 } }
def iv (_m : IdeKm) (v : Via) (n : Nat) : State := { sx true v with security := { (sx true v).security with linkSlots := [(2, 7)], linkPending := [2, 4], linkActive := [n] } }
def ip (n : Nat) : State := ((iv .query pm n).setObj Row.hostProtocol 15).setObj Row.ideEnable 1 0
def ql : Qp := { q4 with cipher := { q4.cipher with leadAt := some 500, graceAt := some 30, prev := some 4, useNew := false } }
theorem witness_SecurityCommands :
    (1 ≤ 3 ∧ 3 ≤ 5 ∧ (Instr.getVersion (Via.vfMailbox 2), SpdmResp.version) ∈ [(Instr.getVersion (Via.vfMailbox 2), SpdmResp.version), (Instr.getCapabilities (Via.vfMailbox 2), SpdmResp.capabilities), (Instr.negotiateAlgorithms (Via.vfMailbox 2) true, SpdmResp.algorithms), (Instr.negotiateAlgorithms (Via.vfMailbox 2) false, SpdmResp.error), (Instr.getDigests (Via.vfMailbox 2), SpdmResp.digests 1), (Instr.challenge (Via.vfMailbox 2) 7, SpdmResp.challengeAuth 7), (Instr.getMeasurements (Via.vfMailbox 2) 0, SpdmResp.measurements 5 []), (Instr.getMeasurements (Via.vfMailbox 2) 255, SpdmResp.measurements 5 (List.map (fun k => (k, oh.digest k)) [1, 2, 3, 4, 5])), (Instr.getMeasurements (Via.vfMailbox 2) 3, SpdmResp.measurements 5 [(3, oh.digest (3))])]) ∧
    (s4.spdmServed pm = true) ∧
    ((sx false pm).session 3 = some (xs false pm) ∧ (sx false pm).spdmServed (xs false pm).via = true ∧
      rising (sx false pm).security.sessions = true) ∧
    ((Instr.keyUpdate 3, SpdmResp.keyUpdateAck) ∈ [(Instr.spdmHeartbeat 3, SpdmResp.heartbeatAck), (Instr.keyUpdate 3, SpdmResp.keyUpdateAck)] ∧
      (sx true pm).session 3 = some (xs true pm) ∧ (xs true pm).open_ = true ∧
      (sx true pm).spdmServed (xs true pm).via = true) ∧
    ((sx true pm).session 3 = some (xs true pm) ∧ (xs true pm).open_ = true ∧
      (sx true pm).spdmServed (xs true pm).via = true ∧ rising (sx true pm).security.sessions = true) ∧
    (Instr.keyUpdate 3 ∈ [Instr.spdmHeartbeat 3, Instr.keyUpdate 3, Instr.endSession 3, Instr.vendorDefinedRequest 3 IdeKm.query] ∧
      (∀ (x : Session), (sx false pm).session 3 = some x → x.open_ = false ∨ (sx false pm).spdmServed x.via = false)) ∧
    ((ip 3).session 3 = some (xs true pm) ∧ (xs true pm).open_ = true ∧ (ip 3).spdmServed (xs true pm).via = true ∧
      rising (ip 3).od = true) ∧
    ((ip 3).hostUp = true ∧ (ip 3).ideEnabled = true ∧ (ip 3).security.linkPending ≠ [] ∧ rising (ip 3).od = true) ∧
    ((oh.hostUp = false ∨ oh.ideEnabled = false ∨ oh.security.linkPending = [])) ∧
    ((oq ql).qp 4 = some ql ∧ ql.cipher.leadAt = some 500) ∧
    ((oq ql).qp 4 = some ql ∧ ql.cipher.graceAt = some 30) ∧
    ((∀ (x : Qp), (oq q4).qp 4 = some x → x.cipher.leadAt = none)) ∧
    ((∀ (x : Qp), (oq q4).qp 4 = some x → x.cipher.graceAt = none)) ∧
    (oh.spdmServed pm = true) := by and_intros <;> decide +kernel
end Sys2Proof.Tests.Security

namespace Sys2Proof.Tests.Dict
open Sys2Proof Sys2Proof.Machine
def hVf : ReqHdr := ⟨.vfMailbox 1, none, 0x32E41, 1, 0, 8, 0, 0, true, none⟩
theorem witness_Refused :
    ({ rBad with data := List.replicate 1025 0 }.malformed = true) ∧
    (rBad.malformed = false ∧ rBad.cmd.names = true ∧ cf.bootServed = false ∧
      cf.target (cf.windowOf rBad) rBad.index.toNat rBad.sub.toNat = .absent) ∧
    ({ rO1 with hdr := hVf }.malformed = false ∧ rO1.cmd.names = true ∧
      cf.target (cf.windowOf { rO1 with hdr := hVf }) 0x2000 1 = .objs oO1 [0] 0 false ∧
      cf.wrongState { rO1 with hdr := hVf } = false ∧ oO1.priv &&& viaBit hVf.via = 0) := by and_intros <;> decide +kernel
theorem witness_StoreTarget :
    stb.bestCopy = some ⟨4, [], []⟩ ∧ stb.flash.copies.getD 0 none ≠ stb.flash.copies.getD 1 none := by and_intros <;> decide +kernel
theorem witness_DefaultsInConfig :
    reqOf (.defaults hM 0 0 0 0) = some rDf ∧ cf.takes rDf [.defaults hM 0 0 0 0] = true ∧
      cf.check467 rDf (cf.envOf (.defaults hM 0 0 0 0) rDf).lyandez = .bare := by and_intros <;> decide +kernel
end Sys2Proof.Tests.Dict

namespace Sys2Proof.Tests.Objects
open Sys2Proof Sys2Proof.Machine
theorem witness_CastsOutsideOperational :
    cfd.reservedZero = true ∧ cfd.slot.toNat ≤ 3 ∧ (cf.setObj Row.castExtent 3).obj Row.castExtent ≤ (cf.setObj Row.castExtent 3).mem.layout.state ∧
      cfd.dest.toNat + (cf.setObj Row.castExtent 3).castExtent ≤ (cf.setObj Row.castExtent 3).mem.layout.state ∧
      (cf.setObj Row.castExtent 3).mode ≠ .operational := by and_intros <;> decide +kernel
end Sys2Proof.Tests.Objects

namespace Sys2Proof.Tests
open Sys2Proof Sys2Proof.Machine
def waiting : State := { State.reset with pending := [.controlStep, .drainEnd] }
theorem witness_StepRunsFrontCommand : waiting.pending = .controlStep :: [.drainEnd] := rfl
theorem witness_IdleStepCountsOne : State.reset.pending = [] := rfl
theorem witness_EveryCommandGoesOn : (Instr.hdmWrite 0 (List.replicate 64 none)).wellFormed = true := by decide
theorem witness_RunsNeverStop : waiting.queueWellFormed = true := by decide
theorem witness_StepsKeepMemoryAndObjects :
    State.reset.wellFormed = true ∧ step State.reset = .next { State.reset with timer := 1 } := ⟨by decide +kernel, rfl⟩
theorem witness_StepsKeepCanonicalForm :
    State.reset.canonical = true ∧ step State.reset = .next { State.reset with timer := 1 } := ⟨by decide +kernel, rfl⟩
theorem witness_QuietFinish : State.reset.quiet = true ∧ State.reset.timer ≤ State.reset.timer := by decide +kernel
theorem witness_ObjectsReadBack : rising State.reset.od = true := by decide
end Sys2Proof.Tests

end
end

section
/-! Module memory byte by byte, undefined ranges included: what a copy and an undefinition leave at every address. -/

namespace Sys2Proof.Machine

/-- The free byte that an undefined range reads as at address `a`. -/
def Undef.free (u : Undef) (a : Nat) : Byte := Config.outsideByte u.stamp (u.off + (a - u.lo))

/-- The free byte of the first of some undefined ranges that holds address `a`. -/
def looseByte (us : List Undef) (a : Nat) : Option Byte := (us.find? fun u => u.has a).map fun u => u.free a

@[simp] theorem looseByte_nil (a : Nat) : looseByte [] a = none := rfl

theorem looseByte_cons (u : Undef) (us : List Undef) (a : Nat) :
    looseByte (u :: us) a = if u.has a then some (u.free a) else looseByte us a := by
  unfold looseByte
  by_cases h : u.has a <;> simp [h]

theorem looseByte_append (us vs : List Undef) (a : Nat) :
    looseByte (us ++ vs) a = (looseByte us a).or (looseByte vs a) := by
  simp [looseByte, List.find?_append, Option.map_or]

theorem byte_eq_looseByte (m : Mem) (a : Nat) : m.byte a = (looseByte m.loose a).getD (cellRead m.cells a) := by
  unfold Mem.byte Mem.unlisted looseByte
  cases hf : m.loose.find? fun u => u.has a with
  | none =>
    have : m.loose.any (fun u => u.has a) = false := by simpa using hf
    simp [this]
  | some u =>
    have : m.loose.any (fun u => u.has a) = true :=
      List.any_eq_true.mpr ⟨u, List.mem_of_find?_eq_some hf, List.find?_some (p := fun v : Undef => v.has a) hf⟩
    simp [this, Undef.free]

/-- The part of a range within [lo, hi) keeps the free bytes of its addresses. -/
theorem looseByte_part (u : Undef) (lo hi a : Nat) :
    looseByte (u.part lo hi) a = if (lo ≤ a ∧ a < hi) ∧ u.has a then some (u.free a) else none := by
  unfold Undef.part
  split
  · rename_i hne
    rw [looseByte_cons, looseByte_nil]
    simp only [Undef.has, Undef.free, Bool.and_eq_true, decide_eq_true_eq]
    by_cases hin : (lo ≤ a ∧ a < hi) ∧ u.lo ≤ a ∧ a < u.hi
    · rw [if_pos (by omega), if_pos hin]
      congr 2
      omega
    · rw [if_neg (by omega), if_neg hin]
  · rename_i hempty
    rw [looseByte_nil, if_neg]
    simp only [Undef.has, Bool.and_eq_true, decide_eq_true_eq]
    omega

theorem looseByte_looseCut (us : List Undef) (lo hi a : Nat) :
    looseByte (looseCut us lo hi) a = if lo ≤ a ∧ a < hi then none else looseByte us a := by
  unfold looseCut
  split
  · rw [if_neg (by omega)]
  · induction us with
    | nil => simp
    | cons u us ih =>
      rw [List.flatMap_cons, looseByte_append, looseByte_append, ih, looseByte_part, looseByte_part, looseByte_cons]
      simp only [Undef.has, Bool.and_eq_true, decide_eq_true_eq]
      by_cases hcut : lo ≤ a ∧ a < hi
      · rw [if_neg (c := (0 ≤ a ∧ a < lo) ∧ u.lo ≤ a ∧ a < u.hi) (by omega),
          if_neg (c := (hi ≤ a ∧ a < max u.hi hi) ∧ u.lo ≤ a ∧ a < u.hi) (by omega)]
        simp only [hcut, and_self, if_true, Option.or_none]
      · by_cases hu : u.lo ≤ a ∧ a < u.hi
        · simp only [if_neg hcut, if_pos hu]
          by_cases hlow : a < lo
          · rw [if_pos (c := (0 ≤ a ∧ a < lo) ∧ u.lo ≤ a ∧ a < u.hi) (by omega), Option.some_or, Option.some_or]
          · rw [if_neg (c := (0 ≤ a ∧ a < lo) ∧ u.lo ≤ a ∧ a < u.hi) (by omega),
              if_pos (c := (hi ≤ a ∧ a < max u.hi hi) ∧ u.lo ≤ a ∧ a < u.hi) (by omega), Option.none_or, Option.some_or]
        · simp only [hu, and_false, if_false, Option.none_or]

/-- The moved part of a range keeps the free bytes of the addresses it comes from. -/
theorem looseByte_moved_part (u : Undef) (src dst len a : Nat) :
    looseByte ((u.part src (src + len)).map fun v => { v with lo := v.lo - src + dst, hi := v.hi - src + dst }) a =
      if (dst ≤ a ∧ a < dst + len) ∧ u.has (a - dst + src) then some (u.free (a - dst + src)) else none := by
  unfold Undef.part
  split
  · rename_i hne
    rw [List.map_singleton, looseByte_cons, looseByte_nil]
    simp only [Undef.has, Undef.free, Bool.and_eq_true, decide_eq_true_eq]
    by_cases hin : (dst ≤ a ∧ a < dst + len) ∧ u.lo ≤ a - dst + src ∧ a - dst + src < u.hi
    · rw [if_pos (by omega), if_pos hin]
      congr 2
      omega
    · rw [if_neg (by omega), if_neg hin]
  · rename_i hempty
    rw [List.map_nil, looseByte_nil, if_neg]
    simp only [Undef.has, Bool.and_eq_true, decide_eq_true_eq]
    omega

theorem looseByte_looseMove (us : List Undef) (src dst len a : Nat) :
    looseByte (looseMove us src dst len) a =
      if dst ≤ a ∧ a < dst + len then looseByte us (a - dst + src) else none := by
  unfold looseMove
  induction us with
  | nil => simp
  | cons u us ih =>
    rw [List.flatMap_cons, looseByte_append, ih, looseByte_moved_part, looseByte_cons]
    by_cases hin : dst ≤ a ∧ a < dst + len
    · by_cases hu : u.has (a - dst + src) <;> simp [hin, hu]
    · simp [hin]

/-- What a copy leaves at every address, undefined ranges moved with it. -/
theorem byte_memCopy_of_wf (s : State) (src dst len a : Nat) (h : s.mem.wf = true) :
    (s.memCopy src dst len).mem.byte a =
      if dst ≤ a ∧ a < dst + len then s.mem.byte (a - dst + src) else s.mem.byte a := by
  have hcells : cellsWfFrom 0 s.mem.cells = true := by
    simp only [Mem.wf, Bool.and_eq_true] at h
    exact h.1
  simp only [byte_eq_looseByte, State.memCopy, State.setCells_mem, looseByte_append, looseByte_looseMove,
    looseByte_looseCut, cellRead_cellsCopy _ _ _ _ _ hcells]
  by_cases hin : dst ≤ a ∧ a < dst + len <;> simp [hin]

/-- What an undefinition leaves at every address: one free value for the range, and every other byte as before. -/
theorem byte_memFree (s : State) (lo len a : Nat) :
    (s.memFree lo len).mem.byte a =
      if lo ≤ a ∧ a < lo + len then Config.outsideByte s.freeCount (a - lo) else s.mem.byte a := by
  unfold State.memFree
  split
  · rw [if_neg (by omega)]
  · simp only [State.useFree_mem, State.setCells_mem, byte_eq_looseByte, looseByte_cons, looseByte_looseCut,
      cellRead_cellsClear, Undef.has, Bool.and_eq_true, decide_eq_true_eq, Undef.free]
    by_cases hin : lo ≤ a ∧ a < lo + len <;> simp [hin]

end Sys2Proof.Machine
end

section
/-! Objects after an update: bits, fields, and the keys of the objects that module memory keeps. -/

namespace Sys2Proof.Machine

/-! ## Bits and fields of a value -/

theorem testBit_sub_two_pow (x k b : Nat) (h : x.testBit k = true) :
    (x - 2 ^ k).testBit b = if b = k then false else x.testBit b := by
  induction k generalizing x b with
  | zero =>
    have hodd : x % 2 = 1 := by simpa using h
    cases b with
    | zero =>
      have : (x - 1) % 2 = 0 := by omega
      simp [this]
    | succ b =>
      have : (x - 1) / 2 = x / 2 := by omega
      simp [Nat.testBit_succ, this]
  | succ k ih =>
    rw [Nat.testBit_succ] at h
    have hp : 2 ^ (k + 1) = 2 * 2 ^ k := by rw [Nat.pow_succ, Nat.mul_comm]
    have hle : 2 ^ k ≤ x / 2 := Nat.ge_two_pow_of_testBit h
    cases b with
    | zero =>
      have : (x - 2 * 2 ^ k) % 2 = x % 2 := by omega
      simp [hp, this]
    | succ b =>
      have : (x - 2 * 2 ^ k) / 2 = x / 2 - 2 ^ k := by omega
      rw [Nat.testBit_succ, hp, this, ih _ _ h, Nat.testBit_succ]
      simp

theorem testBit_setBit (x k b : Nat) (v : Bool) : (setBit x k v).testBit b = if b = k then v else x.testBit b := by
  unfold setBit
  cases v with
  | true =>
    by_cases e : b = k
    · simp [e]
    · simp [Nat.testBit_or, e, Ne.symm e]
  | false =>
    by_cases hk : x.testBit k
    · simp [hk, testBit_sub_two_pow x k b hk]
    · by_cases e : b = k
      · simp [hk, e]
      · simp [hk, e]

/-- A field reads what was put into it, modulo its width. -/
theorem field_of_putField (x off n v : Nat) :
    (x - x / 256 ^ off % 256 ^ n * 256 ^ off + v % 256 ^ n * 256 ^ off) / 256 ^ off % 256 ^ n = v % 256 ^ n := by
  have hoff : 0 < 256 ^ off := Nat.pow_pos (by decide)
  have hx : x / 256 ^ off % 256 ^ n * 256 ^ off ≤ x :=
    Nat.le_trans (Nat.mul_le_mul_right _ (Nat.mod_le _ _)) (Nat.div_mul_le_self _ _)
  rw [Nat.add_mul_div_right _ _ hoff, Nat.mul_comm, Nat.sub_mul_div, Nat.add_mod]
  have : (x / 256 ^ off - x / 256 ^ off % 256 ^ n) % 256 ^ n = 0 := Nat.sub_mod_eq_zero_of_mod_eq (by simp)
  rw [this]
  simp

/-! ## Reading an object after an update -/

theorem rising_iff_keysRise {α : Type} (t : Tab α) : rising t = true ↔ keysRise t := by
  induction t with
  | nil => simp [rising, keysRise]
  | cons p t ih => simp [rising, keysRise, ih]

theorem State.obj_setObj_of_rising (s : State) (r : ObjRow) (v i k : Nat) (h : rising s.od = true) :
    (s.setObj r v i k).obj r i k = v :=
  s.obj_setObj r v i k ((rising_iff_keysRise _).mp h)

theorem State.rising_setObj (s : State) (r : ObjRow) (v i k : Nat) (h : rising s.od = true) :
    rising (s.setObj r v i k).od = true :=
  (rising_iff_keysRise _).mpr (s.keysRise_setObj r v i k ((rising_iff_keysRise _).mp h))

theorem State.rising_bump (s : State) (r : ObjRow) (n i k : Nat) (h : rising s.od = true) :
    rising (s.bump r n i k).od = true := s.rising_setObj _ _ _ _ h

theorem State.rising_setObjBit (s : State) (r : ObjRow) (b : Nat) (v : Bool) (i k : Nat) (h : rising s.od = true) :
    rising (s.setObjBit r b v i k).od = true := s.rising_setObj _ _ _ _ h

/-- A bit of an object after one bit of it is set. -/
theorem State.objBit_setObjBit (s : State) (r : ObjRow) (b c : Nat) (v : Bool) (i k : Nat) (h : rising s.od = true) :
    (s.setObjBit r b v i k).objBit r c i k = if c = b then v else s.objBit r c i k := by
  unfold State.objBit
  rw [State.setObjBit_eq, s.obj_setObj_of_rising _ _ _ _ h, testBit_setBit]

theorem State.objField_bumpField (s : State) (r : ObjRow) (off n add i k : Nat) (h : rising s.od = true) :
    (s.bumpField r off n add i k).objField r off n i k = (s.objField r off n i k + add) % 256 ^ n := by
  rw [State.bumpField_eq, State.setObjField_eq, State.objField, s.obj_setObj_of_rising _ _ _ _ h]
  exact field_of_putField _ _ _ _

theorem State.tget_setObj_ne (s : State) (r : ObjRow) (v i k : Nat) {n : Nat} (h : n ≠ r.key i k) :
    tget (s.setObj r v i k).od n = tget s.od n := by
  rw [State.setObj_od]
  split
  · exact tget_tdel_ne _ h
  · exact tget_tput_ne _ _ h

theorem State.obj_of_tget (s t : State) (r : ObjRow) (i k : Nat) (h : tget t.od (r.key i k) = tget s.od (r.key i k)) :
    t.obj r i k = s.obj r i k := by
  unfold State.obj
  rw [h]

end Sys2Proof.Machine
end

section
/-! What raising an event can change: the event queues, the vectors and posted writes that go with a record, what was presented,
and the count of lost records (R143, R261). -/

namespace Sys2Proof.Machine

/-- Nothing differs between two states but what an event takes with it; of the objects EQ_LOST_COUNT at most. -/
structure State.OnlyEvents (s u : State) : Prop where
  ports : ∀ h, s.portKept u h
  rest : u = { s with
    out := u.out, od := u.od, eqs := u.eqs, eqLost := u.eqLost, halfPorts := u.halfPorts
    host := { s.host with msixPending := u.host.msixPending } }
  objs : ∀ k, k ≠ Row.eqLostCount.key 0 0 → tget u.od k = tget s.od k
  rise : rising s.od = true → rising u.od = true

namespace State.OnlyEvents

variable {s t u : State}

theorem refl (s : State) : s.OnlyEvents s := ⟨fun _ => rfl, rfl, fun _ _ => rfl, id⟩

theorem trans (h : s.OnlyEvents t) (g : t.OnlyEvents u) : s.OnlyEvents u where
  ports := fun p => by
    have ht := h.ports p
    have hu := g.ports p
    unfold State.portKept at ht hu ⊢
    rw [hu, ht]
  rest := g.rest.trans (by rw [h.rest])
  objs := fun k hk => (g.objs k hk).trans (h.objs k hk)
  rise := fun hr => g.rise (h.rise hr)

theorem mem (h : s.OnlyEvents u) : u.mem = s.mem := by rw [h.rest]
theorem mode (h : s.OnlyEvents u) : u.mode = s.mode := by rw [h.rest]
theorem timer (h : s.OnlyEvents u) : u.timer = s.timer := by rw [h.rest]
theorem wq (h : s.OnlyEvents u) : u.wq = s.wq := by rw [h.rest]
theorem mgmt (h : s.OnlyEvents u) : u.mgmt = s.mgmt := by rw [h.rest]

theorem onlyReported (h : s.OnlyEvents u) : s.onlyReported u :=
  ⟨h.ports, h.rest.trans (by rw [h.wq, h.mgmt])⟩

end State.OnlyEvents

theorem State.emit_onlyEvents (s : State) (o : Output) : s.OnlyEvents (s.emit o) := ⟨fun _ => rfl, rfl, fun _ _ => rfl, id⟩

theorem State.setEqs_onlyEvents (s : State) (e : Tab Eq) : s.OnlyEvents { s with eqs := e } :=
  ⟨fun _ => rfl, rfl, fun _ _ => rfl, id⟩

theorem State.setEqLost_onlyEvents (s : State) (l : Tab Nat) : s.OnlyEvents { s with eqLost := l } :=
  ⟨fun _ => rfl, rfl, fun _ _ => rfl, id⟩

theorem State.bumpEqLost_onlyEvents (s : State) : s.OnlyEvents (s.bump Row.eqLostCount) :=
  ⟨fun _ => rfl, rfl, fun _ hk => s.tget_setObj_ne _ _ _ _ hk, s.rising_bump _ _ _ _⟩

/-- Presenting one more write on half-port `h` changes that half-port's count alone. -/
theorem State.present_portKept (s : State) (h p : Nat) :
    s.portKept (s.updHp h fun x => { x with presented := x.presented + 1 }) p := by
  unfold State.portKept State.updHp State.setHp State.hp
  simp only [List.getD_eq_getElem?_getD, List.getElem?_set]
  split
  · rename_i e
    subst e
    split
    · simp
    · rename_i hlen
      simp [hlen]
  · rfl

theorem State.postWrite_onlyEvents (s : State) (h : Nat) (o : Output) : s.OnlyEvents (s.postWrite h o) :=
  (s.emit_onlyEvents o).trans ⟨(s.emit o).present_portKept h, rfl, fun _ _ => rfl, id⟩

theorem State.writeEntry_onlyEvents (s : State) (h addr n : Nat) : s.OnlyEvents (s.writeEntry h addr n) :=
  (s.postWrite_onlyEvents h _).trans (State.postWrite_onlyEvents _ h _)

theorem State.msix_onlyEvents (s : State) (f v : Nat) : s.OnlyEvents (s.msix f v) := by
  unfold State.msix
  split
  · exact .refl s
  · split
    · exact ⟨fun _ => rfl, rfl, fun _ _ => rfl, id⟩
    · exact s.emit_onlyEvents _

theorem State.eqPut_onlyEvents (s : State) (f : Nat) (e : Eq) (code object a b : Nat) :
    s.OnlyEvents (s.eqPut f e code object a b) := by
  have hw := s.writeEntry_onlyEvents e.path (e.base.toNat + e.tail.toNat % 2 ^ e.log2 * 32)
    (eventNat code object a b s.timer)
  unfold State.eqPut
  refine .trans ?_ (State.setEqs_onlyEvents _ _)
  split
  · exact hw.trans (State.msix_onlyEvents _ f e.vector)
  · exact hw

theorem State.eqLose_onlyEvents (s : State) (f : Nat) : s.OnlyEvents (s.eqLose f) := by
  unfold State.eqLose
  refine s.bumpEqLost_onlyEvents.trans ?_
  dsimp only
  split
  · exact State.setEqs_onlyEvents _ _
  · exact State.setEqLost_onlyEvents _ _

theorem State.eqFlushLost_onlyEvents (s : State) (f : Nat) : s.OnlyEvents (s.eqFlushLost f) := by
  unfold State.eqFlushLost
  split
  · exact .refl s
  · split
    · exact .refl s
    · exact s.eqPut_onlyEvents f _ _ _ _ _

theorem State.raiseTo_onlyEvents (s : State) (f code object a b : Nat) : s.OnlyEvents (s.raiseTo f code object a b) := by
  unfold State.raiseTo
  split
  · exact .refl s
  · refine (s.eqFlushLost_onlyEvents f).trans ?_
    dsimp only
    split
    · exact State.eqLose_onlyEvents _ f
    · split
      · exact State.eqLose_onlyEvents _ f
      · exact State.eqPut_onlyEvents _ f _ _ _ _ _

theorem State.raisePf_onlyEvents (s : State) (code object a b : Nat) : s.OnlyEvents (s.raisePf code object a b) :=
  s.raiseTo_onlyEvents 0 code object a b

theorem State.raiseBoth_onlyEvents (s : State) (f code object a b : Nat) : s.OnlyEvents (s.raiseBoth f code object a b) := by
  have hf := s.raiseTo_onlyEvents f code object a b
  unfold State.raiseBoth
  dsimp only
  split
  · exact hf
  · exact hf.trans (State.raisePf_onlyEvents _ _ _ _ _)

/-- An event queue with space, nothing lost and no vector armed takes the record's first half with OWN last (R143). -/
theorem State.posted_mem_raiseTo (s : State) (f code object a b : Nat) (e : Eq) (hf : s.firmwareRuns = true)
    (hh : s.holding = false) (he : tget s.eqs f = some e) (hfull : e.full = false) (hlost : e.lost = 0) (harm : e.arm = false) :
    Output.posted e.path (e.base.toNat + e.tail.toNat % 2 ^ e.log2 * 32)
        ((leBytes 32 (eventNat code object a b s.timer)).take 4) ∈
      (s.raiseTo f code object a b).out := by
  have hflush : s.eqFlushLost f = s := by simp [State.eqFlushLost, he, hlost]
  have hput : s.raiseTo f code object a b = s.eqPut f e code object a b := by
    simp [State.raiseTo, hf, hh, hflush, he, hfull]
  rw [hput]
  simp [State.eqPut, harm, State.writeEntry, State.postWrite, State.updHp, State.setHp]

end Sys2Proof.Machine
end

section
/-! What the end of a collective and the loss of a context leave alone: module memory, the timer, the mode, and the objects
in which module memory reports (0x33xx, 0x34xx, 0x60xx and 0xA6xx). -/

namespace Sys2Proof.Machine

/-- The keys of the objects of chapter 11, by the first byte of the index; no subindex of theirs is above 0x0A. -/
def memoryKey (k : Nat) : Prop := k / 65536 ∈ [0x33, 0x34, 0x60, 0xA6] ∧ k % 256 ≤ 0x0A

/-- Module memory, its objects, the timer and the mode are as before. -/
structure State.KeepsMemory (s u : State) : Prop where
  mem : u.mem = s.mem
  mode : u.mode = s.mode
  timer : u.timer = s.timer
  objs : ∀ k, memoryKey k → tget u.od k = tget s.od k

namespace State.KeepsMemory

variable {s t u : State}

theorem refl (s : State) : s.KeepsMemory s := ⟨rfl, rfl, rfl, fun _ _ => rfl⟩

theorem trans (h : s.KeepsMemory t) (g : t.KeepsMemory u) : s.KeepsMemory u :=
  ⟨g.mem.trans h.mem, g.mode.trans h.mode, g.timer.trans h.timer, fun k hk => (g.objs k hk).trans (h.objs k hk)⟩

theorem eachDo {α : Type} {f : α → State → State} (hf : ∀ (a : α) (s : State), s.KeepsMemory (f a s)) (l : List α)
    (s : State) :
    s.KeepsMemory (eachDo l f s) := by
  unfold Machine.eachDo
  induction l generalizing s with
  | nil => exact .refl s
  | cons a l ih => exact (hf a s).trans (ih (f a s))

theorem ite {c : Prop} [Decidable c] (ht : s.KeepsMemory t) (hu : s.KeepsMemory u) : s.KeepsMemory (if c then t else u) := by
  split
  · exact ht
  · exact hu

end State.KeepsMemory

theorem State.OnlyEvents.keepsMemory {s u : State} (h : s.OnlyEvents u) : s.KeepsMemory u :=
  ⟨h.mem, h.mode, h.timer, fun k hk => h.objs k fun e => by subst e; exact absurd hk (by unfold memoryKey; decide)⟩

theorem State.setObj_keepsMemory (s : State) (r : ObjRow) (v i k : Nat) (h : ¬ memoryKey (r.key i k)) :
    s.KeepsMemory (s.setObj r v i k) :=
  ⟨rfl, rfl, rfl, fun _ hn => s.tget_setObj_ne _ _ _ _ fun e => h (e ▸ hn)⟩

theorem State.bump_keepsMemory (s : State) (r : ObjRow) (n i k : Nat) (h : ¬ memoryKey (r.key i k)) :
    s.KeepsMemory (s.bump r n i k) := s.setObj_keepsMemory _ _ _ _ h

theorem State.bumpField_keepsMemory (s : State) (r : ObjRow) (off n add i k : Nat) (h : ¬ memoryKey (r.key i k)) :
    s.KeepsMemory (s.bumpField r off n add i k) := s.setObj_keepsMemory _ _ _ _ h

theorem State.updQp_keepsMemory (s : State) (q : Nat) (f : Qp → Qp) : s.KeepsMemory (s.updQp q f) :=
  ⟨rfl, rfl, rfl, fun _ _ => rfl⟩

theorem State.setQp_keepsMemory (s : State) (q : Nat) (x : Qp) : s.KeepsMemory (s.setQp q x) :=
  ⟨rfl, rfl, rfl, fun _ _ => rfl⟩

/-- An object in the window of a VF is none of module memory's. -/
theorem not_memoryKey_vf (r : ObjRow) (f k : Nat) (h : r.index = 0xC004) (hk : r.sub + k < 256) :
    ¬ memoryKey (r.key (f * 65536) k) := by
  rintro ⟨hm, -⟩
  simp only [ObjRow.key, h, List.mem_cons, List.not_mem_nil, or_false] at hm
  omega

/-! ## Completion entries -/

theorem State.sendRecord_keepsMemory (s : State) (r : MirrorRecord) : s.KeepsMemory (s.sendRecord r) :=
  (s.bump_keepsMemory Row.recordsSent 1 0 0 (by unfold memoryKey; decide)).trans ⟨rfl, rfl, rfl, fun _ _ => rfl⟩

theorem State.mirrorCqe_keepsMemory (s : State) (q cqn : Nat) (cq : Cq) (c : Cqe) : s.KeepsMemory (s.mirrorCqe q cqn cq c) := by
  unfold State.mirrorCqe
  split
  · exact .refl s
  · exact s.sendRecord_keepsMemory _

theorem State.wantFlush_keepsMemory (s : State) (h : Nat) : s.KeepsMemory (s.wantFlush h) := by
  have hkey : ¬ memoryKey (Row.flushCount.key h 0) := by
    simp only [memoryKey, ObjRow.key, Row.flushCount]
    omega
  unfold State.wantFlush State.issueFlush
  split
  · exact .refl s
  · exact (s.bump_keepsMemory Row.flushCount 1 h 0 hkey).trans ⟨rfl, rfl, rfl, fun _ _ => rfl⟩

theorem State.formCqe_keepsMemory (s : State) (q cqn : Nat) (cov : List (Nat × Nat)) (c : Cqe) :
    s.KeepsMemory (s.formCqe q cqn cov c) := by
  unfold State.formCqe
  cases tget s.wq.cqs cqn with
  | none => exact .refl s
  | some cq =>
    refine .ite (.refl s) (.trans ?_ (.eachDo (fun (p : Nat × Nat) s => s.wantFlush_keepsMemory p.1) _ _))
    have hmirror (b : Bool) (c : Cqe) : s.KeepsMemory (if b then s.mirrorCqe q cqn cq c else s) :=
      .ite (s.mirrorCqe_keepsMemory _ _ _ _) (.refl s)
    exact (hmirror _ _).trans ⟨rfl, rfl, rfl, fun _ _ => rfl⟩

theorem State.reportSends_keepsMemory (n : Nat) (s : State) (q : Nat) : s.KeepsMemory (State.reportSends n s q) := by
  induction n generalizing s with
  | zero => exact .refl s
  | succ n ih =>
    unfold State.reportSends
    split
    · exact .refl s
    · split
      · exact .refl s
      · split
        · dsimp only
          split
          · exact (s.setQp_keepsMemory _ _).trans (ih _)
          · split
            · exact (s.setQp_keepsMemory _ _).trans (ih _)
            · exact ((s.setQp_keepsMemory _ _).trans (State.formCqe_keepsMemory _ _ _ _ _)).trans (ih _)
        · exact .refl s

theorem State.report_keepsMemory (s : State) (q : Nat) : s.KeepsMemory (s.report q) := by
  unfold State.report
  split
  · exact .refl s
  · exact State.reportSends_keepsMemory _ s q

/-! ## The end of a collective -/

theorem State.tearShard_keepsMemory (s : State) (x : Comm) (y : Coll) (status : Nat) :
    s.KeepsMemory (s.tearShard x y status) := by
  unfold State.tearShard
  split
  · exact (s.bump_keepsMemory Row.applyTornCount 1 0 0 (by unfold memoryKey; decide)).trans
      (State.raiseTo_onlyEvents _ _ _ _ _ _).keepsMemory
  · exact .refl s

theorem State.pushInternal_keepsMemory (s : State) (x : Comm) (r : Nat) (op : Byte) (aux mtu : Nat) (body : List Byte) :
    s.KeepsMemory (s.pushInternal x r op aux mtu body) := by
  unfold State.pushInternal
  dsimp only
  split
  · exact .refl s
  · split
    · exact .refl s
    · exact (s.updQp_keepsMemory _ _).trans (State.updQp_keepsMemory _ _ _)

theorem State.sendNotices_keepsMemory (s : State) (x : Comm) (y : Coll) (cause : Nat) (skip : Option Nat) :
    s.KeepsMemory (s.sendNotices x y cause skip) := by
  refine .eachDo (fun r s => .trans ?_ (State.pushInternal_keepsMemory _ _ _ _ _ _ _)) _ _
  have hall := s.bump_keepsMemory Row.noticeSent 1 0 0 (by unfold memoryKey; decide)
  unfold State.bumpBoth
  dsimp only
  split
  · exact hall
  · exact hall.trans (State.bump_keepsMemory _ _ _ _ _ (not_memoryKey_vf _ _ _ rfl (by decide)))

theorem State.countEnd_keepsMemory (s : State) (f st : Nat) : s.KeepsMemory (s.countEnd f st) := by
  unfold State.countEnd
  split
  · exact .refl s
  · rename_i i _
    have hall := s.bumpField_keepsMemory Row.collEnded (4 * i) 4 1 0 0 (by unfold memoryKey; decide)
    dsimp only
    split
    · exact hall
    · exact hall.trans (State.bumpField_keepsMemory _ _ _ _ _ _ _ (not_memoryKey_vf _ _ _ rfl (by decide)))

/-- A collective that ends with a cause, neither OK nor with an error of its QP, writes nothing to module memory. -/
theorem State.endColl_keepsMemory (s : State) (c k status bytes cause : Nat) (skip : Option Nat)
    (hok : status ≠ 0) (hqp : (status = 2 || status = 3) = false) :
    s.KeepsMemory (s.endColl c k status bytes (some cause) skip) := by
  unfold State.endColl
  split
  · exact .refl s
  · split
    · exact .refl s
    · rename_i x _ _ y _
      have hdropped (x' : Comm) : s.KeepsMemory
          ((((s.tearShard x y status).sendNotices x y cause skip).countEnd x.func status).dropColl c x' y) :=
        (((s.tearShard_keepsMemory x y status).trans (State.sendNotices_keepsMemory _ _ _ _ _)).trans
          (State.countEnd_keepsMemory _ _ _)).trans ⟨rfl, rfl, rfl, fun _ _ => rfl⟩
      simp only [hok, hqp, if_false, Bool.false_eq_true]
      split
      · exact hdropped _
      · exact (hdropped _).trans ((State.updQp_keepsMemory _ _ _).trans (State.report_keepsMemory _ _))

/-! ## The loss of a context -/

theorem State.contextLost_keepsMemory (s : State) (q : Nat) (x : Qp) : s.KeepsMemory (s.contextLost q x) := by
  have hfail := s.bump_keepsMemory Row.contextCheckFail 1 0 0 (by unfold memoryKey; decide)
  have hlose (t : State) : t.KeepsMemory (t.lose q) := ⟨rfl, rfl, rfl, fun _ _ => rfl⟩
  have hdrop (t : State) (n : Nat) : t.KeepsMemory ((t.bump Row.contextLostDrop n).dropParked q) :=
    (t.bump_keepsMemory Row.contextLostDrop n 0 0 (by unfold memoryKey; decide)).trans ⟨rfl, rfl, rfl, fun _ _ => rfl⟩
  exact (hfail.trans (hlose _)).trans ((hdrop _ _).trans (State.raiseBoth_onlyEvents _ _ _ _ _ _).keepsMemory)

theorem qp_updQp_self (s : State) (q : Nat) (f : Qp → Qp) : (s.updQp q f).qp q = (s.qp q).map f := by
  unfold State.qp State.updQp tupd
  cases h : tget s.wq.qps q <;> simp [h]

/-- A QP whose context is lost is LOST. -/
theorem State.qp_contextLost (s : State) (q : Nat) (x : Qp) :
    (s.contextLost q x).qp q = (s.qp q).map fun y => { y with lost := true } := by
  unfold State.contextLost State.qp
  rw [(State.raiseBoth_onlyEvents _ _ _ _ _ _).wq]
  exact qp_updQp_self _ q _

end Sys2Proof.Machine
end

section
/-! The operations of a cast command: what its copies move, what its end records, and what a failure leaves (R258-R260). -/

namespace Sys2Proof.Machine

/-! ## Copies of a module with one share -/

theorem State.castPieces_of_one_share (s : State) (dest extent : Nat) (h : s.shares = 1) :
    s.castPieces dest extent = [((s.mem.layout.base 2 + dest) * gib, 0, extent * gib)] := by
  simp [State.castPieces, h, Nat.add_mul]

theorem eachDo_singleton {α : Type} (a : α) (f : α → State → State) (s : State) : eachDo [a] f s = f a s := rfl

theorem State.copyOut_of_one_share (s : State) (slot extent : Nat) (h : s.shares = 1) :
    s.copyOut slot extent = s.memCopy (s.mem.layout.base 2 * gib) (s.slotAddr slot) (extent * gib) := by
  simp [State.copyOut, s.castPieces_of_one_share 0 extent h, eachDo_singleton]

theorem State.copyBack_of_one_share (s : State) (slot dest extent : Nat) (h : s.shares = 1) :
    s.copyBack slot dest extent = s.memCopy (s.slotAddr slot) ((s.mem.layout.base 2 + dest) * gib) (extent * gib) := by
  simp [State.copyBack, s.castPieces_of_one_share dest extent h, eachDo_singleton]

theorem State.loseDest_of_one_share (s : State) (r : CastRun) (hop : r.op = 2) (h : s.shares = 1) :
    s.loseDest r = s.memFree ((s.mem.layout.base 2 + r.dest) * gib) (r.extent * gib) := by
  rw [State.loseDest, if_pos hop, s.castPieces_of_one_share r.dest r.extent h, eachDo_singleton]

/-! ## Undefined bytes -/

/-- Nothing differs but bytes of module memory and the counter of free values. -/
def State.OnlyBytes (s u : State) : Prop :=
  u = { s with mem := { s.mem with cells := u.mem.cells, loose := u.mem.loose }, freeCount := u.freeCount }

namespace State.OnlyBytes

variable {s t u : State}

theorem refl (s : State) : s.OnlyBytes s := rfl

theorem trans (h : s.OnlyBytes t) (g : t.OnlyBytes u) : s.OnlyBytes u := by
  unfold State.OnlyBytes at h g ⊢
  exact g.trans (by rw [h])

theorem mode (h : s.OnlyBytes u) : u.mode = s.mode := by rw [h]
theorem timer (h : s.OnlyBytes u) : u.timer = s.timer := by rw [h]
theorem od (h : s.OnlyBytes u) : u.od = s.od := by rw [h]
theorem wq (h : s.OnlyBytes u) : u.wq = s.wq := by rw [h]
theorem cast (h : s.OnlyBytes u) : u.mem.cast = s.mem.cast := by rw [h]
theorem dir (h : s.OnlyBytes u) : u.mem.dir = s.mem.dir := by rw [h]

end State.OnlyBytes

theorem State.memFree_onlyBytes (s : State) (lo len : Nat) : s.OnlyBytes (s.memFree lo len) := by
  unfold State.memFree
  split
  · exact .refl s
  · rfl

theorem State.loseDest_onlyBytes (s : State) (r : CastRun) : s.OnlyBytes (s.loseDest r) := by
  have hall (l : List (Nat × Nat × Nat)) (s : State) : s.OnlyBytes (eachDo l (fun t s => s.memFree t.1 t.2.2) s) := by
    unfold eachDo
    induction l generalizing s with
    | nil => exact .refl s
    | cons t l ih => exact (s.memFree_onlyBytes _ _).trans (ih _)
  unfold State.loseDest
  split
  · exact hall _ s
  · exact .refl s

/-! ## The end of a cast command -/

theorem State.rising_endCast (s : State) (h : rising s.od = true) : rising s.endCast.od = true :=
  State.rising_setObjBit _ _ _ _ _ _ h

theorem State.objBit_endCast (s : State) (b : Nat) (h : rising s.od = true) :
    s.endCast.objBit Row.memStatus b = if b = 3 then false else s.objBit Row.memStatus b :=
  State.objBit_setObjBit _ _ _ _ _ _ _ h

theorem State.tget_endCast (s : State) {k : Nat} (h : k ≠ Row.memStatus.key 0 0) : tget s.endCast.od k = tget s.od k :=
  State.tget_setObj_ne _ _ _ _ _ h

theorem State.shares_endCast (s : State) : s.endCast.shares = s.shares :=
  s.obj_of_tget s.endCast Row.shareCount 0 0 (s.tget_endCast (by decide))

theorem State.castDone_onlyEvents (s : State) (op result slot : Nat) :
    (s.castResult op result slot).OnlyEvents (s.castDone op result slot) := State.raisePf_onlyEvents _ _ _ _ _

theorem State.castDone_mem (s : State) (op result slot : Nat) : (s.castDone op result slot).mem = s.mem :=
  (s.castDone_onlyEvents op result slot).mem.trans (by rw [State.castResult, State.setObj_mem])

theorem State.castDone_wq (s : State) (op result slot : Nat) : (s.castDone op result slot).wq = s.wq :=
  (s.castDone_onlyEvents op result slot).wq.trans (by rw [State.castResult, State.setObj_wq])

theorem State.castDone_mode (s : State) (op result slot : Nat) : (s.castDone op result slot).mode = s.mode :=
  (s.castDone_onlyEvents op result slot).mode.trans (by rw [State.castResult, State.setObj_mode])

theorem State.castDone_timer (s : State) (op result slot : Nat) : (s.castDone op result slot).timer = s.timer :=
  (s.castDone_onlyEvents op result slot).timer.trans (by rw [State.castResult, State.setObj_timer])

theorem State.castDone_entry (s : State) (op result slot k : Nat) : (s.castDone op result slot).entry k = s.entry k := by
  rw [State.entry, State.castDone_mem, State.entry]

theorem State.obj_castDone (s : State) (op result slot : Nat) (h : rising s.od = true) :
    (s.castDone op result slot).obj Row.castResult = op * 2 ^ 24 + result * 2 ^ 16 + slot * 2 ^ 8 :=
  (State.obj_of_tget _ _ _ _ _ ((s.castDone_onlyEvents op result slot).objs _ (by decide))).trans
    (s.obj_setObj_of_rising _ _ _ _ h)

theorem State.tget_castDone (s : State) (op result slot : Nat) {k : Nat} (hc : k ≠ Row.castResult.key 0 0)
    (he : k ≠ Row.eqLostCount.key 0 0) : tget (s.castDone op result slot).od k = tget s.od k :=
  ((s.castDone_onlyEvents op result slot).objs k he).trans (s.tget_setObj_ne _ _ _ _ hc)

theorem State.objBit_castDone (s : State) (op result slot b : Nat) :
    (s.castDone op result slot).objBit Row.memStatus b = s.objBit Row.memStatus b := by
  rw [State.objBit, State.obj_of_tget _ _ _ _ _ (s.tget_castDone op result slot (by decide) (by decide)), State.objBit]

theorem State.entry_setEntry_self (s : State) (k : Nat) (e : CastEntry) (h : k < s.mem.dir.length) :
    (s.setEntry k e).entry k = e := by
  simp [State.entry, State.setEntry, h]

theorem State.entry_setEntry_ne (s : State) {k j : Nat} (e : CastEntry) (h : j ≠ k) :
    (s.setEntry k e).entry j = s.entry j := by
  simp [State.entry, State.setEntry, h.symm]

/-! ## A command that fails -/

/-- The directory as a failing command leaves it, before the end of the command. -/
def State.cutEntry (s : State) (r : CastRun) : State :=
  if r.op = 1 && r.phase != .mirroring then s.setEntry r.slot { s.entry r.slot with slotState := 4 } else s

theorem State.failCast_eq (s : State) (result : Nat) (r : CastRun) (h : s.mem.cast = some r) :
    s.failCast result = ((s.cutEntry r).endCast.loseDest r).castDone r.op result r.slot := by
  simp only [State.failCast, h, State.cutEntry]

theorem State.cutEntry_eq (s : State) (r : CastRun) :
    s.cutEntry r = { s with mem := { s.mem with dir := (s.cutEntry r).mem.dir } } := by
  unfold State.cutEntry
  split <;> rfl

/-- What a command ends with that fails: bytes are lost only where a RESTORE was to put some. -/
theorem State.failCast_ends (s : State) (result : Nat) (r : CastRun) (h : s.mem.cast = some r) (hr : rising s.od = true) :
    (s.failCast result).mem.cast = none ∧
    (s.failCast result).mem.dir = (s.cutEntry r).mem.dir ∧
    (s.failCast result).obj Row.castResult = r.op * 2 ^ 24 + result * 2 ^ 16 + r.slot * 2 ^ 8 ∧
    (r.op ≠ 2 → ∀ b, (s.failCast result).mem.byte b = s.mem.byte b) ∧
    (s.failCast result).mode = s.mode ∧ (s.failCast result).timer = s.timer := by
  have hl := (s.cutEntry r).endCast.loseDest_onlyBytes r
  rw [s.failCast_eq result r h]
  refine ⟨?_, ?_, ?_, fun hop b => ?_, ?_, ?_⟩
  · rw [State.castDone_mem, hl.cast]
    rfl
  · rw [State.castDone_mem, hl.dir]
    rfl
  · refine State.obj_castDone _ _ _ _ ?_
    rw [hl.od]
    refine State.rising_endCast _ ?_
    rw [s.cutEntry_eq r]
    exact hr
  · have : (s.cutEntry r).endCast.loseDest r = (s.cutEntry r).endCast := by simp [State.loseDest, hop]
    rw [State.castDone_mem, this, s.cutEntry_eq r]
    rfl
  · rw [State.castDone_mode, hl.mode, s.cutEntry_eq r]
    rfl
  · rw [State.castDone_timer, hl.timer, s.cutEntry_eq r]
    rfl

/-- Of module memory's objects a failing command changes CAST_RESULT and its own bit of MEM_STATUS at most. -/
theorem State.failCast_objs (s : State) (result : Nat) (hr : rising s.od = true) :
    (∀ k, memoryKey k → k ≠ Row.memStatus.key 0 0 → k ≠ Row.castResult.key 0 0 →
      tget (s.failCast result).od k = tget s.od k) ∧
    ∀ b, b ≠ 3 → (s.failCast result).objBit Row.memStatus b = s.objBit Row.memStatus b := by
  cases hc : s.mem.cast with
  | none => simp [State.failCast, hc]
  | some r =>
    have hl := (s.cutEntry r).endCast.loseDest_onlyBytes r
    have hcut : (s.cutEntry r).od = s.od := by rw [s.cutEntry_eq r]
    rw [s.failCast_eq result r hc]
    refine ⟨fun k hk hs hcr => ?_, fun b hb => ?_⟩
    · have he : k ≠ Row.eqLostCount.key 0 0 := fun e => by
        subst e
        exact absurd hk (by unfold memoryKey; decide)
      rw [State.tget_castDone _ _ _ _ hcr he, hl.od, State.tget_endCast _ hs, hcut]
    · have hod (t u : State) (e : u.od = t.od) : u.objBit Row.memStatus b = t.objBit Row.memStatus b := by
        rw [State.objBit, t.obj_of_od u _ _ _ e, State.objBit]
      rw [State.objBit_castDone, hod _ _ hl.od, State.objBit_endCast _ _ (by rw [hcut]; exact hr), if_neg hb, hod _ _ hcut]

end Sys2Proof.Machine
end

section
/-! An uncorrectable read: what is counted, logged and raised, and what each consumer of the poisoned data leaves of that
(R248, Table 11-3). -/

namespace Sys2Proof.Machine

/-! ## Counting and logging -/

theorem State.obj_setObjBit_ne (s : State) (r r' : ObjRow) (b : Nat) (v : Bool) (i k i' k' : Nat)
    (h : r'.key i' k' ≠ r.key i k) : (s.setObjBit r b v i k).obj r' i' k' = s.obj r' i' k' :=
  s.obj_setObj_ne _ _ _ _ _ _ _ h

theorem State.obj_bump_ne (s : State) (r r' : ObjRow) (n i k i' k' : Nat) (h : r'.key i' k' ≠ r.key i k) :
    (s.bump r n i k).obj r' i' k' = s.obj r' i' k' := s.obj_setObj_ne _ _ _ _ _ _ _ h

theorem State.obj_bump_self (s : State) (r : ObjRow) (n i k : Nat) (h : rising s.od = true) :
    (s.bump r n i k).obj r i k = (s.obj r i k + n) % 2 ^ (8 * r.ty.size) := s.obj_setObj_of_rising _ _ _ _ h

/-- An uncorrectable read at `a` stands counted and logged in `u`, beside what `s` held. -/
structure State.UeCounted (s u : State) (a : Nat) : Prop where
  total : u.obj Row.ueTotal = (s.obj Row.ueTotal + 1) % 2 ^ 32
  channel : u.obj Row.chUe (channelOf a) = (s.obj Row.chUe (channelOf a) + 1) % 2 ^ 32
  package : u.obj Row.pkgUe (channelOf a / 4) = (s.obj Row.pkgUe (channelOf a / 4) + 1) % 2 ^ 32
  status : u.objBit Row.memStatus 5 = true
  log : u.obj Row.ueLog = s.obj Row.ueLog / 2 ^ 128 +
    (a % 2 ^ 64 + s.mem.layout.partition a * 2 ^ 64 + s.timer % 2 ^ 32 * 2 ^ 96) * 2 ^ 8064

/-- The counters and the status of an uncorrectable read, before it is logged. -/
def State.countUe (s : State) (a : Nat) : State :=
  (((s.bump Row.ueTotal).bump Row.chUe 1 (channelOf a)).bump Row.pkgUe 1 (channelOf a / 4)).setObjBit Row.memStatus 5 true

theorem State.countUe_mem (s : State) (a : Nat) : (s.countUe a).mem = s.mem := by
  simp only [State.countUe, State.setObjBit_eq, State.bump_eq, State.setObj_mem]

theorem State.countUe_mode (s : State) (a : Nat) : (s.countUe a).mode = s.mode := by
  simp only [State.countUe, State.setObjBit_eq, State.bump_eq, State.setObj_mode]

theorem State.countUe_timer (s : State) (a : Nat) : (s.countUe a).timer = s.timer := by
  simp only [State.countUe, State.setObjBit_eq, State.bump_eq, State.setObj_timer]

theorem State.countUe_wq (s : State) (a : Nat) : (s.countUe a).wq = s.wq := by
  simp only [State.countUe, State.setObjBit_eq, State.bump_eq, State.setObj_wq]

/-- A channel's number is below 96, so that its objects stay within theirs. -/
theorem channelOf_lt (a : Nat) : channelOf a < 96 := Nat.mod_lt _ (by decide)

/-- No two of the objects that an uncorrectable read writes share a key. -/
theorem ueKeys_ne (c : Nat) (hc : c < 96) :
    Row.ueTotal.key 0 0 ≠ Row.chUe.key c 0 ∧ Row.ueTotal.key 0 0 ≠ Row.pkgUe.key (c / 4) 0 ∧
    Row.chUe.key c 0 ≠ Row.pkgUe.key (c / 4) 0 ∧ Row.memStatus.key 0 0 ≠ Row.chUe.key c 0 ∧
    Row.memStatus.key 0 0 ≠ Row.pkgUe.key (c / 4) 0 ∧ Row.ueLog.key 0 0 ≠ Row.chUe.key c 0 ∧
    Row.ueLog.key 0 0 ≠ Row.pkgUe.key (c / 4) 0 := by
  simp only [ObjRow.key, Row.ueTotal, Row.chUe, Row.pkgUe, Row.memStatus, Row.ueLog]
  omega

theorem State.rising_countUe (s : State) (a : Nat) (h : rising s.od = true) : rising (s.countUe a).od = true :=
  State.rising_setObjBit _ _ _ _ _ _ (State.rising_bump _ _ _ _ _ (State.rising_bump _ _ _ _ _ (s.rising_bump _ _ _ _ h)))

theorem State.logUe_ueCounted (s : State) (a : Nat) (h : rising s.od = true) :
    s.UeCounted ((s.countUe a).logUe a (s.mem.layout.partition a)) a := by
  obtain ⟨htc, htp, hcp, hsc, hsp, hlc, hlp⟩ := ueKeys_ne (channelOf a) (channelOf_lt a)
  have h1 : rising (s.bump Row.ueTotal).od = true := s.rising_bump _ _ _ _ h
  have h2 : rising ((s.bump Row.ueTotal).bump Row.chUe 1 (channelOf a)).od = true := State.rising_bump _ _ _ _ _ h1
  have h3 := State.rising_bump _ Row.pkgUe 1 (channelOf a / 4) 0 h2
  have h4 := s.rising_countUe a h
  refine ⟨?_, ?_, ?_, ?_, ?_⟩
  · rw [State.logUe, State.obj_setObj_ne _ _ _ _ _ _ _ _ (by decide), State.countUe,
      State.obj_setObjBit_ne _ _ _ _ _ _ _ _ _ (by decide), State.obj_bump_ne _ _ _ _ _ _ _ _ htp,
      State.obj_bump_ne _ _ _ _ _ _ _ _ htc, State.obj_bump_self _ _ _ _ _ h]
    rfl
  · rw [State.logUe, State.obj_setObj_ne _ _ _ _ _ _ _ _ hlc.symm, State.countUe,
      State.obj_setObjBit_ne _ _ _ _ _ _ _ _ _ hsc.symm, State.obj_bump_ne _ _ _ _ _ _ _ _ hcp,
      State.obj_bump_self _ _ _ _ _ h1, State.obj_bump_ne _ _ _ _ _ _ _ _ htc.symm]
    rfl
  · rw [State.logUe, State.obj_setObj_ne _ _ _ _ _ _ _ _ hlp.symm, State.countUe,
      State.obj_setObjBit_ne _ _ _ _ _ _ _ _ _ hsp.symm, State.obj_bump_self _ _ _ _ _ h2,
      State.obj_bump_ne _ _ _ _ _ _ _ _ hcp.symm, State.obj_bump_ne _ _ _ _ _ _ _ _ htp.symm]
    rfl
  · rw [State.objBit, State.logUe, State.obj_setObj_ne _ _ _ _ _ _ _ _ (by decide), ← State.objBit, State.countUe,
      State.objBit_setObjBit _ _ _ _ _ _ _ h3, if_pos rfl]
  · have hold : (s.countUe a).obj Row.ueLog = s.obj Row.ueLog := by
      rw [State.countUe, State.obj_setObjBit_ne _ _ _ _ _ _ _ _ _ (by decide), State.obj_bump_ne _ _ _ _ _ _ _ _ hlp,
        State.obj_bump_ne _ _ _ _ _ _ _ _ hlc, State.obj_bump_ne _ _ _ _ _ _ _ _ (by decide)]
    rw [State.logUe, State.obj_setObj_of_rising _ _ _ _ _ h4, show 8 * 1024 - 128 = 8064 from rfl, hold, s.countUe_timer a]

theorem State.memUe_eq (s : State) (a : Nat) : s.memUe a =
    (((s.countUe a).logUe a (s.mem.layout.partition a)).raisePf 0x0901 0 a (s.mem.layout.partition a)).memoryRecord a := rfl

@[simp] theorem State.memoryRecord_od (s : State) (a : Nat) : (s.memoryRecord a).od = s.od := rfl
@[simp] theorem State.memoryRecord_mem (s : State) (a : Nat) : (s.memoryRecord a).mem = s.mem := rfl
@[simp] theorem State.memoryRecord_mode (s : State) (a : Nat) : (s.memoryRecord a).mode = s.mode := rfl
@[simp] theorem State.memoryRecord_timer (s : State) (a : Nat) : (s.memoryRecord a).timer = s.timer := rfl
@[simp] theorem State.memoryRecord_wq (s : State) (a : Nat) : (s.memoryRecord a).wq = s.wq := rfl

theorem State.memoryRecord_keepsMemory (s : State) (a : Nat) : s.KeepsMemory (s.memoryRecord a) :=
  ⟨rfl, rfl, rfl, fun _ _ => rfl⟩

theorem State.memUe_mem (s : State) (a : Nat) : (s.memUe a).mem = s.mem := by
  rw [s.memUe_eq a, State.memoryRecord_mem, (State.raisePf_onlyEvents _ _ _ _ _).mem, State.logUe,
    State.setObj_mem, s.countUe_mem a]

theorem State.memUe_mode (s : State) (a : Nat) : (s.memUe a).mode = s.mode := by
  rw [s.memUe_eq a, State.memoryRecord_mode, (State.raisePf_onlyEvents _ _ _ _ _).mode, State.logUe,
    State.setObj_mode, s.countUe_mode a]

theorem State.memUe_timer (s : State) (a : Nat) : (s.memUe a).timer = s.timer := by
  rw [s.memUe_eq a, State.memoryRecord_timer, (State.raisePf_onlyEvents _ _ _ _ _).timer, State.logUe,
    State.setObj_timer, s.countUe_timer a]

theorem State.memUe_wq (s : State) (a : Nat) : (s.memUe a).wq = s.wq := by
  rw [s.memUe_eq a, State.memoryRecord_wq, (State.raisePf_onlyEvents _ _ _ _ _).wq, State.logUe,
    State.setObj_wq, s.countUe_wq a]

theorem State.rising_memUe (s : State) (a : Nat) (h : rising s.od = true) : rising (s.memUe a).od = true := by
  rw [s.memUe_eq a, State.memoryRecord_od]
  exact (State.raisePf_onlyEvents _ _ _ _ _).rise (State.rising_setObj _ _ _ _ _ (s.rising_countUe a h))

/-! ## Consumers -/

/-- The timer, the mode, and what an uncorrectable read counts and logs are as before; of the other objects of module memory
CAST_RESULT and bits of MEM_STATUS may differ. -/
structure State.KeepsErrors (s u : State) : Prop where
  mode : u.mode = s.mode
  timer : u.timer = s.timer
  objs : ∀ k, memoryKey k → k ≠ Row.memStatus.key 0 0 → k ≠ Row.castResult.key 0 0 → tget u.od k = tget s.od k
  status : u.objBit Row.memStatus 5 = s.objBit Row.memStatus 5

theorem State.KeepsErrors.refl (s : State) : s.KeepsErrors s := ⟨rfl, rfl, fun _ _ _ _ => rfl, rfl⟩

theorem State.KeepsMemory.keepsErrors {s u : State} (h : s.KeepsMemory u) : s.KeepsErrors u :=
  ⟨h.mode, h.timer, fun k hk _ _ => h.objs k hk, by
    rw [State.objBit, s.obj_of_tget u _ _ _ (h.objs _ (by unfold memoryKey; decide)), State.objBit]⟩

theorem State.failCast_keepsErrors (s : State) (result : Nat) (h : rising s.od = true) : s.KeepsErrors (s.failCast result) := by
  obtain ⟨hobjs, hbits⟩ := s.failCast_objs result h
  cases hc : s.mem.cast with
  | none => simp [State.failCast, hc, State.KeepsErrors.refl]
  | some r =>
    obtain ⟨-, -, -, -, hmode, htimer⟩ := s.failCast_ends result r hc h
    exact ⟨hmode, htimer, hobjs, hbits 5 (by decide)⟩

/-- The keys of the counters of an uncorrectable read on channel `c`, and of its log. -/
def ueCountKeys (c : Nat) : List Nat := [Row.ueTotal.key 0 0, Row.chUe.key c 0, Row.pkgUe.key (c / 4) 0, Row.ueLog.key 0 0]

/-- Counting an uncorrectable read reads and writes the objects of `ueCountKeys` and its bit of MEM_STATUS alone. -/
theorem State.UeCounted.congr {s s' u u' : State} {a : Nat} (h : s.UeCounted u a) (hlayout : s'.mem.layout = s.mem.layout)
    (htimer : s'.timer = s.timer) (hs : ∀ k ∈ ueCountKeys (channelOf a), tget s'.od k = tget s.od k)
    (hu : ∀ k ∈ ueCountKeys (channelOf a), tget u'.od k = tget u.od k)
    (hstatus : u'.objBit Row.memStatus 5 = u.objBit Row.memStatus 5) : s'.UeCounted u' a := by
  have hobj (t t' : State) (ht : ∀ k ∈ ueCountKeys (channelOf a), tget t'.od k = tget t.od k) :
      t'.obj Row.ueTotal = t.obj Row.ueTotal ∧ t'.obj Row.chUe (channelOf a) = t.obj Row.chUe (channelOf a) ∧
      t'.obj Row.pkgUe (channelOf a / 4) = t.obj Row.pkgUe (channelOf a / 4) ∧ t'.obj Row.ueLog = t.obj Row.ueLog :=
    ⟨t.obj_of_tget t' _ _ _ (ht _ (by simp [ueCountKeys])), t.obj_of_tget t' _ _ _ (ht _ (by simp [ueCountKeys])),
      t.obj_of_tget t' _ _ _ (ht _ (by simp [ueCountKeys])), t.obj_of_tget t' _ _ _ (ht _ (by simp [ueCountKeys]))⟩
  obtain ⟨hst, hsc, hsp, hsl⟩ := hobj s s' hs
  obtain ⟨hut, huc, hup, hul⟩ := hobj u u' hu
  refine ⟨?_, ?_, ?_, hstatus.trans h.status, ?_⟩
  · rw [hut, hst, h.total]
  · rw [huc, hsc, h.channel]
  · rw [hup, hsp, h.package]
  · rw [hul, hsl, hlayout, htimer, h.log]

theorem memoryKey_of_mem_ueCountKeys {c k : Nat} (hc : c < 96) (h : k ∈ ueCountKeys c) :
    memoryKey k ∧ k ≠ Row.memStatus.key 0 0 ∧ k ≠ Row.castResult.key 0 0 := by
  simp only [ueCountKeys, ObjRow.key, Row.ueTotal, Row.chUe, Row.pkgUe, Row.ueLog, List.mem_cons, List.not_mem_nil, or_false] at h
  simp only [memoryKey, ObjRow.key, Row.memStatus, Row.castResult, List.mem_cons, List.not_mem_nil, or_false]
  omega

theorem State.UeCounted.of_keepsErrors {s t u : State} {a : Nat} (h : s.UeCounted t a) (g : t.KeepsErrors u) :
    s.UeCounted u a := by
  refine h.congr rfl rfl (fun _ _ => rfl) (fun k hk => ?_) g.status
  obtain ⟨hm, hs, hr⟩ := memoryKey_of_mem_ueCountKeys (channelOf_lt a) hk
  exact g.objs k hm hs hr

theorem State.memUe_ueCounted (s : State) (a : Nat) (h : rising s.od = true) : s.UeCounted (s.memUe a) a := by
  have hevents := State.raisePf_onlyEvents ((s.countUe a).logUe a (s.mem.layout.partition a)) 0x0901 0 a
    (s.mem.layout.partition a)
  refine (s.logUe_ueCounted a h).of_keepsErrors ?_
  rw [s.memUe_eq a]
  exact (hevents.keepsMemory.trans (State.memoryRecord_keepsMemory _ a)).keepsErrors

theorem State.setEntry_keepsErrors_failCast (s : State) (k : Nat) (e : CastEntry) (h : rising s.od = true) :
    s.KeepsErrors ((s.setEntry k e).failCast 6) := by
  have hf := (s.setEntry k e).failCast_keepsErrors 6 h
  exact ⟨hf.mode, hf.timer, hf.objs, hf.status⟩

/-- Whoever consumes the poisoned data, the read stays counted and logged. -/
theorem State.consumeUe_keepsErrors (s : State) (c : UeConsumer) (h : rising s.od = true) : s.KeepsErrors (s.consumeUe c) := by
  cases c with
  | qpContext q =>
    unfold State.consumeUe
    dsimp only
    split
    · split
      · exact .refl s
      · exact (s.contextLost_keepsMemory _ _).keepsErrors
    · exact .refl s
  | region n => exact ⟨rfl, rfl, fun _ _ _ _ => rfl, rfl⟩
  | collective c k => exact (s.endColl_keepsMemory c k 0x15 0 0x15 none (by decide) (by decide)).keepsErrors
  | castCopy =>
    unfold State.consumeUe State.copyUe
    dsimp only
    split
    · split
      · exact s.failCast_keepsErrors 6 h
      · exact .refl s
    · exact .refl s
  | castRestoreOrMirror k =>
    unfold State.consumeUe State.slotUe
    dsimp only
    split
    · split
      · exact s.setEntry_keepsErrors_failCast _ _ h
      · exact .refl s
    · exact .refl s
  | host => exact .refl s
  | atomicCache q psn => exact (s.updQp_keepsMemory _ _).keepsErrors
  | castDirectory both => cases both <;> exact ⟨rfl, rfl, fun _ _ _ _ => rfl, rfl⟩
  | scrub => exact .refl s

/-- No consumer but a collective, a RESTORE or a mirroring touches bytes of module memory. -/
theorem State.byte_consumeUe (s : State) (c : UeConsumer) (h : rising s.od = true) (hcoll : ∀ n k, c ≠ .collective n k)
    (hslot : ∀ k, c ≠ .castRestoreOrMirror k) (b : Nat) : (s.consumeUe c).mem.byte b = s.mem.byte b := by
  cases c with
  | qpContext q =>
    unfold State.consumeUe
    dsimp only
    split
    · split
      · rfl
      · rw [(s.contextLost_keepsMemory _ _).mem]
    · rfl
  | region n => rfl
  | collective c k => exact absurd rfl (hcoll c k)
  | castCopy =>
    unfold State.consumeUe State.copyUe
    dsimp only
    split
    · rename_i r hr
      split
      · rename_i htake
        have hop : r.op ≠ 2 := by
          simp only [Bool.and_eq_true, decide_eq_true_eq] at htake
          omega
        obtain ⟨-, -, -, hbytes, -, -⟩ := s.failCast_ends 6 r hr h
        exact hbytes hop b
      · rfl
    · rfl
  | castRestoreOrMirror k => exact absurd rfl (hslot k)
  | host => rfl
  | atomicCache q psn => rfl
  | castDirectory both => cases both <;> rfl
  | scrub => rfl

/-- The QP whose context was read is LOST. -/
theorem State.consumeUe_qpContext (s : State) (q : Nat) (x : Qp) (h : s.qp q = some x) :
    ((s.consumeUe (.qpContext q)).qp q).map Qp.lost = some true := by
  simp only [State.consumeUe, h]
  split
  · rename_i hlost
    simp [h, hlost]
  · simp [State.qp_contextLost, h]

theorem State.consumeUe_region (s : State) (n : Nat) (r : Region) (h : tget s.wq.regions n = some r) :
    tget (s.consumeUe (.region n)).wq.regions n = some { r with poisoned := r.valid } := by
  simp [State.consumeUe, State.updRegion, tupd, h]

theorem State.consumeUe_atomicCache (s : State) (q : Nat) (psn : Psn) (x : Qp) (h : s.qp q = some x) :
    ((s.consumeUe (.atomicCache q psn)).qp q).map (fun y => y.resp.cache) =
      some (x.resp.cache.filter fun e => e.1 != psn) := by
  simp [State.consumeUe, qp_updQp_self, h]

/-- A TAKE whose copy reads STATE uncorrectable ends with MEMORY_ERROR. -/
theorem State.consumeUe_castCopy (s : State) (r : CastRun) (h : rising s.od = true) (hc : s.mem.cast = some r) (hop : r.op = 1)
    (hp : r.phase = .copying) :
    (s.consumeUe .castCopy).mem.cast = none ∧
      (s.consumeUe .castCopy).obj Row.castResult = 1 * 2 ^ 24 + 6 * 2 ^ 16 + r.slot * 2 ^ 8 := by
  have hfail : s.consumeUe .castCopy = s.failCast 6 := by simp [State.consumeUe, State.copyUe, hc, hop, hp]
  obtain ⟨hnone, -, hresult, -, -, -⟩ := s.failCast_ends 6 r hc h
  rw [hfail, ← hop]
  exact ⟨hnone, hresult⟩

/-- A RESTORE or a mirroring that reads its slot uncorrectable leaves the slot INCOMPLETE. -/
theorem State.consumeUe_slot (s : State) (k : Fin 4) (r : CastRun) (h : rising s.od = true) (hdir : s.mem.dir.length = 4)
    (hc : s.mem.cast = some r) (hk : r.slot = k.val) (hp : (r.op = 2 ∧ r.phase = .copying) ∨ r.phase = .mirroring) :
    (s.consumeUe (.castRestoreOrMirror k)).mem.cast = none ∧
      ((s.consumeUe (.castRestoreOrMirror k)).entry k.val).slotState = 4 := by
  let t := s.setEntry k.val { s.entry k.val with slotState := 4 }
  have hfail : s.consumeUe (.castRestoreOrMirror k) = t.failCast 6 := by
    simp only [State.consumeUe, State.slotUe, hc]
    rw [if_pos (by simp [hk, hp])]
  have hcut : t.cutEntry r = t := by
    unfold State.cutEntry
    rw [if_neg]
    rcases hp with ⟨hop, -⟩ | hp
    · simp [hop]
    · simp [hp]
  obtain ⟨hnone, hdir', -, -, -, -⟩ := t.failCast_ends 6 r hc h
  rw [hcut] at hdir'
  rw [hfail, State.entry, hdir', ← State.entry, s.entry_setEntry_self k.val _ (by omega)]
  exact ⟨hnone, rfl⟩

end Sys2Proof.Machine
end

section
/-! The service of a channel that holds the scrubber's request alone (R13, R245, R248, R254). -/

namespace Sys2Proof.Machine

/-! ## What serving a channel can change -/

/-- Nothing differs between two states, of those things here named, but what the channels keep and the objects of keys `ks`. -/
structure State.OnlyChannels (ks : List Nat) (s u : State) : Prop where
  mem : u.mem = { s.mem with
    ces := u.mem.ces, ceRaised := u.mem.ceRaised, passes := u.mem.passes, asleep := u.mem.asleep, queues := u.mem.queues
    waited := u.mem.waited, accesses := u.mem.accesses, checks := u.mem.checks }
  wq : u.wq = s.wq
  mode : u.mode = s.mode
  timer : u.timer = s.timer
  objs : ∀ k, k ∉ ks → tget u.od k = tget s.od k
  rise : rising s.od = true → rising u.od = true

namespace State.OnlyChannels

variable {ks ls : List Nat} {s t u : State}

theorem refl (ks : List Nat) (s : State) : s.OnlyChannels ks s := ⟨rfl, rfl, rfl, rfl, fun _ _ => rfl, id⟩

theorem trans (h : s.OnlyChannels ks t) (g : t.OnlyChannels ls u) : s.OnlyChannels (ks ++ ls) u where
  mem := g.mem.trans (by rw [h.mem])
  wq := g.wq.trans h.wq
  mode := g.mode.trans h.mode
  timer := g.timer.trans h.timer
  objs := fun k hk => by
    rw [List.mem_append, not_or] at hk
    exact (g.objs k hk.2).trans (h.objs k hk.1)
  rise := fun hr => g.rise (h.rise hr)

theorem mono (h : s.OnlyChannels ks u) (hsub : ks ⊆ ls) : s.OnlyChannels ls u :=
  ⟨h.mem, h.wq, h.mode, h.timer, fun k hk => h.objs k fun hin => hk (hsub hin), h.rise⟩

theorem ite {c : Prop} [Decidable c] (ht : s.OnlyChannels ks t) (hu : s.OnlyChannels ks u) :
    s.OnlyChannels ks (if c then t else u) := by
  split
  · exact ht
  · exact hu

theorem obj (h : s.OnlyChannels ks u) (r : ObjRow) (i : Nat) (hk : r.key i 0 ∉ ks) : u.obj r i = s.obj r i :=
  s.obj_of_tget u r i 0 (h.objs _ hk)

theorem castWaits (h : s.OnlyChannels ks u) : u.castWaits = s.castWaits := by
  rw [State.castWaits, h.mem, State.castWaits]

theorem layout (h : s.OnlyChannels ks u) : u.mem.layout = s.mem.layout := by rw [h.mem]

theorem byte (h : s.OnlyChannels ks u) (b : Nat) : u.mem.byte b = s.mem.byte b := by
  rw [h.mem]
  rfl

end State.OnlyChannels

theorem State.setObj_onlyChannels (s : State) (r : ObjRow) (v i k : Nat) : s.OnlyChannels [r.key i k] (s.setObj r v i k) where
  mem := by rw [State.setObj_mem]
  wq := s.setObj_wq r v i k
  mode := s.setObj_mode r v i k
  timer := s.setObj_timer r v i k
  objs := fun _ hn => s.tget_setObj_ne _ _ _ _ (by simpa using hn)
  rise := s.rising_setObj r v i k

theorem State.OnlyEvents.onlyChannels {s u : State} (h : s.OnlyEvents u) : s.OnlyChannels [Row.eqLostCount.key 0 0] u where
  mem := by rw [h.mem]
  wq := h.wq
  mode := h.mode
  timer := h.timer
  objs := fun _ hn => h.objs _ (by simpa using hn)
  rise := h.rise

theorem State.wakeChannel_onlyChannels (s : State) (c : Nat) : s.OnlyChannels [Row.memStatus.key 0 0] (s.wakeChannel c) := by
  unfold State.wakeChannel
  split
  · refine .trans (ks := []) ?_ (State.setObj_onlyChannels _ _ _ _ _)
    exact ⟨rfl, rfl, rfl, rfl, fun _ _ => rfl, id⟩
  · exact .refl _ s

theorem State.memAsk_onlyChannels (s : State) (cls a : Nat) (act : MemAct) :
    s.OnlyChannels [Row.memStatus.key 0 0] (s.memAsk cls a act) :=
  (s.wakeChannel_onlyChannels (channelOf a)).trans (ls := []) ⟨rfl, rfl, rfl, rfl, fun _ _ => rfl, id⟩

/-- The counters of the check lines of channel `c`. -/
def checkKeys (c : Nat) : List Nat := [Row.chCheckHit.key c 0, Row.chCheckMiss.key c 0]

theorem State.lookCheck_onlyChannels (s : State) (a : Nat) : s.OnlyChannels (checkKeys (channelOf a)) (s.lookCheck a) := by
  unfold State.lookCheck
  dsimp only
  refine .trans (ks := []) ?_ ((State.setObj_onlyChannels _ _ _ _ _).mono ?_)
  · exact ⟨rfl, rfl, rfl, rfl, fun _ _ => rfl, id⟩
  · split <;> simp

theorem State.scrubMove_onlyChannels (s : State) (c : Nat) :
    s.OnlyChannels [Row.chScrubOffset.key c 0, Row.scrubPasses.key 0 0] (s.scrubMove c) := by
  unfold State.scrubMove
  dsimp only
  split
  · exact (s.setObj_onlyChannels _ _ _ _).mono (by simp)
  · refine .trans (ks := [Row.chScrubOffset.key c 0]) ?_ (State.setObj_onlyChannels _ _ _ _ _)
    exact (s.setObj_onlyChannels Row.chScrubOffset 0 c 0).trans (ls := []) ⟨rfl, rfl, rfl, rfl, fun _ _ => rfl, id⟩

/-- The keys of what an uncorrectable read counts, logs and raises. -/
def ueKeys (c : Nat) : List Nat := Row.memStatus.key 0 0 :: Row.eqLostCount.key 0 0 :: ueCountKeys c

theorem State.memoryRecord_onlyChannels (s : State) (a : Nat) : s.OnlyChannels [] (s.memoryRecord a) :=
  ⟨rfl, rfl, rfl, rfl, fun _ _ => rfl, id⟩

theorem State.memUe_onlyChannels (s : State) (a : Nat) : s.OnlyChannels (ueKeys (channelOf a)) (s.memUe a) := by
  have hcount : s.OnlyChannels _ (s.countUe a) := (((s.setObj_onlyChannels Row.ueTotal _ 0 0).trans
    (State.setObj_onlyChannels _ Row.chUe _ (channelOf a) 0)).trans
      (State.setObj_onlyChannels _ Row.pkgUe _ (channelOf a / 4) 0)).trans (State.setObj_onlyChannels _ Row.memStatus _ 0 0)
  rw [s.memUe_eq a]
  refine .mono (((hcount.trans (State.setObj_onlyChannels _ Row.ueLog _ 0 0)).trans
    (State.raisePf_onlyEvents _ _ _ _ _).onlyChannels).trans (State.memoryRecord_onlyChannels _ a)) ?_
  simp [ueKeys, ueCountKeys]

/-! ## Corrections -/

/-- The counters of a correction. -/
def State.countCe (s : State) (c pin : Nat) : State :=
  (((s.bump Row.ceTotal).bump Row.chCe 1 c).bumpField Row.chDqCe (4 * pin) 4 1 c).bump Row.pkgCe 1 (c / 4)

/-- The keys of the counters of a correction on channel `c`. -/
def ceKeys (c : Nat) : List Nat := [Row.ceTotal.key 0 0, Row.chCe.key c 0, Row.chDqCe.key c 0, Row.pkgCe.key (c / 4) 0]

theorem State.countCe_onlyChannels (s : State) (c pin : Nat) : s.OnlyChannels (ceKeys c) (s.countCe c pin) :=
  (((s.setObj_onlyChannels Row.ceTotal _ 0 0).trans (State.setObj_onlyChannels _ Row.chCe _ c 0)).trans
    (State.setObj_onlyChannels _ Row.chDqCe _ c 0)).trans (State.setObj_onlyChannels _ Row.pkgCe _ (c / 4) 0)

/-- Beyond its counters a correction may raise MEM_CE_RATE. -/
theorem State.correction_onlyChannels (s : State) (c pin : Nat) :
    (s.countCe c pin).OnlyChannels [Row.memStatus.key 0 0, Row.eqLostCount.key 0 0] (s.correction c pin) := by
  have htables (t : State) (ces raised : Tab _) :
      t.OnlyChannels [] { t with mem := { t.mem with ces := ces, ceRaised := raised } } :=
    ⟨rfl, rfl, rfl, rfl, fun _ _ => rfl, id⟩
  have hflag (t : State) : t.OnlyChannels [Row.memStatus.key 0 0] (t.setObjBit Row.memStatus 4 true) :=
    t.setObj_onlyChannels _ _ _ _
  unfold State.correction
  refine .ite ?_ (.ite ?_ ?_)
  · exact (htables (s.countCe c pin) _ _).mono (by simp)
  · refine .mono (ks := [Row.memStatus.key 0 0]) ?_ (by simp)
    exact (htables (s.countCe c pin) _ _).trans (hflag _)
  · exact (((htables (s.countCe c pin) _ _).trans (hflag _)).trans (htables _ _ _)).trans
      (State.raisePf_onlyEvents _ _ _ _ _).onlyChannels

end Sys2Proof.Machine
end

section
/-! The scrubber's read as its channel serves it. -/

namespace Sys2Proof.Machine

/-! ## What a scrubber's read counts -/

/-- No two of the objects that a scrub read counts in share a key, nor one with those of the check lines. -/
theorem scrubKeys_distinct (c : Nat) (hc : c < 96) :
    Row.ceTotal.key 0 0 ∉ [Row.chCe.key c 0, Row.chDqCe.key c 0, Row.pkgCe.key (c / 4) 0] ∧
    Row.chCe.key c 0 ∉ [Row.ceTotal.key 0 0, Row.chDqCe.key c 0, Row.pkgCe.key (c / 4) 0] ∧
    Row.chDqCe.key c 0 ∉ [Row.ceTotal.key 0 0, Row.chCe.key c 0, Row.pkgCe.key (c / 4) 0] := by
  simp only [ObjRow.key, Row.ceTotal, Row.chCe, Row.chDqCe, Row.pkgCe, List.mem_cons, List.not_mem_nil, or_false]
  omega

/-- A correction on channel `c`, pin `pin`, stands counted in `u`, beside what `s` held. -/
structure State.CeCounted (s u : State) (c pin : Nat) : Prop where
  total : u.obj Row.ceTotal = (s.obj Row.ceTotal + 1) % 2 ^ 64
  channel : u.obj Row.chCe c = (s.obj Row.chCe c + 1) % 2 ^ 64
  pin : u.objField Row.chDqCe (4 * pin) 4 c = (s.objField Row.chDqCe (4 * pin) 4 c + 1) % 2 ^ 32

theorem State.countCe_ceCounted (s : State) (c pin : Nat) (hc : c < 96) (h : rising s.od = true) :
    s.CeCounted (s.countCe c pin) c pin := by
  obtain ⟨ht, hch, hdq⟩ := scrubKeys_distinct c hc
  simp only [List.mem_cons, List.not_mem_nil, or_false, not_or] at ht hch hdq
  obtain ⟨htc, htd, htp⟩ := ht
  obtain ⟨hct, hcd, hcp⟩ := hch
  obtain ⟨hdt, hdc, hdp⟩ := hdq
  have h1 : rising (s.bump Row.ceTotal).od = true := s.rising_bump _ _ _ _ h
  have h2 : rising ((s.bump Row.ceTotal).bump Row.chCe 1 c).od = true := State.rising_bump _ _ _ _ _ h1
  refine ⟨?_, ?_, ?_⟩
  · rw [State.countCe, State.obj_bump_ne _ _ _ _ _ _ _ _ htp, State.bumpField_eq, State.setObjField_eq,
      State.obj_setObj_ne _ _ _ _ _ _ _ _ htd, State.obj_bump_ne _ _ _ _ _ _ _ _ htc, State.obj_bump_self _ _ _ _ _ h]
    rfl
  · rw [State.countCe, State.obj_bump_ne _ _ _ _ _ _ _ _ hcp, State.bumpField_eq, State.setObjField_eq,
      State.obj_setObj_ne _ _ _ _ _ _ _ _ hcd, State.obj_bump_self _ _ _ _ _ h1, State.obj_bump_ne _ _ _ _ _ _ _ _ hct]
    rfl
  · have hpin : (s.countCe c pin).objField Row.chDqCe (4 * pin) 4 c =
        (s.objField Row.chDqCe (4 * pin) 4 c + 1) % 256 ^ 4 := by
      rw [State.objField, State.countCe, State.obj_bump_ne _ _ _ _ _ _ _ _ hdp, ← State.objField,
        State.objField_bumpField _ _ _ _ _ _ _ h2, State.objField, State.obj_bump_ne _ _ _ _ _ _ _ _ hdc,
        State.obj_bump_ne _ _ _ _ _ _ _ _ hdt, ← State.objField]
    exact hpin

/-- Counting a correction reads and writes the objects of `ceKeys` alone. -/
theorem State.CeCounted.congr {s s' u u' : State} {c pin : Nat} (h : s.CeCounted u c pin)
    (hs : ∀ k ∈ ceKeys c, tget s'.od k = tget s.od k) (hu : ∀ k ∈ ceKeys c, tget u'.od k = tget u.od k) :
    s'.CeCounted u' c pin := by
  have hobj (t t' : State) (ht : ∀ k ∈ ceKeys c, tget t'.od k = tget t.od k) :
      t'.obj Row.ceTotal = t.obj Row.ceTotal ∧ t'.obj Row.chCe c = t.obj Row.chCe c ∧
      t'.obj Row.chDqCe c = t.obj Row.chDqCe c :=
    ⟨t.obj_of_tget t' _ _ _ (ht _ (by simp [ceKeys])), t.obj_of_tget t' _ _ _ (ht _ (by simp [ceKeys])),
      t.obj_of_tget t' _ _ _ (ht _ (by simp [ceKeys]))⟩
  obtain ⟨hst, hsc, hsd⟩ := hobj s s' hs
  obtain ⟨hut, huc, hud⟩ := hobj u u' hu
  refine ⟨?_, ?_, ?_⟩
  · rw [hut, hst, h.total]
  · rw [huc, hsc, h.channel]
  · rw [State.objField, State.objField, hud, hsd]
    exact h.pin

/-- What the scrubber's read of the granule at `a` does before the scrubber moves on (R248). -/
def State.scrubFound (s : State) (a : Nat) : ScrubResult → State
  | .clean => s
  | .corrected pin => (s.correction (channelOf a) pin.val).memAsk 6 a
  | .uncorrectable => s.memUe a

theorem State.scrubbed_eq (s : State) (a : Nat) (r : ScrubResult) :
    s.scrubbed a r = (s.scrubFound a r).scrubMove (channelOf a) := by
  cases r <;> rfl

theorem State.scrubFound_onlyChannels (s : State) (a : Nat) (r : ScrubResult) :
    s.OnlyChannels (ceKeys (channelOf a) ++ ueKeys (channelOf a)) (s.scrubFound a r) := by
  cases r with
  | clean => exact .refl _ s
  | corrected pin =>
    refine .mono (((s.countCe_onlyChannels (channelOf a) pin.val).trans (s.correction_onlyChannels (channelOf a) pin.val)).trans
      (State.memAsk_onlyChannels _ 6 a _)) ?_
    simp [ueKeys]
  | uncorrectable => exact (s.memUe_onlyChannels a).mono (List.subset_append_right _ _)

/-- The scrubber moves to the next granule of its channel, and from the last one to the first. -/
theorem State.obj_scrubMove (s : State) (c : Nat) (hc : c < 96) (h : rising s.od = true) :
    (s.scrubMove c).obj Row.chScrubOffset c =
      if s.obj Row.chScrubOffset c + 1 < granules then s.obj Row.chScrubOffset c + 1 else 0 := by
  unfold State.scrubMove
  dsimp only
  split
  · exact s.obj_setObj_of_rising _ _ _ _ h
  · refine (State.obj_setObj_ne _ _ _ _ _ _ _ _ ?_).trans (s.obj_setObj_of_rising Row.chScrubOffset 0 c 0 h)
    simp only [ObjRow.key, Row.chScrubOffset, Row.scrubPasses]
    omega

/-- The requests that wait after a scrub read: a corrected granule is written back, in class 6 (R248). -/
def scrubFollowUp (a : Nat) : ScrubResult → List MemReq
  | .corrected _ => [⟨6, a, .access⟩]
  | _ => []

theorem State.wakeChannel_queues (s : State) (c : Nat) : (s.wakeChannel c).mem.queues = s.mem.queues := by
  unfold State.wakeChannel
  split
  · rw [State.setObjBit_eq, State.setObj_mem]
  · rfl

theorem State.memAsk_queues (s : State) (cls a : Nat) (act : MemAct) :
    (s.memAsk cls a act).mem.queues =
      tput s.mem.queues (channelOf a) ((tget s.mem.queues (channelOf a)).getD [] ++ [⟨cls, a, act⟩]) := by
  rw [← s.wakeChannel_queues (channelOf a)]
  rfl

theorem State.correction_queues (s : State) (c pin : Nat) : (s.correction c pin).mem.queues = s.mem.queues := by
  have hite {b : Prop} [Decidable b] {t u : State} (ht : t.mem.queues = s.mem.queues) (hu : u.mem.queues = s.mem.queues) :
      (if b then t else u).mem.queues = s.mem.queues := by
    split
    · exact ht
    · exact hu
  have hcount : (s.countCe c pin).mem.queues = s.mem.queues := by
    rw [State.countCe, State.bump_eq, State.setObj_mem, State.bumpField_eq, State.setObjField_eq, State.setObj_mem,
      State.bump_eq, State.setObj_mem, State.bump_eq, State.setObj_mem]
  unfold State.correction
  refine hite hcount (hite ?_ ?_)
  · rw [State.setObjBit_eq, State.setObj_mem]
    exact hcount
  · rw [(State.raisePf_onlyEvents _ _ _ _ _).mem, State.setObjBit_eq, State.setObj_mem]
    exact hcount

theorem State.scrubMove_queues (s : State) (c : Nat) : (s.scrubMove c).mem.queues = s.mem.queues := by
  unfold State.scrubMove
  dsimp only
  split
  · rw [State.setObj_mem]
  · rw [State.setObj_mem, State.setObj_mem]

theorem State.scrubbed_queues (s : State) (a : Nat) (r : ScrubResult) (h : s.mem.queues = [(channelOf a, [])]) :
    (s.scrubbed a r).mem.queues = [(channelOf a, scrubFollowUp a r)] := by
  rw [State.scrubbed_eq, State.scrubMove_queues]
  cases r with
  | clean => exact h
  | corrected pin => simp [State.scrubFound, State.memAsk_queues, State.correction_queues, h, tput, scrubFollowUp]
  | uncorrectable => rw [State.scrubFound, State.memUe_mem, h, scrubFollowUp]; simp

/-! ## Accesses of a channel on which class 6 alone waits -/

/-- Where one class alone waits, it is served, starved or not. -/
theorem nextClass_of_unique (waits : Nat → Bool) (w : List Nat) (k : Nat) (hk : waits k = true) (hmem : k ∈ memClasses)
    (huniq : ∀ j, waits j = true → j = k) : nextClass waits w = some k := by
  unfold nextClass
  split
  · rename_i j hj
    have hw := List.find?_some hj
    simp only [Bool.and_eq_true] at hw
    rw [huniq j hw.1]
  · cases hf : memClasses.find? waits with
    | none => exact absurd hk (List.find?_eq_none.mp hf k hmem)
    | some j => rw [huniq j (List.find?_some hf)]

/-- Channel `c` has given its one request an access, of which it keeps `w` and `l`. -/
def State.afterAccess (s : State) (c : Nat) (w l : List Nat) : State :=
  { s with mem := { s.mem with
    queues := tput s.mem.queues c [], waited := tput s.mem.waited c w, accesses := tput s.mem.accesses c l } }

theorem State.afterAccess_onlyChannels (s : State) (c : Nat) (w l : List Nat) : s.OnlyChannels [] (s.afterAccess c w l) :=
  ⟨rfl, rfl, rfl, rfl, fun _ _ => rfl, id⟩

theorem State.channelAccess_of_class6 (s : State) (c : Nat) (r : MemReq) (hq : s.mem.queues = [(c, [r])]) (hr : r.cls = 6)
    (hw : s.castWaits = false) : ∃ w l, s.channelAccess c = ((s.afterAccess c w l).lookCheck r.addr).memServed r := by
  have hget : tget s.mem.queues c = some [r] := by simp [hq]
  have hready : [r].filter (fun r => !s.initWaits r) = [r] := by simp [State.initWaits, hr]
  have hnext (w : List Nat) : nextClass (fun k => (k == 5 && s.castWaits) || [r].any fun r => r.cls == k) w = some 6 :=
    nextClass_of_unique _ w 6 (by simp [hr]) (by decide) fun j hj => by simp [hw, hr] at hj; exact hj.symm
  refine ⟨waitedAfter (fun k => (k == 5 && s.castWaits) || [r].any fun r => r.cls == k) ((tget s.mem.waited c).getD []) 6,
    (tget s.mem.accesses c).getD [] ++ [6], ?_⟩
  unfold State.channelAccess
  simp only [hget, Option.getD_some, hready, hnext]
  simp [hr, State.afterAccess]

theorem State.channelRun_of_class6 (n : Nat) (s : State) (c : Nat) (r : MemReq) (hq : s.mem.queues = [(c, [r])])
    (hr : r.cls = 6) : State.channelRun (n + 1) s c = State.channelRun n (s.channelAccess c) c := by
  have hget : tget s.mem.queues c = some [r] := by simp [hq]
  simp [State.channelRun, hget, State.initWaits, hr]

theorem State.channelRun_of_empty (n : Nat) (s : State) (c : Nat) (hq : s.mem.queues = [(c, [])]) :
    s.OnlyChannels [] (State.channelRun (n + 1) s c) ∧ (State.channelRun (n + 1) s c).mem.queues = [] := by
  have hrun : State.channelRun (n + 1) s c = { s with mem := { s.mem with queues := tdel s.mem.queues c } } := by
    simp [State.channelRun, hq]
  rw [hrun]
  exact ⟨⟨rfl, rfl, rfl, rfl, fun _ _ => rfl, id⟩, by simp [hq, tdel]⟩

theorem State.lookCheck_queues (s : State) (a : Nat) : (s.lookCheck a).mem.queues = s.mem.queues := by
  rw [State.lookCheck, State.bump_eq, State.setObj_mem]

theorem State.afterAccess_queues (s : State) (c : Nat) (w l : List Nat) (q : List MemReq) (hq : s.mem.queues = [(c, q)]) :
    (s.afterAccess c w l).mem.queues = [(c, [])] := by
  simp [State.afterAccess, hq, tput]

/-- The channel gives the write-back of a correction its access, and nothing waits any more. -/
theorem State.channelRun_of_followUp (n : Nat) (s : State) (a : Nat) (r : ScrubResult)
    (hq : s.mem.queues = [(channelOf a, scrubFollowUp a r)]) (hw : s.castWaits = false) :
    s.OnlyChannels (checkKeys (channelOf a)) (State.channelRun (n + 2) s (channelOf a)) ∧
      (State.channelRun (n + 2) s (channelOf a)).mem.queues = [] := by
  by_cases hcorr : scrubFollowUp a r = []
  · rw [hcorr] at hq
    obtain ⟨hkeep, hempty⟩ := State.channelRun_of_empty (n + 1) s _ hq
    exact ⟨hkeep.mono (by simp), hempty⟩
  · have hfollow : scrubFollowUp a r = [⟨6, a, .access⟩] := by cases r <;> simp_all [scrubFollowUp]
    rw [hfollow] at hq
    obtain ⟨w, l, haccess⟩ := s.channelAccess_of_class6 _ _ hq rfl hw
    have hq' : (s.channelAccess (channelOf a)).mem.queues = [(channelOf a, [])] := by
      rw [haccess]
      exact (State.lookCheck_queues _ _).trans (s.afterAccess_queues _ w l _ hq)
    obtain ⟨hkeep, hempty⟩ := State.channelRun_of_empty n _ _ hq'
    rw [State.channelRun_of_class6 _ s _ _ hq rfl]
    have hlook : (s.afterAccess (channelOf a) w l).OnlyChannels (checkKeys (channelOf a)) (s.channelAccess (channelOf a)) := by
      rw [haccess]
      exact State.lookCheck_onlyChannels _ a
    exact ⟨(((s.afterAccess_onlyChannels _ w l).trans hlook).trans hkeep).mono (by simp), hempty⟩

/-- A channel whose only request is the scrubber's serves it to the end. -/
theorem State.serveChannels_of_scrub (s : State) (a : Nat) (r : ScrubResult)
    (hq : s.mem.queues = [(channelOf a, [⟨6, a, .scrub r⟩])]) (hw : s.castWaits = false) :
    ∃ w, s.OnlyChannels (checkKeys (channelOf a)) w ∧
      (w.scrubbed a r).OnlyChannels (checkKeys (channelOf a)) s.serveChannels ∧ s.serveChannels.mem.queues = [] := by
  let t : State := { s with mem := { s.mem with accesses := tdel s.mem.accesses (channelOf a) } }
  have hserve : s.serveChannels = State.channelRun 12 t (channelOf a) := by
    rw [State.serveChannels, hq, eachDo_singleton]
    rfl
  obtain ⟨w, l, haccess⟩ := t.channelAccess_of_class6 (channelOf a) ⟨6, a, .scrub r⟩ hq rfl hw
  refine ⟨(t.afterAccess (channelOf a) w l).lookCheck a, ?_, ?_⟩
  · refine .trans (ks := []) ?_ (State.lookCheck_onlyChannels _ a)
    exact ⟨rfl, rfl, rfl, rfl, fun _ _ => rfl, id⟩
  · have hlook : ((t.afterAccess (channelOf a) w l).lookCheck a).mem.queues = [(channelOf a, [])] :=
      (State.lookCheck_queues _ _).trans (t.afterAccess_queues _ w l _ hq)
    have hwaits : (((t.afterAccess (channelOf a) w l).lookCheck a).scrubbed a r).castWaits = false := by
      rw [State.scrubbed_eq, (State.scrubMove_onlyChannels _ _).castWaits, (State.scrubFound_onlyChannels _ a r).castWaits,
        (State.lookCheck_onlyChannels _ a).castWaits]
      exact hw
    rw [hserve, State.channelRun_of_class6 11 t _ _ hq rfl, haccess]
    exact State.channelRun_of_followUp 9 _ a r (State.scrubbed_queues _ a r hlook) hwaits

end Sys2Proof.Machine
end

section
/-! What SCRUB_READ asks for, and what its service leaves (R45, R254). -/

namespace Sys2Proof.Machine

/-! ## The request -/

/-- A periodic action falls on a whole multiple of its period, and never before the timer (R45). -/
theorem State.nextTick_dvd (s : State) (id T : Nat) : T ∣ s.nextTick id T := by
  have hmax {a b : Nat} (ha : T ∣ a) (hb : T ∣ b) : T ∣ max a b := by
    rw [Nat.max_def]
    split
    · exact hb
    · exact ha
  unfold State.nextTick roundUp
  split
  · exact hmax (Nat.dvd_refl T) (Nat.dvd_mul_left _ _)
  · exact hmax (Nat.dvd_mul_left _ _) (Nat.dvd_mul_left _ _)

theorem le_roundUp (x m : Nat) (h : 0 < m) : x ≤ roundUp x m := by
  have hm : m ≠ 0 := by omega
  unfold roundUp ceilDiv
  rw [if_neg hm]
  have := Nat.div_add_mod (x + m - 1) m
  have := Nat.mod_lt (x + m - 1) h
  rw [Nat.mul_comm]
  omega

theorem State.timer_le_nextTick (s : State) (id T : Nat) (h : 0 < T) : s.timer ≤ s.nextTick id T := by
  have := le_roundUp s.timer T h
  unfold State.nextTick
  split <;> omega

theorem State.tickOf_timer_eq (s : State) (id T : Nat) (h : 0 < T) : (s.tickOf id T).timer = s.nextTick id T := by
  rw [State.tickOf_timer]
  have := s.timer_le_nextTick id T h
  omega

theorem State.memAsk_eq (s : State) (cls a : Nat) (act : MemAct) :
    s.memAsk cls a act = { s with mem := (s.memAsk cls a act).mem, od := (s.memAsk cls a act).od } := by
  unfold State.memAsk State.wakeChannel
  dsimp only
  split <;> rfl

theorem State.scrubRead_of_runs (s : State) (c : Nat) (r : ScrubResult) (hf : s.firmwareRuns = true)
    (hi : s.mem.initActive = false) :
    s.scrubRead c r = s.memAsk 6 ((s.obj Row.chScrubOffset c * 96 + c) * 256) (.scrub r) := by
  simp [State.scrubRead, hf, hi]

/-- The granules of a channel are its own. -/
theorem channelOf_granule (o c : Nat) (hc : c < 96) : channelOf ((o * 96 + c) * 256) = c := by
  unfold channelOf
  omega

/-! ## Its service -/

/-- The keys of the objects that the scrubber's read changes beside those it counts in. -/
def scrubberKeys (c : Nat) : List Nat :=
  [Row.memStatus.key 0 0, Row.eqLostCount.key 0 0, Row.chScrubOffset.key c 0, Row.scrubPasses.key 0 0] ++ checkKeys c

theorem scrubberKeys_asked (c : Nat) : [Row.memStatus.key 0 0] ++ checkKeys c ⊆ scrubberKeys c :=
  List.append_subset.mpr ⟨by simp [scrubberKeys], List.subset_append_right _ _⟩

theorem scrubberKeys_moved (c : Nat) : [Row.chScrubOffset.key c 0, Row.scrubPasses.key 0 0] ++ checkKeys c ⊆ scrubberKeys c :=
  List.append_subset.mpr ⟨by simp [scrubberKeys], List.subset_append_right _ _⟩

/-- The counters of errors lie apart from what else the scrubber changes. -/
theorem count_notMem_scrubberKeys {c k : Nat} (hk : k ∈ ceKeys c ++ ueCountKeys c) : k ∉ scrubberKeys c := by
  simp only [ceKeys, ueCountKeys, ObjRow.key, Row.ceTotal, Row.chCe, Row.chDqCe, Row.pkgCe, Row.ueTotal, Row.chUe, Row.pkgUe,
    Row.ueLog, List.mem_append, List.mem_cons, List.not_mem_nil, or_false] at hk
  simp only [scrubberKeys, checkKeys, ObjRow.key, Row.memStatus, Row.eqLostCount, Row.chScrubOffset, Row.scrubPasses,
    Row.chCheckHit, Row.chCheckMiss, List.mem_append, List.mem_cons, List.not_mem_nil, or_false]
  omega

theorem scrubOffset_notMem (c : Nat) (hc : c < 96) :
    Row.chScrubOffset.key c 0 ∉ Row.memStatus.key 0 0 :: checkKeys c ++ (ceKeys c ++ ueKeys c) := by
  simp only [checkKeys, ceKeys, ueKeys, ueCountKeys, ObjRow.key, Row.chScrubOffset, Row.memStatus, Row.chCheckHit,
    Row.chCheckMiss, Row.ceTotal, Row.chCe, Row.chDqCe, Row.pkgCe, Row.eqLostCount, Row.ueTotal, Row.chUe, Row.pkgUe, Row.ueLog,
    List.mem_append, List.mem_cons, List.not_mem_nil, or_false]
  omega

theorem memStatus_notMem (c : Nat) :
    Row.memStatus.key 0 0 ∉ [Row.chScrubOffset.key c 0, Row.scrubPasses.key 0 0] ++ checkKeys c := by
  simp only [checkKeys, ObjRow.key, Row.chScrubOffset, Row.scrubPasses, Row.memStatus, Row.chCheckHit, Row.chCheckMiss,
    List.mem_append, List.mem_cons, List.not_mem_nil, or_false]
  omega

/-- A scrub read of the granule at `a`, asked for in `s` and served in `u`. -/
structure State.Scrubbed (s u : State) (a : Nat) (r : ScrubResult) : Prop where
  offset : u.obj Row.chScrubOffset (channelOf a) =
    if s.obj Row.chScrubOffset (channelOf a) + 1 < granules then s.obj Row.chScrubOffset (channelOf a) + 1 else 0
  corrected : ∀ pin, r = .corrected pin → s.CeCounted u (channelOf a) pin.val
  uncorrectable : r = .uncorrectable → s.UeCounted u a
  bytes : ∀ b, u.mem.byte b = s.mem.byte b
  wq : u.wq = s.wq
  mode : u.mode = s.mode

/-- The service of the scrubber's request, from the state in which the request was made. -/
theorem State.scrubbed_of_served (s t w u : State) (a : Nat) (r : ScrubResult) (hr : rising s.od = true)
    (hask : s.OnlyChannels [Row.memStatus.key 0 0] t) (hlook : t.OnlyChannels (checkKeys (channelOf a)) w)
    (hlast : (w.scrubbed a r).OnlyChannels (checkKeys (channelOf a)) u) : s.Scrubbed u a r := by
  have hc := channelOf_lt a
  have hsw := hask.trans hlook
  have hfound := w.scrubFound_onlyChannels a r
  have hafter := ((w.scrubFound a r).scrubMove_onlyChannels (channelOf a)).trans ((w.scrubbed_eq a r) ▸ hlast)
  have hall := (hsw.trans hfound).trans hafter
  have hbefore {k : Nat} (hk : k ∈ ceKeys (channelOf a) ++ ueCountKeys (channelOf a)) : tget s.od k = tget w.od k :=
    ((hsw.mono (scrubberKeys_asked _)).objs k (count_notMem_scrubberKeys hk)).symm
  have hkept {k : Nat} (hk : k ∈ ceKeys (channelOf a) ++ ueCountKeys (channelOf a)) :
      tget u.od k = tget (w.scrubFound a r).od k :=
    (hafter.mono (scrubberKeys_moved _)).objs k (count_notMem_scrubberKeys hk)
  refine ⟨?_, fun pin hpin => ?_, fun hue => ?_, hall.byte, hall.wq, hall.mode⟩
  · have hold : (w.scrubFound a r).obj Row.chScrubOffset (channelOf a) = s.obj Row.chScrubOffset (channelOf a) :=
      (hsw.trans hfound).obj _ _ (by simpa using scrubOffset_notMem (channelOf a) hc)
    have hnew : u.obj Row.chScrubOffset (channelOf a) = (w.scrubbed a r).obj Row.chScrubOffset (channelOf a) :=
      hlast.obj _ _ fun hin => scrubOffset_notMem (channelOf a) hc (by simp [hin])
    rw [hnew, w.scrubbed_eq, State.obj_scrubMove _ _ hc (hfound.rise (hsw.rise hr)), hold]
  · subst hpin
    have htail := ((w.correction_onlyChannels (channelOf a) pin.val).trans (State.memAsk_onlyChannels _ 6 a .access)).mono
      (ls := scrubberKeys (channelOf a)) (by simp [scrubberKeys])
    exact (w.countCe_ceCounted (channelOf a) pin.val hc (hsw.rise hr)).congr (fun k hk => hbefore (by simp [hk]))
      fun k hk => (hkept (by simp [hk])).trans (htail.objs k (count_notMem_scrubberKeys (List.mem_append_left _ hk)))
  · subst hue
    have hstatus : u.objBit Row.memStatus 5 = (w.memUe a).objBit Row.memStatus 5 := by
      rw [State.objBit, hafter.obj _ _ (memStatus_notMem (channelOf a)), ← State.objBit]
      rfl
    exact (w.memUe_ueCounted a (hsw.rise hr)).congr hsw.layout.symm hsw.timer.symm (fun k hk => hbefore (by simp [hk]))
      (fun k hk => hkept (by simp [hk])) hstatus

end Sys2Proof.Machine
end

section
/-! The events of module memory, and the obligation on them. -/

namespace Sys2Proof.Machine

/-! ## INIT_DONE -/

/-- Module memory with its initialisation over (R251). -/
def Mem.initialised (m : Mem) : Mem := { m with initLeft := 0, initActive := false, initTotal := 0, initMap := 0 }

theorem State.initDone_of_active (s : State) (h : s.mem.initActive = true) :
    s.initDone = (({ s with mem := s.mem.initialised }).setObjBit Row.memStatus 0 false).raisePf 0x0904 0 s.mem.initTotal 0 := by
  simp [State.initDone, h, Mem.initialised]

theorem State.initDone_mem (s : State) (h : s.mem.initActive = true) : s.initDone.mem = s.mem.initialised := by
  rw [s.initDone_of_active h, (State.raisePf_onlyEvents _ _ _ _ _).mem, State.setObjBit_eq, State.setObj_mem]

theorem State.objBit_initDone (s : State) (b : Nat) (h : s.mem.initActive = true) (hr : rising s.od = true) :
    s.initDone.objBit Row.memStatus b = if b = 0 then false else s.objBit Row.memStatus b := by
  let t : State := { s with mem := s.mem.initialised }
  have hkept : s.initDone.obj Row.memStatus = (t.setObjBit Row.memStatus 0 false).obj Row.memStatus := by
    rw [s.initDone_of_active h]
    exact State.obj_of_tget _ _ _ _ _ ((State.raisePf_onlyEvents _ _ _ _ _).objs _ (by decide))
  rw [State.objBit, hkept, ← State.objBit, t.objBit_setObjBit _ _ _ _ _ _ hr]
  rfl

theorem State.initDone_onlyReported (s : State) (h : s.mem.initActive = true) :
    ({ s with mem := s.initDone.mem }).onlyReported s.initDone := by
  rw [s.initDone_mem h, s.initDone_of_active h]
  exact (State.raisePf_onlyEvents _ _ _ _ _).onlyReported

theorem State.initDone_posts (s : State) (e : Eq) (h : s.mem.initActive = true) (hf : s.firmwareRuns = true)
    (hh : s.holding = false) (he : tget s.eqs 0 = some e) (hfull : e.full = false) (hlost : e.lost = 0) (harm : e.arm = false) :
    Output.posted e.path (e.base.toNat + e.tail.toNat % 2 ^ e.log2 * 32)
      ((leBytes 32 (eventNat 0x0904 0 s.mem.initTotal 0 s.timer)).take 4) ∈ s.initDone.out := by
  rw [s.initDone_of_active h]
  exact State.posted_mem_raiseTo _ 0 _ _ _ _ e hf hh he hfull hlost harm

/-! ## CHANNEL_IDLE -/

theorem State.channelIdle_of_hold (s : State) (c : Nat) (h : s.mode = .hold) (hr : rising s.od = true) :
    c ∈ (s.channelIdle c).mem.asleep ∧ (s.channelIdle c).objBit Row.memStatus 6 = true ∧
      (∀ d, d ≠ c → (d ∈ (s.channelIdle c).mem.asleep ↔ d ∈ s.mem.asleep)) ∧
      s.channelIdle c = { s with mem := { s.mem with asleep := (s.channelIdle c).mem.asleep }, od := (s.channelIdle c).od } := by
  let t : State := { s with mem := { s.mem with
    asleep := if s.mem.asleep.contains c then s.mem.asleep else s.mem.asleep ++ [c] } }
  have hidle : s.channelIdle c = t.setObjBit Row.memStatus 6 true := by simp [State.channelIdle, h, t]
  have hasleep : (s.channelIdle c).mem.asleep = if s.mem.asleep.contains c then s.mem.asleep else s.mem.asleep ++ [c] := by
    rw [hidle, State.setObjBit_eq, State.setObj_mem]
  refine ⟨?_, ?_, fun d hd => ?_, ?_⟩
  · rw [hasleep]
    by_cases hc : c ∈ s.mem.asleep <;> simp [hc]
  · rw [hidle, t.objBit_setObjBit _ _ _ _ _ _ hr, if_pos rfl]
  · rw [hasleep]
    by_cases hc : c ∈ s.mem.asleep <;> simp [hc, hd]
  · rw [hidle]
    rfl

/-! ## CAST_COPY_DONE -/

/-- STATE's extent stands in the slot, and the slot is LOCAL, before the command ends or mirrors (R258). -/
def State.takeCopied (s : State) (r : CastRun) (crc : Nat) : State :=
  (s.copyOut r.slot r.extent).setEntry r.slot { s.entry r.slot with slotState := 2, crc := crc, time := s.timer }

theorem State.takeCopied_eq (s : State) (r : CastRun) (crc : Nat) (h : s.shares = 1) : s.takeCopied r crc =
    (s.memCopy (s.mem.layout.base 2 * gib) (s.slotAddr r.slot) (r.extent * gib)).setEntry r.slot
      { s.entry r.slot with slotState := 2, crc := crc, time := s.timer } := by
  rw [State.takeCopied, s.copyOut_of_one_share _ _ h]

theorem State.castCopyDone_eq (s : State) (r : CastRun) (crc : Nat) (mirror : Bool) (hc : s.mem.cast = some r)
    (hp : r.phase = .copying) (hop : r.op = 1) (hs : s.shares = 1) :
    s.castCopyDone crc mirror =
      if mirror then
        { s.takeCopied r crc with mem := { (s.takeCopied r crc).mem with cast := some { r with phase := .mirroring } } }
      else (s.takeCopied r crc).endCast.castDone 1 0 r.slot := by
  rw [s.takeCopied_eq r crc hs]
  simp only [State.castCopyDone, hc, hp, hop, s.copyOut_of_one_share _ _ hs]
  rfl

/-- Module memory after the copy of a TAKE, whichever way the command goes on. -/
theorem State.castCopyDone_mem (s : State) (r : CastRun) (crc : Nat) (mirror : Bool) (hc : s.mem.cast = some r)
    (hp : r.phase = .copying) (hop : r.op = 1) (hs : s.shares = 1) :
    (s.castCopyDone crc mirror).mem =
      { (s.takeCopied r crc).mem with cast := if mirror then some { r with phase := .mirroring } else none } := by
  rw [s.castCopyDone_eq r crc mirror hc hp hop hs]
  cases mirror with
  | true => rfl
  | false =>
    rw [if_neg (by decide), State.castDone_mem]
    rfl

theorem State.castCopyDone_wq_mode (s : State) (r : CastRun) (crc : Nat) (mirror : Bool) (hc : s.mem.cast = some r)
    (hp : r.phase = .copying) (hop : r.op = 1) (hs : s.shares = 1) :
    (s.castCopyDone crc mirror).wq = s.wq ∧ (s.castCopyDone crc mirror).mode = s.mode := by
  rw [s.castCopyDone_eq r crc mirror hc hp hop hs, s.takeCopied_eq r crc hs]
  cases mirror with
  | true => exact ⟨rfl, rfl⟩
  | false =>
    rw [if_neg (by decide), State.castDone_wq, State.castDone_mode]
    exact ⟨rfl, rfl⟩

/-- A copy of bytes reads, at offset `i` of its target, as its source did. -/
theorem byte_memCopy_target (s : State) (src dst len i : Nat) (h : s.mem.wf = true) (hi : i < len) :
    (s.memCopy src dst len).mem.byte (dst + i) = s.mem.byte (src + i) := by
  rw [byte_memCopy_of_wf _ _ _ _ _ h, if_pos (by omega)]
  congr 1
  omega

theorem byte_memCopy_outside (s : State) (src dst len b : Nat) (h : s.mem.wf = true) (hb : b < dst ∨ dst + len ≤ b) :
    (s.memCopy src dst len).mem.byte b = s.mem.byte b := by
  rw [byte_memCopy_of_wf _ _ _ _ _ h, if_neg (by omega)]

/-- The end of a command that mirrors nothing more (R258, R260): none runs, and CAST_RESULT and MEM_STATUS tell it. -/
theorem State.endCast_castDone (s : State) (op result slot : Nat) (hr : rising s.od = true) :
    (s.endCast.castDone op result slot).mem.cast = none ∧
    (s.endCast.castDone op result slot).obj Row.castResult = op * 2 ^ 24 + result * 2 ^ 16 + slot * 2 ^ 8 ∧
    (s.endCast.castDone op result slot).objBit Row.memStatus 3 = false := by
  refine ⟨?_, State.obj_castDone _ _ _ _ (s.rising_endCast hr), ?_⟩
  · rw [State.castDone_mem]
    rfl
  · rw [State.objBit_castDone, s.objBit_endCast 3 hr, if_pos rfl]

/-- The copy of a TAKE puts STATE's extent in its slot, LOCAL with its CRC; the command goes on only to be mirrored. -/
theorem State.castCopyDone_takes (s : State) (r : CastRun) (crc : Nat) (mirror : Bool) (hc : s.mem.cast = some r)
    (hp : r.phase = .copying) (hop : r.op = 1) (hslot : r.slot < 4) (hdir : s.mem.dir.length = 4) (hwf : s.mem.wf = true)
    (hs : s.shares = 1) (hr : rising s.od = true) :
    let u := s.castCopyDone crc mirror
    let dst := s.slotAddr r.slot
    u.entry r.slot = { s.entry r.slot with slotState := 2, crc := crc, time := s.timer } ∧
    (∀ k, k ≠ r.slot → u.entry k = s.entry k) ∧
    (∀ i, i < r.extent * gib → u.mem.byte (dst + i) = s.mem.byte (s.mem.layout.base 2 * gib + i)) ∧
    (∀ b, b < dst ∨ dst + r.extent * gib ≤ b → u.mem.byte b = s.mem.byte b) ∧
    (if mirror then u.mem.cast = some { r with phase := .mirroring }
      else u.mem.cast = none ∧ u.obj Row.castResult = 1 * 2 ^ 24 + r.slot * 2 ^ 8 ∧ u.objBit Row.memStatus 3 = false) ∧
    u.wq = s.wq ∧ u.mode = s.mode := by
  intro u dst
  let t := s.memCopy (s.mem.layout.base 2 * gib) dst (r.extent * gib)
  let e : CastEntry := { s.entry r.slot with slotState := 2, crc := crc, time := s.timer }
  have htaken : s.takeCopied r crc = t.setEntry r.slot e := s.takeCopied_eq r crc hs
  have hmem := s.castCopyDone_mem r crc mirror hc hp hop hs
  rw [htaken] at hmem
  have hentry (k : Nat) : u.entry k = (t.setEntry r.slot e).entry k := by
    rw [State.entry, hmem]
    rfl
  have hbyte (b : Nat) : u.mem.byte b = t.mem.byte b := by
    rw [hmem]
    rfl
  have hlength : t.mem.dir.length = 4 := hdir
  refine ⟨?_, fun k hk => ?_, fun i hi => ?_, fun b hb => ?_, ?_, s.castCopyDone_wq_mode r crc mirror hc hp hop hs⟩
  · rw [hentry, t.entry_setEntry_self _ _ (by omega)]
  · rw [hentry, t.entry_setEntry_ne _ hk]
    rfl
  · rw [hbyte, byte_memCopy_target _ _ _ _ _ hwf hi]
  · rw [hbyte, byte_memCopy_outside _ _ _ _ _ hwf hb]
  · cases mirror with
    | true => exact congrArg Mem.cast hmem
    | false =>
      have hu : u = (t.setEntry r.slot e).endCast.castDone 1 0 r.slot := by
        rw [← htaken]
        exact s.castCopyDone_eq r crc false hc hp hop hs
      obtain ⟨hnone, hresult, hstatus⟩ := (t.setEntry r.slot e).endCast_castDone 1 0 r.slot hr
      rw [if_neg (by decide), hu]
      exact ⟨hnone, hresult.trans (by omega), hstatus⟩

/-! ## RESTORE_COPY_DONE -/

theorem State.endCast_mem (s : State) : s.endCast.mem = { s.mem with cast := none } := by
  rw [State.endCast, State.setObjBit_eq, State.setObj_mem]

theorem State.endCast_layout (s : State) : s.endCast.mem.layout = s.mem.layout := by rw [s.endCast_mem]

theorem State.endCast_slotAddr (s : State) (k : Nat) : s.endCast.slotAddr k = s.slotAddr k := by
  unfold State.slotAddr
  rw [s.endCast_layout]

theorem State.endCast_entry (s : State) (k : Nat) : s.endCast.entry k = s.entry k := by
  unfold State.entry
  rw [s.endCast_mem]

theorem State.restoreCopyDone_of_match (s : State) (r : CastRun) (crc : Nat) (hc : s.mem.cast = some r) (hp : r.phase = .copying)
    (hop : r.op = 2) (hs : s.shares = 1) (hcrc : crc = (s.entry r.slot).crc) :
    s.restoreCopyDone crc = ((s.endCast.memCopy (s.slotAddr r.slot) ((s.mem.layout.base 2 + r.dest) * gib)
      (r.extent * gib)).setObjBit Row.memStatus 2 false).castDone 2 0 r.slot := by
  have hone : s.endCast.shares = 1 := s.shares_endCast.trans hs
  have hcopy := s.endCast.copyBack_of_one_share r.slot r.dest r.extent hone
  unfold State.restoreCopyDone
  rw [hc]
  dsimp only
  rw [if_neg (by simp [hp, hop]), s.endCast_entry, if_pos hcrc, hcopy, s.endCast_layout, s.endCast_slotAddr]

theorem State.restoreCopyDone_of_mismatch (s : State) (r : CastRun) (crc : Nat) (hc : s.mem.cast = some r)
    (hp : r.phase = .copying) (hop : r.op = 2) (hs : s.shares = 1) (hcrc : crc ≠ (s.entry r.slot).crc) :
    s.restoreCopyDone crc =
      (s.endCast.memFree ((s.mem.layout.base 2 + r.dest) * gib) (r.extent * gib)).castDone 2 7 r.slot := by
  have hone : s.endCast.shares = 1 := s.shares_endCast.trans hs
  have hfree := s.endCast.loseDest_of_one_share r hop hone
  unfold State.restoreCopyDone
  rw [hc]
  dsimp only
  rw [if_neg (by simp [hp, hop]), s.endCast_entry, if_neg hcrc, hfree, s.endCast_layout]

theorem State.endCast_byte (s : State) (b : Nat) : s.endCast.mem.byte b = s.mem.byte b := by
  rw [s.endCast_mem]
  rfl

theorem State.endCast_wf (s : State) (h : s.mem.wf = true) : s.endCast.mem.wf = true := by
  rw [s.endCast_mem]
  exact h

/-- A RESTORE whose CRC matches puts the slot's bytes back at DEST and validates STATE. -/
theorem State.restoreCopyDone_puts_back (s : State) (r : CastRun) (crc : Nat) (hc : s.mem.cast = some r) (hp : r.phase = .copying)
    (hop : r.op = 2) (hs : s.shares = 1) (hwf : s.mem.wf = true) (hr : rising s.od = true) (hcrc : crc = (s.entry r.slot).crc) :
    let u := s.restoreCopyDone crc
    let dst := (s.mem.layout.base 2 + r.dest) * gib
    u.mem.cast = none ∧ u.mem.dir = s.mem.dir ∧ u.objBit Row.memStatus 3 = false ∧ u.objBit Row.memStatus 2 = false ∧
    u.obj Row.castResult = 2 * 2 ^ 24 + r.slot * 2 ^ 8 ∧
    (∀ i, i < r.extent * gib → u.mem.byte (dst + i) = s.mem.byte (s.slotAddr r.slot + i)) ∧
    (∀ b, b < dst ∨ dst + r.extent * gib ≤ b → u.mem.byte b = s.mem.byte b) ∧ u.wq = s.wq ∧ u.mode = s.mode := by
  intro u dst
  let t := s.endCast.memCopy (s.slotAddr r.slot) dst (r.extent * gib)
  have hu : u = (t.setObjBit Row.memStatus 2 false).castDone 2 0 r.slot := s.restoreCopyDone_of_match r crc hc hp hop hs hcrc
  have hmem : u.mem = t.mem := by rw [hu, State.castDone_mem, State.setObjBit_eq, State.setObj_mem]
  have hrt : rising t.od = true := s.rising_endCast hr
  have hbit (b : Nat) : u.objBit Row.memStatus b = if b = 2 then false else s.endCast.objBit Row.memStatus b := by
    rw [hu, State.objBit_castDone, t.objBit_setObjBit _ _ _ _ _ _ hrt]
    rfl
  have hcast : t.mem.cast = s.endCast.mem.cast ∧ t.mem.dir = s.endCast.mem.dir := ⟨rfl, rfl⟩
  refine ⟨?_, ?_, ?_, hbit 2, ?_, fun i hi => ?_, fun b hb => ?_, ?_, ?_⟩
  · rw [hmem, hcast.1, s.endCast_mem]
  · rw [hmem, hcast.2, s.endCast_mem]
  · rw [hbit 3, if_neg (by decide), s.objBit_endCast 3 hr, if_pos rfl]
  · rw [hu]
    exact (State.obj_castDone _ _ _ _ (State.rising_setObjBit _ _ _ _ _ _ hrt)).trans (by omega)
  · rw [hmem, byte_memCopy_target _ _ _ _ _ (s.endCast_wf hwf) hi, s.endCast_byte]
  · rw [hmem, byte_memCopy_outside _ _ _ _ _ (s.endCast_wf hwf) hb, s.endCast_byte]
  · rw [hu, State.castDone_wq, State.setObjBit_eq, State.setObj_wq]
    rfl
  · rw [hu, State.castDone_mode, State.setObjBit_eq, State.setObj_mode]
    rfl

/-- A RESTORE whose CRC differs leaves DEST's range undefined, and nothing else. -/
theorem State.restoreCopyDone_loses (s : State) (r : CastRun) (crc : Nat) (hc : s.mem.cast = some r) (hp : r.phase = .copying)
    (hop : r.op = 2) (hs : s.shares = 1) (hr : rising s.od = true) (hcrc : crc ≠ (s.entry r.slot).crc) :
    let u := s.restoreCopyDone crc
    let dst := (s.mem.layout.base 2 + r.dest) * gib
    u.mem.cast = none ∧ u.mem.dir = s.mem.dir ∧ u.objBit Row.memStatus 3 = false ∧
    u.obj Row.castResult = 2 * 2 ^ 24 + 7 * 2 ^ 16 + r.slot * 2 ^ 8 ∧
    (∀ i, i < r.extent * gib → u.mem.byte (dst + i) = Config.outsideByte s.freeCount i) ∧
    (∀ b, b < dst ∨ dst + r.extent * gib ≤ b → u.mem.byte b = s.mem.byte b) ∧ u.wq = s.wq ∧ u.mode = s.mode := by
  intro u dst
  let t := s.endCast.memFree dst (r.extent * gib)
  have hu : u = t.castDone 2 7 r.slot := s.restoreCopyDone_of_mismatch r crc hc hp hop hs hcrc
  have hfree : s.endCast.OnlyBytes t := s.endCast.memFree_onlyBytes _ _
  have hmem : u.mem = t.mem := by rw [hu, State.castDone_mem]
  have hcount : s.endCast.freeCount = s.freeCount := rfl
  refine ⟨?_, ?_, ?_, ?_, fun i hi => ?_, fun b hb => ?_, ?_, ?_⟩
  · rw [hmem, hfree.cast, s.endCast_mem]
  · rw [hmem, hfree.dir, s.endCast_mem]
  · rw [hu, State.objBit_castDone, State.objBit, s.endCast.obj_of_od t _ _ _ hfree.od, ← State.objBit,
      s.objBit_endCast 3 hr, if_pos rfl]
  · rw [hu, State.obj_castDone _ _ _ _ (by rw [hfree.od]; exact s.rising_endCast hr)]
  · rw [hmem, byte_memFree, if_pos (by omega), hcount]
    congr 1
    omega
  · rw [hmem, byte_memFree, if_neg (by omega), s.endCast_byte]
  · rw [hu, State.castDone_wq, hfree.wq]
    rfl
  · rw [hu, State.castDone_mode, hfree.mode]
    rfl

/-! ## CAST_MIRROR_DONE -/

theorem State.castMirrorDone_eq (s : State) (r : CastRun) (hc : s.mem.cast = some r) (hp : r.phase = .mirroring) :
    s.castMirrorDone = (s.setEntry r.slot { s.entry r.slot with slotState := 3 }).endCast.castDone 1 0 r.slot := by
  unfold State.castMirrorDone
  rw [hc]
  dsimp only
  rw [if_neg (by simp [hp])]

/-- A mirror that completes leaves the slot MIRRORED, and no byte changed. -/
theorem State.castMirrorDone_ends (s : State) (r : CastRun) (hc : s.mem.cast = some r) (hp : r.phase = .mirroring)
    (hslot : r.slot < 4) (hdir : s.mem.dir.length = 4) (hr : rising s.od = true) :
    let u := s.castMirrorDone
    u.entry r.slot = { s.entry r.slot with slotState := 3 } ∧ u.mem.cast = none ∧
    u.obj Row.castResult = 1 * 2 ^ 24 + r.slot * 2 ^ 8 ∧ u.objBit Row.memStatus 3 = false ∧
    (∀ b, u.mem.byte b = s.mem.byte b) ∧ u.wq = s.wq ∧ u.mode = s.mode := by
  intro u
  let t := s.setEntry r.slot { s.entry r.slot with slotState := 3 }
  have hu : u = t.endCast.castDone 1 0 r.slot := s.castMirrorDone_eq r hc hp
  obtain ⟨hnone, hresult, hstatus⟩ := t.endCast_castDone 1 0 r.slot hr
  rw [hu]
  refine ⟨?_, hnone, hresult.trans (by omega), hstatus, fun b => ?_, ?_, ?_⟩
  · rw [State.castDone_entry, t.endCast_entry, s.entry_setEntry_self _ _ (by omega)]
  · rw [State.castDone_mem, t.endCast_byte]
    rfl
  · rw [State.castDone_wq]
    rfl
  · rw [State.castDone_mode]
    rfl

/-! ## MEM_UE -/

theorem exec_memUe (s : State) (a : Nat) (c : UeConsumer) : exec (.memUe a c) s =
    .next (finish s (if s.firmwareRuns then (s.memUe a).consumeUe c else s)) := rfl

/-! ## SCRUB_READ -/

/-- The scrubber's request, at its instant: where it waits, and what it leaves alone. -/
theorem State.scrubRead_asks (s : State) (c : Nat) (r : ScrubResult) (hc : c < 96) (hf : s.firmwareRuns = true)
    (hi : s.mem.initActive = false) (hq : s.mem.queues = []) :
    let a := (s.obj Row.chScrubOffset c * 96 + c) * 256
    s.OnlyChannels [Row.memStatus.key 0 0] (s.scrubRead c r) ∧ (s.scrubRead c r).mem.queues = [(c, [⟨6, a, .scrub r⟩])] ∧
      s.scrubRead c r = { s with mem := (s.scrubRead c r).mem, od := (s.scrubRead c r).od } := by
  intro a
  have hchannel : channelOf a = c := channelOf_granule _ c hc
  rw [s.scrubRead_of_runs c r hf hi]
  refine ⟨s.memAsk_onlyChannels 6 a _, ?_, s.memAsk_eq 6 a _⟩
  rw [s.memAsk_queues, hchannel, hq]
  rfl

/-- The scrubber's request, served by its channel. -/
theorem State.scrubRead_served (s : State) (c : Nat) (r : ScrubResult) (hc : c < 96) (hf : s.firmwareRuns = true)
    (hi : s.mem.initActive = false) (hq : s.mem.queues = []) (hw : s.castWaits = false) (hr : rising s.od = true) :
    s.Scrubbed (s.scrubRead c r).serveChannels ((s.obj Row.chScrubOffset c * 96 + c) * 256) r ∧
      (s.scrubRead c r).serveChannels.mem.queues = [] := by
  have hchannel := channelOf_granule (s.obj Row.chScrubOffset c) c hc
  obtain ⟨hask, hqueue, -⟩ := s.scrubRead_asks c r hc hf hi hq
  obtain ⟨w, hlook, hlast, hempty⟩ := (s.scrubRead c r).serveChannels_of_scrub _ r (by rw [hqueue, hchannel])
    (hask.castWaits.trans hw)
  exact ⟨s.scrubbed_of_served _ w _ _ r hr hask hlook hlast, hempty⟩

end Sys2Proof.Machine

open Sys2Proof Sys2Proof.Machine

/-- Settles O55: it holds. Each event is the operation of its name on module memory; what raising an event, ending a collective
or losing a context can change lies apart from what the event reports. -/
theorem memoryEvents : Obligations.MemoryEvents := by
  unfold Obligations.MemoryEvents
  refine ⟨?_, ?_, ?_, ?_, ?_, ?_, ?_, ?_, ?_, ?_, ?_⟩
  · -- INIT_DONE while initialisation runs, and else
    intro s hactive hr
    refine ⟨s.initDone, rfl, s.initDone_mem hactive, s.objBit_initDone 0 hactive hr, fun b hb => ?_, ?_,
      s.initDone_onlyReported hactive⟩
    · rw [s.objBit_initDone b hactive hr, if_neg hb]
    · exact fun e hf hh he hfull hlost harm => s.initDone_posts e hactive hf hh he hfull hlost harm
  · intro s hidle
    exact ⟨s.initDone, rfl, by simp [State.initDone, hidle]⟩
  · -- MEM_UE while the firmware runs, and else
    intro s a c hf hdir hr
    refine ⟨(s.memUe a).consumeUe c, by rw [exec_memUe, if_pos hf], ?_⟩
    have hrise := s.rising_memUe a hr
    have hkeeps := (s.memUe a).consumeUe_keepsErrors c hrise
    have hcounted := (s.memUe_ueCounted a hr).of_keepsErrors hkeeps
    have hqp (q : Nat) : (s.memUe a).qp q = s.qp q := by rw [State.qp, s.memUe_wq, State.qp]
    refine ⟨hcounted.total, hcounted.channel, hcounted.package, hcounted.status, hcounted.log, ?_, ?_, ?_, ?_, ?_, ?_, ?_,
      hkeeps.mode.trans (s.memUe_mode a), hkeeps.timer.trans (s.memUe_timer a)⟩
    · rintro n r rfl hreg
      exact (s.memUe a).consumeUe_region n r (by rw [s.memUe_wq, hreg])
    · rintro q psn x rfl hx
      exact (s.memUe a).consumeUe_atomicCache q psn x ((hqp q).trans hx)
    · rintro q x rfl hx
      exact (s.memUe a).consumeUe_qpContext q x ((hqp q).trans hx)
    · rintro r rfl hcast hop hp
      exact (s.memUe a).consumeUe_castCopy r hrise (by rw [s.memUe_mem, hcast]) hop hp
    · rintro k r rfl hcast hk hp
      exact (s.memUe a).consumeUe_slot k r hrise (by rw [s.memUe_mem, hdir]) (by rw [s.memUe_mem, hcast]) hk hp
    · rintro rfl
      rfl
    · intro hcoll hslot b
      rw [(s.memUe a).byte_consumeUe c hrise hcoll hslot, s.memUe_mem]
  · intro s a c hf
    exact ⟨s, by rw [exec_memUe, if_neg (by simp [hf])], rfl⟩
  · -- SCRUB_READ
    intro s ch r hf hi _ hq hw hr
    let p := s.tickOf (32 + ch.val) 1380000
    have hchannel := channelOf_granule (p.obj Row.chScrubOffset ch.val) ch.val ch.isLt
    obtain ⟨hask, hqueue, hframe⟩ := p.scrubRead_asks ch.val r ch.isLt hf hi hq
    obtain ⟨hserved, hempty⟩ := p.scrubRead_served ch.val r ch.isLt hf hi hq hw hr
    have htimer : (p.scrubRead ch.val r).timer = s.nextTick (32 + ch.val) 1380000 :=
      hask.timer.trans (s.tickOf_timer_eq _ _ (by decide))
    refine ⟨p.scrubRead ch.val r, rfl, ?_, ?_, hqueue, ?_, ?_, hempty, ?_, ?_, hserved.bytes, hserved.wq, hserved.mode⟩
    · rw [htimer]
      exact Nat.mod_eq_zero_of_dvd (s.nextTick_dvd _ _)
    · rw [htimer]
      exact s.timer_le_nextTick _ _ (by decide)
    · rw [hframe]
      rfl
    · have hoffset := hserved.offset
      rw [hchannel] at hoffset
      exact hoffset
    · rintro pin rfl
      have hcounted := hserved.corrected pin rfl
      rw [hchannel] at hcounted
      exact ⟨hcounted.total, hcounted.channel, hcounted.pin⟩
    · rintro rfl
      obtain ⟨htotal, hue, -, -, hlog⟩ := hserved.uncorrectable rfl
      rw [hchannel] at hue
      rw [hask.timer]
      exact ⟨htotal, hue, hlog⟩
  · -- CHANNEL_IDLE in HOLD, and else
    intro s ch hmode hr
    exact ⟨s.channelIdle ch.val, rfl, s.channelIdle_of_hold ch.val hmode hr⟩
  · intro s ch hmode
    exact ⟨s.channelIdle ch.val, rfl, by simp [State.channelIdle, hmode]⟩
  · -- CAST_COPY_START
    intro s r hc hp happly
    exact ⟨s.castCopyStart, rfl, by simp [State.castCopyStart, hc, hp, happly]⟩
  · -- CAST_COPY_DONE
    intro s r crc hc hp hop hslot hdir hwf hs hr
    refine ⟨s.castCopyDone crc.toNat (s.pairSt == 3), rfl, ?_⟩
    simpa using s.castCopyDone_takes r crc.toNat (s.pairSt == 3) hc hp hop hslot hdir hwf hs hr
  · -- RESTORE_COPY_DONE
    intro s r crc hc hp hop _ hwf hs hr
    refine ⟨s.restoreCopyDone crc.toNat, rfl, ?_⟩
    by_cases hcrc : crc.toNat = (s.entry r.slot).crc
    · obtain ⟨hnone, hdir, hend, hvalid, hresult, hin, hout, hwq, hmode⟩ :=
        s.restoreCopyDone_puts_back r crc.toNat hc hp hop hs hwf hr hcrc
      exact ⟨hnone, hdir, hend, fun _ => ⟨hvalid, hresult, hin⟩, fun hno => absurd hcrc hno, hout, hwq, hmode⟩
    · obtain ⟨hnone, hdir, hend, hresult, hin, hout, hwq, hmode⟩ :=
        s.restoreCopyDone_loses r crc.toNat hc hp hop hs hr hcrc
      exact ⟨hnone, hdir, hend, fun hyes => absurd hyes hcrc, fun _ => ⟨hresult, hin⟩, hout, hwq, hmode⟩
  · -- CAST_MIRROR_DONE
    intro s r hc hp hslot hdir hr
    exact ⟨s.castMirrorDone, rfl, s.castMirrorDone_ends r hc hp hslot hdir hr⟩

end
